-- ==== Sys2Proof/Word.lean ====
section
/-! DEFINITION. The word types of the manual and their plainest arithmetic (R17, R18). -/

namespace Sys2Proof

/-- A byte. -/
abbrev Byte := BitVec 8
/-- A control-port register or mailbox word (R18). -/
abbrev Word := BitVec 32
/-- A general register, a tally or a Sundial time. -/
abbrev DWord := BitVec 64
/-- A line of 128 bytes, byte `i` in bits `[8i + 7 : 8i]` (R12, R520). -/
abbrev Line := BitVec 1024
/-- Byte enables of a line (R520). -/
abbrev LineEn := BitVec 128

/-- The field `[lo + len - 1 : lo]` of a word, as a number. -/
def fld {n : Nat} (w : BitVec n) (lo len : Nat) : Nat := (w.toNat >>> lo) % 2 ^ len

/-- Bit `i` of a word. -/
def bitAt {n : Nat} (w : BitVec n) (i : Nat) : Bool := w.getLsbD i

/-- A word with the field `[lo + len - 1 : lo]` replaced. -/
def setFld {n : Nat} (w : BitVec n) (lo len v : Nat) : BitVec n :=
  let m := BitVec.ofNat n ((2 ^ len - 1) <<< lo)
  (w &&& ~~~m) ||| (BitVec.ofNat n ((v % 2 ^ len) <<< lo))

/-- A word with bit `i` given. -/
def setBit {n : Nat} (w : BitVec n) (i : Nat) (b : Bool) : BitVec n := setFld w i 1 b.toNat

/-- A word from (shift, value) pairs; the pairs name disjoint fields. -/
def pk : List (Nat × Nat) → Word
  | [] => 0
  | (sh, v) :: r => (BitVec.ofNat 32 (v <<< sh)) ||| pk r

/-- Parity of a word: true when it holds an odd number of ones. -/
def oddParity {n : Nat} (w : BitVec n) : Bool :=
  (List.range n).foldl (fun a i => xor a (w.getLsbD i)) false

/-- The little-endian bytes of a number (R17). -/
def leBytes : Nat → Nat → List Byte
  | 0, _ => []
  | k + 1, v => BitVec.ofNat 8 v :: leBytes k (v / 256)

/-- The number that little-endian bytes spell (R17). -/
def leNat : List Byte → Nat
  | [] => 0
  | b :: r => b.toNat + 256 * leNat r

/-- Byte `i` of a line. -/
def lineByte (l : Line) (i : Nat) : Byte := BitVec.ofNat 8 (l.toNat >>> (8 * i))

/-- A line from its bytes, byte 0 first. -/
def lineOf (bs : List Byte) : Line := BitVec.ofNat 1024 (leNat bs)

/-- The 128 bytes of a line. -/
def lineBytes (l : Line) : List Byte := leBytes 128 l.toNat

/-- The first `n` bytes of a list, padded with zeros. -/
def takePad (n : Nat) (bs : List Byte) : List Byte := (bs ++ List.replicate n 0).take n

/-- Division rounding up. -/
def ceilDiv (a b : Nat) : Nat := (a + b - 1) / b

/-- Saturating addition of one below a limit. -/
def satInc (limit n : Nat) : Nat := if n < limit then n + 1 else limit

/-- `a` is at or behind `b` in a 32-bit wrapping order (R436, R438). -/
def seqDist (a b : Nat) : Nat := (b + 2 ^ 32 - a % 2 ^ 32) % 2 ^ 32

end Sys2Proof
end

