-- ==== Sys2Proof/Wire.lean ====
section
/-! DEFINITION. What crosses the block's boundary as an operand of a command: packets, codewords,
training frames, memory-port beats, tie-offs, and the outcomes only the silicon can report. -/

namespace Sys2Proof

/-- The tie-offs and the test enable (R1-R5, R503, R507). -/
structure Ties where
  build : BitVec 2
  inst : BitVec 9
  diePos : BitVec 4
  tstEn : Bool
  deriving DecidableEq, Repr, Inhabited

/-- A packet (R321-R324): the common header fields, the 44 bytes of the kind area (header bytes 16
to 59), the payload flits and the CRC as received. -/
structure Packet where
  kind : Nat
  vn : Nat
  pathVn : Nat := 0
  row : Bool := false
  replay : Bool := false
  flits : Nat := 0
  rowCh : Nat := 0
  key : Nat := 0
  gen : Nat := 0
  src : Nat := 0
  dst : Nat := 0
  hint : Nat := 0
  seq : Nat := 0
  area : BitVec 352 := 0
  payload : List (BitVec 512) := []
  crc : BitVec 32 := 0
  deriving DecidableEq, Repr, Inhabited

/-- The `n` header bytes from header byte `i` of the kind area, little-endian (R17, R323). -/
def Packet.ar (p : Packet) (i n : Nat) : Nat := fld p.area (8 * (i - 16)) (8 * n)

/-- The fields of a packet's collective area (R324). -/
def Packet.bedId (p : Packet) : Nat := p.ar 16 2
/-- The generation of the bed. -/
def Packet.bedGen (p : Packet) : Nat := p.ar 18 1
/-- Stripe, section or item part. -/
def Packet.stripe (p : Packet) : Nat := p.ar 19 1 % 32
/-- The last flag. -/
def Packet.lastFlag (p : Packet) : Bool := (p.ar 19 1).testBit 5
/-- Step number. -/
def Packet.stepNo (p : Packet) : Nat := p.ar 20 4
/-- Chunk number. -/
def Packet.chunkNo (p : Packet) : Nat := p.ar 24 4
/-- Sender rank. -/
def Packet.rank (p : Packet) : Nat := p.ar 28 2 % 512
/-- Packet index. -/
def Packet.pidx (p : Packet) : Nat := p.ar 28 2 / 512

/-- The packet's payload bytes. -/
def Packet.bytes (p : Packet) : List Byte := (p.payload.map (fun f => leBytes 64 f.toNat)).flatten

/-- Payload line `i`: payload flits `2i` and `2i + 1` (R158). -/
def Packet.line (p : Packet) (i : Nat) : Line :=
  BitVec.ofNat 1024 ((p.payload.getD (2 * i) 0).toNat + 2 ^ 512 * (p.payload.getD (2 * i + 1) 0).toNat)

/-- Payload flits from lines. -/
def flitsOfLines : List Line → List (BitVec 512)
  | [] => []
  | l :: r => BitVec.ofNat 512 l.toNat :: BitVec.ofNat 512 (l.toNat >>> 512) :: flitsOfLines r

/-- Payload flits from bytes, padded with zeros to whole flits. -/
def flitsOfBytesAux : Nat → List Byte → List (BitVec 512)
  | 0, _ => []
  | k + 1, bs => BitVec.ofNat 512 (leNat (bs.take 64)) :: flitsOfBytesAux k (bs.drop 64)

/-- Payload flits from bytes, padded with zeros to whole flits. -/
def flitsOfBytes (bs : List Byte) : List (BitVec 512) := flitsOfBytesAux (ceilDiv bs.length 64) bs

/-- A kind area from (header byte, byte count, value) fields. -/
def areaOf : List (Nat × Nat × Nat) → BitVec 352
  | [] => 0
  | (i, n, v) :: r => (BitVec.ofNat 352 ((v % 2 ^ (8 * n)) <<< (8 * (i - 16)))) ||| areaOf r

/-- A codeword as a lane's decoder delivers it (R305-R308, R333): the 5,140 message bits, or none
when it is uncorrectable, and how many inner bits and outer symbols were corrected. -/
structure Codeword where
  payload : Option (BitVec 5140)
  innerCorr : Nat := 0
  rsCorr : Nat := 0
  deriving DecidableEq, Repr, Inhabited

/-- A beat on IQ with its ID beat when it is a write (R522). -/
structure IqBeat where
  write : Bool
  tag : BitVec 10
  core : BitVec 12
  plot : BitVec 8
  addr : BitVec 56
  len : BitVec 7
  vol : Bool
  par : Bool
  data : Line := 0
  be : LineEn := 0
  dpar : BitVec 17 := 0
  deriving DecidableEq, Repr, Inhabited

/-- A beat on OR (R521). -/
structure OrBeat where
  kind : BitVec 2
  tag : BitVec 10
  status : Bool
  data : Line := 0
  par : BitVec 17 := 0
  deriving DecidableEq, Repr, Inhabited

/-- An upset that only the silicon can report: an uncorrectable SRAM error in the word a command
reads (R60, R146, R246, R533), in a tally (R154), a residue mismatch that fails `fails` times in a
slice (R244), or a lockstep mismatch of a Sieve unit (R251). -/
inductive Upset where
  | none
  | sram
  | tally
  | residue (slice fails : Nat)
  | lockstep
  deriving DecidableEq, Repr, Inhabited

/-- What the hardware finds while a start step runs (R454, R460): whether the PUF secret was
reconstructed, which fenceable bank groups failed self-test, whether any other RAM failed, whether a
domain failed its power-up. -/
structure StepReport where
  pufOk : Bool := true
  badBanks : List Nat := []
  ramBad : Bool := false
  domBad : Bool := false
  deriving DecidableEq, Repr, Inhabited

/-- How a Marl write ends (R470, R478): verified, or its read-back does not decode. -/
inductive MarlWrite where
  | good
  | badReadback
  deriving DecidableEq, Repr, Inhabited

/-- What a read of a Marl slot meets (R478): the bits corrected, or more than 8 in error. -/
inductive MarlReadout where
  | ok (corrected : Nat)
  | uncorrectable
  deriving DecidableEq, Repr, Inhabited

end Sys2Proof
end

