-- ==== Sys2Proof/Config.lean ====
section
/-! DEFINITION. What the manual leaves open: constants with no body, so that nothing can be proved of
their values (free values; the log entry of each is named). -/

namespace Sys2Proof.Config

/-- Which valid line a fill of the remote-line cache replaces (R140; log 20): applied to the free
counter. -/
opaque cacheVictim : Nat → Nat

/-- SHA-384 as an uninterpreted function (R452, R453, R462; log 21). -/
opaque sha384 : List Byte → BitVec 384

/-- ECDSA P-384 verification of a 96-byte signature: key, message, signature (R451, R453; log 21). -/
opaque ecdsaVerify : List Byte → List Byte → List Byte → Bool

/-- ECDSA P-384 signature under the alias key of an Icquel and a profile digest (R461, R464; log 21). -/
opaque aliasSign : BitVec 384 → BitVec 384 → List Byte → List Byte

/-- The device public key, 97 bytes (R461; log 21). -/
opaque deviceKey : List Byte

/-- The alias public key for an Icquel and a profile digest, 97 bytes (R461; log 21). -/
opaque aliasKey : BitVec 384 → BitVec 384 → List Byte

/-- The device key's signature over a message (R461; log 21). -/
opaque deviceSign : List Byte → List Byte

/-- The digest of Maelarrek's firmware-signing key that the boot ROM holds (R453; log 21). -/
opaque romKeyDigest : BitVec 384

/-- The digest of the boot ROM (R462; log 21). -/
opaque romDigest : BitVec 384

/-- The bytes of an SPDM answer whose value the manual does not state: 1 the CTExponent, 2 the 32 bytes of the nonce (R464; log 22):
by which, and the free counter. -/
opaque spdmOpen : Nat → Nat → List Byte

/-- The 462 body bytes of a Marl record whose byte layout the manual does not give, by kind and by the
numbers the body holds (R471; log 23). -/
opaque marlBody : Nat → List Nat → List Byte

/-- The 104 parity bits of the Marl's BCH code over bytes 0 to 493 (R469; log 23). -/
opaque bchParity : List Byte → BitVec 104

/-- What a Sundial's slew leaves open: the rate, in ppm from 0 to 500, at which a block slews inside the
discipline range (R487, R490; log 24): applied to the free counter. -/
opaque slewPpm : Nat → Nat

/-- A measured island offset (R486; log 25): by island and the free counter. -/
opaque islandOffset : Nat → Nat → BitVec 16

/-- A lane's measured signal-to-noise ratio (R343; log 26): applied to the free counter. -/
opaque laneSnr : Nat → BitVec 10

/-- The measured MP_CLK in MHz (R558; log 27): applied to the number of the 10 us measurement. -/
opaque mpClkMhz : Nat → BitVec 12

/-- The destination address that a home puts into read data, which its request does not carry (R323; log 29):
applied to the free counter. -/
opaque readDest : Nat → BitVec 64

/-- Which bit of the codeword an injected error flips (R341; log 28): applied to the free counter. -/
opaque injectBit : Nat → Nat

/-- Whether a lane's receiver asks for precoding (R310, R314; log 26): applied to the free counter. -/
opaque precodeAsk : Nat → Bool

/-- Whether a lane's received polarity is inverted (R315; log 26): applied to the free counter. -/
opaque polarityInv : Nat → Bool

end Sys2Proof.Config
end

