-- ==== Sys2Proof/Machine/Table.lean ====
section
/-! DEFINITION. Plain-data tables: a sparse table by number, and the canonical byte memory. -/

namespace Sys2Proof.Machine

/-- A sparse table by number, sorted by key. A missing key reads as the type's default. -/
abbrev Tbl (α : Type) := List (Nat × α)

/-- The entry at a key, or a default. -/
def Tbl.getD {α : Type} (t : Tbl α) (k : Nat) (d : α) : α :=
  match t with
  | [] => d
  | (j, v) :: r => if j = k then v else Tbl.getD r k d

/-- The entry at a key, or the type's default. -/
def Tbl.at {α : Type} [Inhabited α] (t : Tbl α) (k : Nat) : α := t.getD k default

/-- The entry at a key when there is one. -/
def Tbl.find {α : Type} (t : Tbl α) (k : Nat) : Option α :=
  match t with
  | [] => none
  | (j, v) :: r => if j = k then some v else Tbl.find r k

/-- The table with one entry set. -/
def Tbl.set {α : Type} (t : Tbl α) (k : Nat) (v : α) : Tbl α :=
  match t with
  | [] => [(k, v)]
  | (j, w) :: r =>
    if j = k then (k, v) :: r else if k < j then (k, v) :: (j, w) :: r else (j, w) :: Tbl.set r k v

/-- The table without one entry. -/
def Tbl.del {α : Type} (t : Tbl α) (k : Nat) : Tbl α := t.filter (fun e => e.1 != k)

/-- The table with one entry changed. -/
def Tbl.mod {α : Type} [Inhabited α] (t : Tbl α) (k : Nat) (f : α → α) : Tbl α := t.set k (f (t.at k))

/-- The table with every listed entry changed. -/
def Tbl.mapVals {α : Type} (t : Tbl α) (f : Nat → α → α) : Tbl α := t.map (fun e => (e.1, f e.1 e.2))

/-- The listed entries that satisfy a test. -/
def Tbl.select {α : Type} (t : Tbl α) (p : Nat → α → Bool) : List (Nat × α) := t.filter (fun e => p e.1 e.2)

/-- The listed keys. -/
def Tbl.keys {α : Type} (t : Tbl α) : List Nat := t.map (fun e => e.1)

/-- How many listed entries satisfy a test. -/
def Tbl.count {α : Type} (t : Tbl α) (p : α → Bool) : Nat := (t.filter (fun e => p e.2)).length

/-- The least number that is no key of the table. -/
def Tbl.fresh {α : Type} (t : Tbl α) : Nat := t.foldl (fun m e => if m ≤ e.1 then e.1 + 1 else m) 0

/-- Bytes by address (buffer SRAM, a store object): addresses strictly rise and no byte listed is zero.
An unlisted byte reads zero, which is what start step 10 leaves in every RAM (R454). -/
abbrev Memory := List Host.Cell

/-- The byte at an address. -/
def Memory.read (m : Memory) (a : Nat) : Byte :=
  match m with
  | [] => 0
  | (b, v) :: r => if b = a then v else Memory.read r a

/-- The memory with one byte written; a zero byte is not listed. -/
def Memory.write (m : Memory) (a : Nat) (v : Byte) : Memory :=
  match m with
  | [] => if v = 0 then [] else [(a, v)]
  | (b, w) :: r =>
    if b = a then (if v = 0 then r else (a, v) :: r)
    else if a < b then (if v = 0 then (b, w) :: r else (a, v) :: (b, w) :: r)
    else (b, w) :: Memory.write r a v

/-- The canonical form: every address above `lo`, strictly rising, no zero byte. -/
def Memory.wfFrom : Option Nat → Memory → Bool
  | _, [] => true
  | lo, (a, v) :: r => (match lo with | none => true | some l => decide (l < a)) && decide (v ≠ 0) && Memory.wfFrom (some a) r

/-- The canonical form of a memory. -/
def Memory.wf (m : Memory) : Bool := Memory.wfFrom none m

/-- The memory with a list of single-byte writes done in order. -/
def Memory.writeAll (m : Memory) : List Host.Cell → Memory
  | [] => m
  | (a, v) :: r => Memory.writeAll (m.write a v) r

/-- Consecutive bytes from an address. -/
def Memory.readBytes (m : Memory) (a : Nat) : Nat → List Byte
  | 0 => []
  | k + 1 => m.read a :: Memory.readBytes m (a + 1) k

/-- The single-byte writes that put a byte list at an address. -/
def cellsAt (a : Nat) : List Byte → List Host.Cell
  | [] => []
  | b :: r => (a, b) :: cellsAt (a + 1) r

end Sys2Proof.Machine
end

