-- ==== Sys2Proof/Machine/Parts/Global.lean ====
section
/-! DEFINITION. Parts of State: tie-offs, resets, start, supervisors, mailboxes, the collector,
power, clocks and pins (R1-R6, R393-R432, R450-R467, R497-R517, R542-R558). -/

namespace Sys2Proof.Machine

/-- The two kinds of block reset (R425). -/
inductive ResetKind where
  | warm | cold
  deriving DecidableEq, Repr, Inhabited

/-- A block reset that waits for its reset record (R427): its kind, its cause code (R447), and the
code and flags that GLB_RESET_CAUSE keeps. -/
structure ResetReq where
  kind : ResetKind
  cause : Nat
  openCode : Nat
  fromL3 : Bool
  fromSafe : Bool
  since : Nat
  deriving DecidableEq, Repr, Inhabited

/-- GLB_ registers of reset and the reset sequencer (R1-R6, R425-R431, R447, R505). -/
structure Glb where
  ties : Ties
  domain : Nat := 0
  cause : Nat := 0
  openCode : Nat := 0
  fromL3 : Bool := false
  fromSafe : Bool := false
  cycDomain : Nat := 0
  cycBusy : Bool := false
  cycFailed : Bool := false
  cycByHang : Bool := false
  req : Option ResetReq := none
  stopped : Bool := false
  coldPin : Bool := true
  warmPin : Bool := true
  deriving DecidableEq, Repr, Inhabited

/-- The start sequencer and GLB_START_ registers (R454-R467). `running` says that a step is in progress; `icqDigest`,
`soilDigest` and `block5` are the measurement values recorded at step 9; `identity` is the identity object of R463;
`privKeys` the privileged keys of the soil profile in use; `wake` the step that a management wake runs next (R551), or zero. -/
structure Start where
  state : Nat := 2
  step : Nat := 16
  warm : Bool := false
  failed : Nat := 0
  icqCopy : Bool := false
  soilCopy : Bool := false
  trellisLoaded : Bool := true
  holdCode : Nat := 0
  timeUs : Nat := 0
  ver : Word := 0
  icqVer : Word := 0
  soilSeq : Word := 0
  running : Bool := false
  since : Nat := 0
  stepSince : Nat := 0
  icqDigest : BitVec 384 := 0
  soilDigest : BitVec 384 := 0
  block5 : BitVec 64 := 0
  identity : List Byte := []
  privKeys : List Nat := []
  wake : Nat := 0
  deriving DecidableEq, Repr, Inhabited

/-- Ownership, heartbeat, events and the event queue (R393-R401, R410). -/
structure Sup where
  owner : Option Nat := none
  target : Option Nat := none
  hoSince : Nat := 0
  hbSince : Nat := 0
  hbRun : Nat := 2000
  hbLimit : Nat := 2000
  denied : Tbl Nat := []
  events : BitVec 5 := 0
  evq : List Word := []
  dropped : Nat := 0
  deriving DecidableEq, Repr, Inhabited

/-- The SPDM state of one supervisor's mailbox, or of one node whose requests are relayed (R463, R464): `phase` 0 start, 1 after
VERSION, 2 after CAPABILITIES, 3 after ALGORITHMS; `vca` the length of the transcript at ALGORITHMS. -/
structure Spdm where
  req : Memory := []
  reqLen : Nat := 0
  phase : Nat := 0
  transcript : List Byte := []
  vca : Nat := 0
  rsp : List Byte := []
  deriving DecidableEq, Repr, Inhabited

/-- A request that Icquel has taken and not yet answered (R66, R407): an image that waits for its slot, or a relayed message with
the fragments of its answer. -/
inductive IcqWait where
  | image (slot : Nat) (hdr : Word)
  | relay (hdr : Word) (dest : Nat) (since : Nat) (first : Option (List Byte)) (second : Option (List Byte))
  deriving DecidableEq, Repr

/-- One supervisor's mailbox window (R402-R406, R411, R541). -/
structure Mbx where
  req : Tbl Word := []
  reqGo : Bool := false
  rsp : Tbl Word := []
  rspGo : Bool := false
  wakeEn : Bool := true
  irqEn : Word := 0xFF
  taken : Option IcqWait := none
  owed : Option (List Word) := none
  spdm : Spdm := {}
  deriving DecidableEq, Repr, Inhabited

/-- The unit kinds of FLT_ENT_SRC (R449). -/
inductive UnitKind where
  | furrow | port | xfer | slice | sieve | dibber | bank | block
  deriving DecidableEq, Repr, Inhabited

/-- The five levels (R412). -/
inductive Level where
  | l0 | l1 | l2 | l3 | safe
  deriving DecidableEq, Repr, Inhabited

/-- A fault on its way to the collector (R412, R413): what the entry and the Marl record take. -/
structure FaultEv where
  code : Nat
  level : Level
  plot : Option Nat := none
  kind : UnitKind := .block
  unit : Nat := 0
  layer : Nat := 0
  op : Nat := 0
  conseq : Bool := false
  detail : Nat := 0
  time : Nat := 0
  furrow : Option Nat := none
  ctx : List Byte := []
  deriving DecidableEq, Repr, Inhabited

/-- One entry of the open table (R414, R449). `cleared` says that its cause is cleared under R412. -/
structure FltEntry where
  valid : Bool := false
  code : Nat := 0
  level : Level := .l0
  escalated : Bool := false
  acked : Bool := false
  conseq : Bool := false
  plot : Option Nat := none
  kind : UnitKind := .furrow
  unit : Nat := 0
  time : Nat := 0
  layer : Nat := 0
  op : Nat := 0
  marl : Option Nat := none
  detail : Nat := 0
  furrow : Option Nat := none
  cleared : Bool := false
  deriving DecidableEq, Repr, Inhabited

/-- An engine whose reset must release its work within 1 ms (R430): the unit and when it began. -/
structure EngReset where
  kind : UnitKind
  unit : Nat
  since : Nat
  deriving DecidableEq, Repr, Inhabited

/-- The collector, FLT_ registers, fences and hung engine resets (R412-R449). -/
structure Flt where
  inflight : List FaultEv := []
  entries : Tbl FltEntry := []
  lost : Nat := 0
  fullNoted : Bool := false
  isNew : Bool := false
  safe : Bool := false
  safeCode : Nat := 0
  l3 : Bool := false
  fencedPrt : BitVec 128 := 0
  fencedXfr : BitVec 32 := 0
  fencedFur : BitVec 4 := 0
  fencedBank : BitVec 4 := 0
  icqBeat : Word := 0
  beatSince : Nat := 0
  area : Tbl Word := []
  areaWrap : BitVec 16 := 0
  plotFault : BitVec 256 := 0
  engResets : List EngReset := []
  bankErrs : Tbl (List Nat) := []
  deriving DecidableEq, Repr, Inhabited

/-- One switched domain (R508, R546-R550). `ownerOff` and `selfOff` say who switched it off, `wakeWait` that a wake waits for
the end of a power-off, `late` that PWR_ACK has not followed in time (R509). -/
structure Dom where
  on : Bool := true
  req : Bool := true
  ack : Bool := true
  reqSince : Nat := 0
  ownerOff : Bool := false
  selfOff : Bool := false
  wakeWait : Bool := false
  idleSince : Nat := 0
  noted805 : Bool := false
  late : Bool := false
  isolated : Bool := false
  deriving DecidableEq, Repr, Inhabited

/-- PWR_ and CLK_ registers and the throttle (R546-R558). -/
structure Pwr where
  doms : Tbl Dom := []
  reqReg : Word := 0
  busy : Option (Nat × Bool) := none
  gateCfg : Word := 0x0003E821
  swLevel : Nat := 0
  thermLimit : Nat := 10
  thermLow : Bool := false
  thermSince : Nat := 0
  therm2 : Bool := false
  droopLow : Bool := false
  droopHold : Option Nat := none
  thermEvt : Bool := false
  droopEvt : Bool := false
  wakeCnt : Word := 0
  refLock : Bool := true
  tLock : Bool := true
  bLock : Bool := true
  hLock : Bool := true
  cpClk : Bool := true
  mpClkOk : Bool := true
  lockEvt : Bool := false
  laneLock : BitVec 64 := 0
  lnPgood : BitVec 64 := 0
  deriving DecidableEq, Repr, Inhabited

end Sys2Proof.Machine
end

