-- ==== Sys2Proof/Machine/Parts/Furrow.lean ====
section
/-! DEFINITION. Parts of State: furrows and program images (R42-R109). -/

namespace Sys2Proof.Machine

/-- A command's fields (R67). -/
structure Cmd where
  op : Nat := 0
  flags : BitVec 8 := 0
  layer : Nat := 0
  oper : Nat := 0
  id : Nat := 0
  a : DWord := 0
  b : DWord := 0
  len : Nat := 0
  d : Nat := 0
  sel : Nat := 0
  crc : BitVec 16 := 0
  deriving DecidableEq, Repr, Inhabited

/-- A place in a ring or an image (R53, R86). -/
structure Place where
  inImage : Bool := false
  slot : Nat := 0
  idx : Nat := 0
  deriving DecidableEq, Repr, Inhabited

/-- A fetched command: its 32 bytes, where it stood, the code of a fetch that failed (0x171, 0x141),
and whether it came from the loop buffer. -/
structure Fetched where
  raw : BitVec 256 := 0
  place : Place := {}
  bad : Nat := 0
  deriving DecidableEq, Repr, Inhabited

/-- A command that has passed steps 1 to 8 of R74 and stands at issue. `passed` says that a resume
has let it past its break (R107). -/
structure Ready where
  cmd : Cmd
  place : Place
  passed : Bool := false
  deriving DecidableEq, Repr, Inhabited

/-- An issued command that has not retired (R76, R77): `tid` names it inside the block, `outst` says
that it takes one of the 16 places, `left` counts its unfinished parts, `err` is the code of its
failure, `done` says that it has completed, `dest` names the register it keeps busy (R78). -/
structure Issued where
  tid : Nat
  cmd : Cmd
  outst : Bool
  left : Nat := 0
  done : Bool := false
  err : Option Nat := none
  conseq : Bool := false
  skipped : Bool := false
  dest : Option Nat := none
  deriving DecidableEq, Repr, Inhabited

/-- The furrow states (R45, R51). -/
inductive FState where
  | idle | running | waiting | stopped | halted | faulted
  deriving DecidableEq, Repr, Inhabited

/-- The wait kinds (R51). -/
inductive WaitKind where
  | none | ringEmpty | twait | sunwait | outstanding | fence | notifyFull | scoreboard
  deriving DecidableEq, Repr, Inhabited

/-- The stop causes (R51). -/
inductive StopCause where
  | none | stopRequest | stepDone | brk | breakFlag | breakMatch
  deriving DecidableEq, Repr, Inhabited

/-- The running LOOP (R85): body commands still to fetch, the body, the next one to run and the
iterations that remain. -/
structure LoopBuf where
  need : Nat := 0
  body : List Fetched := []
  pos : Nat := 0
  iters : Nat := 0
  drop : Bool := false
  deriving DecidableEq, Repr, Inhabited

/-- A furrow and its register window (R43-R53). `held` keeps the ring commands prefetched before a
CALL, `skip` counts ring slots that a jump has still to consume, `fetching` is the fetch in flight on a
memory port, `stepTid` the command that a step has issued, `failing` an error that stops issue (R79), `forced` the code of a
plot fault that the furrow enters Faulted with once its commands are complete (R420), `nextTid` the next command's name. -/
structure Furrow where
  ctl : Word := 0x7C00
  state : FState := .idle
  wait : WaitKind := .none
  cause : StopCause := .none
  haltedEvt : Bool := false
  stopEvt : Bool := false
  faultEvt : Bool := false
  ctlIgnored : Bool := false
  plot : Nat := 0
  ringCfg : Word := 6
  baseLo : Word := 0
  baseHi : Word := 0
  prod : Word := 0
  cons : Word := 0
  seq : Word := 0
  pc : Place := {}
  faultCode : Nat := 0
  abandoned : Nat := 0
  faultSeq : Word := 0
  notify : List Word := []
  brkMatch : Word := 0
  twLimit : Nat := 50000
  preds : BitVec 8 := 0
  g : Tbl DWord := []
  stack : List Place := []
  loop : LoopBuf := {}
  prefetch : List Fetched := []
  held : List Fetched := []
  skip : Nat := 0
  fetching : Option (Nat × Place) := none
  cur : Option Ready := none
  issued : List Issued := []
  waitSince : Option Nat := none
  stepping : Bool := false
  stepTid : Option Nat := none
  halting : Bool := false
  failing : Bool := false
  forced : Option Nat := none
  resetting : Option Nat := none
  nextTid : Nat := 0
  deriving DecidableEq, Repr, Inhabited

/-- An installed program image (R63, R64). -/
structure Image where
  plot : Nat
  shared : Bool
  abiMajor : Nat
  cmds : List (BitVec 256)
  bytes : List Byte
  deriving DecidableEq, Repr, Inhabited

/-- The image slots and the replacements that wait for a slot (R63-R66). -/
structure Images where
  slots : Tbl Image := []
  waiting : Tbl Image := []
  deriving DecidableEq, Repr, Inhabited

end Sys2Proof.Machine
end

