-- ==== Sys2Proof/Machine/Parts/Transfer.lean ====
section
/-! DEFINITION. Parts of State: transfers, end-to-end delivery, the home side, memory ports, the
remote-line cache and the order tracker (R110-R183, R434-R442, R518-R534). -/

namespace Sys2Proof.Machine

/-- What a completed read of local lines goes to. -/
inductive RCont where
  | fetch (f tok : Nat)
  | segRead (seg run : Nat)
  | home (job : Nat)
  | loadg (f tid off : Nat)
  | bwLoad (id : Nat)
  | bedDesc (f tid : Nat)
  | coll (op a b c : Nat)
  | dump (id : Nat)
  deriving DecidableEq, Repr

/-- What a completed write of local lines goes to. -/
inductive WCont where
  | segWrite (seg run : Nat)
  | getDst (rq : Nat)
  | home (job : Nat)
  | storeg (f tid : Nat)
  | bwStore (id : Nat)
  | coll (op a b c : Nat)
  | dump (id : Nat)
  deriving DecidableEq, Repr

/-- A read of consecutive local lines in progress. -/
structure Gather where
  left : Nat
  got : Tbl Line := []
  err : Bool := false
  k : RCont
  deriving DecidableEq, Repr

/-- A set of local line writes in progress: what each line adds to which tally once it is visible
(R118). -/
structure Scatter where
  left : Nat
  err : Bool := false
  plot : Nat
  tally : Option Nat
  k : WCont
  deriving DecidableEq, Repr

/-- The request kinds of OQ (R520). -/
inductive AccKind where
  | read | write | lockRead | unlockWrite
  deriving DecidableEq, Repr, Inhabited

/-- What an access belongs to: line `i` of a gather, a line of a scatter that counts `bytes`, or the
lock and unlock of an atomic job. -/
inductive AccFor where
  | rd (gather i : Nat)
  | wr (scatter bytes : Nat)
  | lock (job : Nat)
  deriving DecidableEq, Repr

/-- One local line access: a beat on OQ (E64) or an access to buffer SRAM (S512). -/
structure Access where
  kind : AccKind
  addr : Nat
  plot : Nat
  data : Line := 0
  be : LineEn := 0
  what : AccFor
  deriving DecidableEq, Repr

/-- An outstanding tag of a memory port (R525, R532). -/
structure Tag where
  acc : Access
  since : Nat
  deriving DecidableEq, Repr

/-- Local work that has finished and whose consequences are still to be taken in the running command:
a read with its lines, a write, the lock or unlock of an atomic job, a copy job's segments,
a segment of a DISPATCH with the lines that it landed here, a payload or manifest packet of another member's DISPATCH, a board-window access that looped back, with zero or its code. -/
inductive Fin where
  | rd (k : RCont) (err : Bool) (lines : List Line)
  | wr (k : WCont) (err : Bool)
  | lock (job : Nat) (err : Bool) (data : Line)
  | unlock (job : Nat) (err : Bool)
  | copied (job : Nat) (err : Option Nat)
  | seg (ctx step : Nat) (own : Option Nat) (err : Option Nat) (conseq : Bool)
  | moe (plot : Nat) (p : Packet)
  | bw (acc code : Nat) (line : Line)
  deriving DecidableEq, Repr

/-- A memory port (R518-R534): `oq` and `od` are the credits held, `resv` how many of them are kept for
unlock writes (R527), `owedIq` counts IQ credits not yet
returned: the 64 of a port that has just come up and those withheld (R366, R524). -/
structure MPort where
  up : Bool := true
  oq : Nat := 0
  od : Nat := 0
  resv : Nat := 0
  gotOq : Nat := 0
  gotOd : Nat := 0
  upSince : Nat := 0
  queue : List Access := []
  tags : List (Nat × Tag) := []
  quar : List Nat := []
  withheld : Bool := false
  owedIq : Nat := 64
  owedId : Nat := 64
  noted249 : Bool := false
  deriving DecidableEq, Repr, Inhabited

/-- The memory ports, their registers, the reads and writes of local lines in progress, and the finished
ones of the running command. -/
structure Mp where
  cfg : Word := 0xC8
  bwBase : Nat := 0
  tapBase : Nat := 0
  dapBase : Nat := 0
  localMap : Word := 0
  errCode : Nat := 0
  errPort : Nat := 0
  errCore : Nat := 0
  errValid : Bool := false
  ports : Tbl MPort := []
  gathers : List (Nat × Gather) := []
  scatters : List (Nat × Scatter) := []
  fin : List Fin := []
  nextId : Nat := 0
  deriving DecidableEq, Repr, Inhabited

/-- A line of the remote-line cache: the reader's plot, the rack line address, its epoch and bytes
(R140-R145). -/
structure CLine where
  plot : Nat
  addr : Nat
  epoch : Nat
  data : Line
  deriving DecidableEq, Repr, Inhabited

/-- A board-window access waits for its order, or has gone to its home (R135, R144). -/
inductive BwState where
  | held | sent
  deriving DecidableEq, Repr, Inhabited

/-- A board-window access in the order tracker at its requester (R134-R138). -/
structure BwAcc where
  port : Nat
  beat : IqBeat
  slot : Nat
  state : BwState
  deriving DecidableEq, Repr

/-- The remote-line cache, its registers and the order tracker (R138-R147). -/
structure Rlc where
  enable : Bool := true
  plotSel : Nat := 0
  lines : List CLine := []
  epoch : Tbl Nat := []
  oldest : Tbl Nat := []
  sweeping : Bool := false
  eccEvt : Bool := false
  acc : List (Nat × BwAcc) := []
  iqHeld : List (Nat × IqBeat) := []
  deriving DecidableEq, Repr, Inhabited

/-- What a packet belongs to at the block that forms it. -/
inductive RqFor where
  | seg (id run : Nat)
  | loadg (f tid g : Nat)
  | storeg (f tid : Nat)
  | atom (f tid : Nat) (ret : Option Nat) (size : Nat)
  | tadd (f tid : Nat)
  | bwLoad (id : Nat)
  | bwStore (id : Nat)
  | coll (ctx step : Nat)
  | slot (id : Nat)
  | once
  | reply
  | bwReply
  | mgmt
  deriving DecidableEq, Repr, Inhabited

/-- A packet that its engine has formed: in the send queue, or sent and held until it is answered
(R161-R165, R434-R440). `reply` counts reply pool bytes and `ack` an acknowledgement slot that it reserves
(R161); `at1` is the time of its last send, or of its answer when `busy` says that a busy answer has put it to
rest for 1 us; `again` marks an end-to-end replay, `landing` an answer whose lines are being written; `dead` says that its command was abandoned (R167); `noFill` lists the lines of its read data that fill no cache
line (R142); `link` is the link of its last send. -/
structure Rq where
  pkt : Packet
  who : RqFor
  plot : Nat := 0
  sent : Bool := false
  reply : Nat := 0
  ack : Bool := false
  at1 : Nat := 0
  replays : Nat := 0
  busy : Bool := false
  again : Bool := false
  landing : Bool := false
  deep : Bool := false
  dead : Bool := false
  noFill : List Nat := []
  epoch : Nat := 0
  link : Nat := 0
  dstAddr : Nat := 0
  deriving DecidableEq, Repr, Inhabited

/-- What an engine does with a segment (R92, R156, R159, R170): `put` reads here and sends write data,
`fill` sends the pattern, `get` asks a home, `local` reads and writes here, `packet` sends one packet
formed at issue. -/
inductive SegKind where
  | put | fill | get | local | localFill | packet
  deriving DecidableEq, Repr, Inhabited

/-- Who a segment works for: a command of a furrow, a copy job of a home, or a DISPATCH step. -/
inductive Owner where
  | cmd (f tid : Nat)
  | job (id : Nat)
  | disp (ctx step : Nat)
  deriving DecidableEq, Repr

/-- A segment on a transfer engine (R155-R157): `src` and `dst` are local byte addresses at their ends,
`far` the node at the other end, `left` counts the runs not yet finished, `active` says that an engine
place holds it, `rdErr` and `wrErr` are the codes of a failed local read and write (R180, R566), `runs` gives
first line and length of each run, `next` and `ready` order the packets of a row channel (R130), `stamp` is what its
DISPATCH puts into header bytes 32 to 39 (R275). -/
structure Seg where
  owner : Owner
  eng : Nat := 0
  kind : SegKind
  src : Nat := 0
  dst : Nat := 0
  far : Nat := 0
  lines : Nat := 0
  pattern : DWord := 0
  tally : Nat := 0xFFFF
  plot : Nat := 0
  vol : Bool := false
  row : Option Nat := none
  left : Nat := 0
  active : Bool := false
  err : Option Nat := none
  conseq : Bool := false
  rdErr : Nat := 0x221
  wrErr : Nat := 0x221
  runs : List (Nat × Nat) := []
  next : Nat := 0
  ready : Tbl (Option Rq) := []
  stamp : Nat := 0
  deriving DecidableEq, Repr

/-- Transfer engines, the send queue, outstanding requests and PRT_XFR_ registers (R155-R183). -/
structure Xfer where
  cfg : Word := 0x130000C8
  segs : List (Nat × Seg) := []
  rqs : List (Nat × Rq) := []
  ctr : Tbl Nat := []
  rowCtr : Tbl Nat := []
  nextId : Nat := 0
  busyCnt : Word := 0
  busyWrap : Bool := false
  errCode : Nat := 0
  errEnd : Nat := 0
  errSide : Bool := false
  errPlot : Nat := 0
  errValid : Bool := false
  deriving DecidableEq, Repr, Inhabited

/-- The counted window of one source at a home (R436). -/
structure Window where
  empty : Bool := true
  high : Nat := 0
  map : BitVec 4096 := 0
  deriving DecidableEq, Repr, Inhabited

/-- A request that a home performs (R136, R158, R162, R166, R170, R178). `held` says that it waits for order,
`link` is where it arrived, `granule` and `core` serve the order of board-window accesses. `self` names the
command of an operand that named the issuing endpoint itself (R566), `ret` its return register, `bw` the
looped-back board-window access (R33). `old` is an
atomic's old value, `segs` counts a copy's unfinished segments, `err` its first failure. -/
structure Job where
  pkt : Packet
  link : Nat := 0
  plot : Nat := 0
  board : Bool := false
  held : Bool := false
  self : Option (Nat × Nat) := none
  ret : Option Nat := none
  bw : Option Nat := none
  old : DWord := 0
  segs : Nat := 0
  err : Option Nat := none
  deriving DecidableEq, Repr, Inhabited

/-- An acknowledgement that a home holds for coalescing (R162). -/
structure HeldAck where
  seq : Nat
  row : Bool := false
  rowCh : Nat := 0
  key : Nat
  gen : Nat
  board : Bool := false
  since : Nat
  deriving DecidableEq, Repr, Inhabited

/-- The home side: windows, reply logs, jobs and held acknowledgements (R162-R181, R434-R438). -/
structure Home where
  win : Tbl Window := []
  rowExp : Tbl Nat := []
  log : Tbl (List Packet) := []
  jobs : List (Nat × Job) := []
  acks : Tbl (List HeldAck) := []
  nextId : Nat := 0
  deriving DecidableEq, Repr, Inhabited

end Sys2Proof.Machine
end

