-- ==== Sys2Proof/Machine/Parts/Link.lean ====
section
/-! DEFINITION. Parts of State: lanes, links, routing, Rake and management messages (R305-R378). -/

namespace Sys2Proof.Machine

/-- The training states of a lane (R315, R343). -/
inductive TState where
  | down | detect | acquire | coeff | align | check | up | test | held
  deriving DecidableEq, Repr, Inhabited

/-- A codeword payload that a lane holds for replay (R332): its seq, its unit (none for a narrow entry), its payload, how often
it was sent and when it was last sent. -/
structure HeldCw where
  seq : Nat
  unit : Option Nat
  payload : BitVec 5140
  sends : Nat := 1
  since : Nat := 0
  deriving DecidableEq, Repr, Inhabited

/-- A lane and its register window (R305-R343). `full` says which path of R315 it trains on, `wait` that
full training waits for its batch (R317), `noFar` that DETECT found no far end (R316), `refused` that the
far end differs from the wiring rule (R27), `idOk` that its identity has been checked in this training, `frames` counts
frames received with rx_ready, `checkBad` and `checkCorr` what CHECK met, `txSeq` and
`rxSeq` are the next seqs to send and to take, `merge` the units received and not yet in turn (R326),
`discardTill` the narrowing epoch whose restart the lane awaits (R336). -/
structure Lane where
  ctl : Word := 0
  tstate : TState := .down
  fallow : Bool := false
  precodeTx : Bool := false
  precodeRx : Bool := false
  polInv : Bool := false
  farIndex : Nat := 0
  inPort : Bool := false
  lastFault : Nat := 0
  pre : Nat := 4
  post : Nat := 8
  swing : Nat := 12
  stored : Bool := false
  coef : Nat × Nat × Bool × Bool := (4, 8, false, false)
  innerCorr : Word := 0
  rsCorr : Word := 0
  rsUncorr : Word := 0
  replayCnt : Word := 0
  nakCnt : Word := 0
  prbsErr : Word := 0
  inj : Word := 80
  wrap : BitVec 6 := 0
  trainsStarted : Nat := 0
  trainsFailed : Nat := 0
  full : Bool := false
  wait : Bool := false
  attempts : Nat := 0
  stepSince : Nat := 0
  noFar : Bool := false
  noted521 : Bool := false
  seenFar : Bool := false
  refused : Bool := false
  frames : Nat := 0
  checkBad : Bool := false
  checkCorr : Nat := 0
  idOk : Bool := false
  preStatus : Nat := 0
  postStatus : Nat := 0
  rxSeq : Nat := 0
  nakOut : Bool := false
  badRun : Nat := 0
  discardTill : Option Nat := none
  txSeq : Nat := 0
  held : List HeldCw := []
  ackWaits : Nat := 0
  merge : List (BitVec 5140) := []
  noted513 : Option Nat := none
  deriving DecidableEq, Repr, Inhabited

/-- A link (R326-R338, R344-R345, R355-R356), and its part of a port or link window. Links are numbered
as the permission table numbers them (R362). `cred` is what this end may still send into the far buffers;
`inq` holds the packets received and not yet taken, by virtual network; `narrowing` is the lane mask and
epoch that this end has named and whose answer it awaits; `rxPart` is a packet whose payload is still
arriving, with the flits still to come. -/
structure Link where
  cfg : Word := 0x50000
  up : Bool := false
  mask : Nat := 0
  quietTx : Bool := false
  quietRx : Bool := false
  farBuild : Nat := 0
  farInst : Nat := 0
  epoch : Nat := 0
  narrowCnt : Word := 0
  pktCrc : Word := 0
  plotDrop : Word := 0
  staleCnt : Word := 0
  narrowWrap : Bool := false
  crcWrap : Bool := false
  dropWrap : Bool := false
  staleWrap : Bool := false
  lastDrop : Nat := 0
  cred : Tbl Nat := []
  inq : Tbl (List Packet) := []
  txUnit : Nat := 0
  txU0 : Nat := 0
  rxUnit : Nat := 0
  rxU0 : Nat := 0
  rxPart : Option (Packet × Nat) := none
  narrowing : Option (Nat × Nat) := none
  idleSince : Nat := 0
  lastRefresh : Nat := 0
  fallowing : Bool := false
  collSlots : Nat := 0
  windowSince : Nat := 0
  deficit : Tbl Nat := []
  deriving DecidableEq, Repr, Inhabited

/-- A link that went down or came up in the running command, for what the rest of the block does about
it (R175, R337, R347, R353, R439, R440). -/
inductive LinkEvt where
  | down (l : Nat)
  | up (l : Nat)
  deriving DecidableEq, Repr

/-- A lane group's eye scan (R339, R343): `lane` is the lane of the running scan. -/
structure Escan where
  ctl : Word := 0xA00000
  lane : Nat := 0
  busy : Bool := false
  done : Bool := false
  aborted : Bool := false
  err : Word := 0
  deriving DecidableEq, Repr, Inhabited

/-- Lanes, links and lane groups. -/
structure Lanes where
  lane : Tbl Lane := []
  link : Tbl Link := []
  escan : Tbl Escan := []
  trainBatch : Nat := 8
  evts : List LinkEvt := []
  deriving DecidableEq, Repr, Inhabited

/-- A Trellis bank (R362, R373). -/
structure Bank where
  route : Tbl Word := []
  mcast : Tbl (BitVec 512) := []
  perm : Tbl (BitVec 256) := []
  deriving DecidableEq, Repr, Inhabited

/-- Trellis, reach and peer tables, spraying (R346-R369, R373-R378). -/
structure Trl where
  bankA : Bank := {}
  bankB : Bank := {}
  live : Bool := false
  drain : Bool := false
  drainDone : Bool := false
  drainSince : Nat := 0
  noted632 : Bool := false
  swapAtLo : Word := 0
  swapAtHi : Word := 0
  domain : Nat := 0
  armed : Option Nat := none
  guardEnd : Option Nat := none
  drainLimit : Nat := 5000
  noRoute : Word := 0
  arb : Word := 0x01124244
  reach : Tbl Word := []
  peer : Tbl Word := []
  level : Tbl (Nat × Nat) := []
  cur : Tbl Int := []
  noted621 : List (Nat × Nat) := []
  deriving DecidableEq, Repr, Inhabited

/-- A Rake map (R370): start, window length in us, sequence number, and mean and maximum per link. -/
structure RakMap where
  start : Nat
  window : Nat
  seq : Nat
  links : List (Nat × Nat)
  deriving DecidableEq, Repr, Inhabited

/-- Rake (R370, R371, R377): `sums` holds, per link, the sum and maximum of the window's samples. -/
structure Rak where
  log2 : Nat := 10
  enable : Bool := true
  slots : Tbl RakMap := []
  oldest : Nat := 0
  held : Nat := 0
  merged : Bool := false
  decim : Word := 0
  seq : Nat := 0
  winStart : Nat := 0
  samples : Nat := 0
  sums : Tbl (Nat × Nat) := []
  lastSample : Nat := 0
  deriving DecidableEq, Repr, Inhabited

/-- Management messages: the next message number, and the fragments of relayed requests still arriving, each under twice its sender
and its index, with its last flag (R354, R407). -/
structure Mgt where
  nextSeq : Nat := 0
  relayIn : Tbl (List Byte × Bool) := []
  deriving DecidableEq, Repr, Inhabited

/-- What the block drives across its boundary, in order: control-port responses, IR beats, OQ and OD
beats, IQ and ID credits, codewords on a lane, training frames with the control field of R314, an injected
error with its mode and the bit it flips, Rake maps returned to a node (the manual gives them no message; log 79), and
cells of the test registers. -/
inductive Output where
  | cpRsp (master status : Nat) (data : Word)
  | ir (port : Nat) (write : Bool) (tag : Nat) (status : Bool) (data : Line)
  | oq (port tag : Nat) (kind : AccKind) (addr plot : Nat)
  | od (port : Nat) (data : Line) (be : LineEn)
  | iqCredit (port : Nat)
  | idCredit (port : Nat)
  | codeword (lane : Nat) (payload : BitVec 5140)
  | packet (link : Nat) (p : Packet)
  | trainFrames (lane : Nat) (ctl : BitVec 96)
  | inject (lane mode bit : Nat)
  | rakeMaps (node : Nat) (maps : List RakMap)
  | testOut (bits : List Bool)
  deriving DecidableEq, Repr

end Sys2Proof.Machine
end

