-- ==== Sys2Proof/Syntax.lean ====
section
/-! DEFINITION. The commands: one constructor for each row of spec/opcode_table.json. -/

namespace Sys2Proof

/-- The commands and events of the block. Operand names: `f` furrow; `sv` the supervisor that makes a
control-port access; `w` the word written; `l` a link; `q` a lane; `p` a plot or a packet; `u` an
upset that the silicon reports while the event runs. -/
inductive Instr where
  -- Tilth commands: furrow f issues the command it has fetched and checked
  | nop (f : Nat) | jump (f : Nat) | branch (f : Nat) | loop (f : Nat) | call (f : Nat) | ret (f : Nat)
  | halt (f : Nat) | brk (f : Nat) | seti (f : Nat) | addi (f : Nat) | movg (f : Nat) | cmp (f : Nat)
  | loadg (f : Nat) (u : Upset) | storeg (f : Nat) | copy (f : Nat) (u : Upset) | put (f : Nat)
  | get (f : Nat) (u : Upset) | fill (f : Nat) | atom (f : Nat)
  | twait (f : Nat) (u : Upset) | tadd (f : Nat) | tset (f : Nat) | fence (f : Nat) | signal (f : Nat)
  | signalEventPost (f : Nat) | sunwait (f : Nat)
  | bedopen (f : Nat) | bedclose (f : Nat) | reduce (f : Nat) | allred (f : Nat) | redscat (f : Nat)
  | allgath (f : Nat) | bcast (f : Nat) | shift (f : Nat) | permute (f : Nat) | scan (f : Nat)
  | sreduce (f : Nat) | topk (f : Nat) | dispatch (f : Nat) | combine (f : Nat)
  | dreduce (f : Nat) | dbarrier (f : Nat) | mark (f : Nat) | dump (f : Nat)
  -- furrow events
  | commandFetch (f : Nat) (u : Upset) | commandComplete (f k : Nat) | commandRetire (f : Nat)
  | twaitLimitExpiry (f : Nat)
  | furCtlStart (sv n : Nat) (w : Word) | furCtlStop (sv n : Nat) (w : Word)
  | furCtlResume (sv n : Nat) (w : Word) | furCtlStep (sv n : Nat) (w : Word)
  | furCtlReset (sv n : Nat) (w : Word) | furrowIdle (f : Nat)
  | furDoorbell (sv n : Nat) (w : Word) | furNotify (sv n : Nat) | imageReplacement (slot : Nat)
  -- transfers
  | packetSend (id : Nat) | e2eTimerExpiry (id : Nat) | copyBusyResend (id : Nat)
  | deepBusyResend (id : Nat) | ackCoalesceExpiry (node : Nat)
  | writeData (l : Nat) (p : Packet) | partialWrite (l : Nat) (p : Packet)
  | shortWrite (l : Nat) (p : Packet) | readRequest (l : Nat) (p : Packet)
  | shortRead (l : Nat) (p : Packet) | copyRequest (l : Nat) (p : Packet)
  | atomicRequest (l : Nat) (p : Packet) | tallyAdd (l : Nat) (p : Packet)
  | manifestWrite (l : Nat) (p : Packet) | readData (l : Nat) (p : Packet)
  | shortReply (l : Nat) (p : Packet) | acknowledgement (l : Nat) (p : Packet)
  | copyDone (l : Nat) (p : Packet) | copyBusy (l : Nat) (p : Packet) | errorReply (l : Nat) (p : Packet)
  | stepAbortNotice (l : Nat) (p : Packet)
  -- collectives
  | collectiveAcknowledgement (l : Nat) (p : Packet) | stepReady (l : Nat) (p : Packet)
  | grant (l : Nat) (p : Packet) | contribution (l : Nat) (p : Packet) (u : Upset)
  | loamFormPartial (l : Nat) (p : Packet) (u : Upset) | result (l : Nat) (p : Packet)
  | sparseStream (l : Nat) (p : Packet) (u : Upset) | tagCount (l : Nat) (p : Packet)
  | offsets (l : Nat) (p : Packet) | filledCounts (l : Nat) (p : Packet) | expect (l : Nat) (p : Packet)
  | combineContribution (l : Nat) (p : Packet) (u : Upset) | refusal (l : Nat) (p : Packet)
  | candidateList (l : Nat) (p : Packet)
  | dibberContribution (l : Nat) (p : Packet) | dibberPartial (l : Nat) (p : Packet)
  | dibberResult (l : Nat) (p : Packet) | barrierRelease (l : Nat) (p : Packet)
  | slotAllocate (ctx : Nat) | dibberSlotAllocate (ctx : Nat)
  | memberStepTimerExpiry (ctx step : Nat) | servingStepTimerExpiry (slot : Nat)
  | dibberMemberTimerExpiry (ctx step : Nat) | dibberServingTimerExpiry (slot : Nat)
  -- forwarding
  | packetForward (l : Nat) (p : Packet) | boardForward (l : Nat) (p : Packet)
  | ringForward (l : Nat) (p : Packet)
  -- board window and apertures
  | boardWindowLoad (port : Nat) (b : IqBeat) (u : Upset) | boardWindowStore (port : Nat) (b : IqBeat)
  | boardWindowRelease (id : Nat) | homeAccessRelease (id : Nat) | creditWithholdRelease (port : Nat)
  | invAll (sv : Nat) (w : Word) | invPlot (sv : Nat) (w : Word) | epochSweepDone
  | tallyApertureRead (port : Nat) (b : IqBeat) (u : Upset) | tallyApertureWrite (port : Nat) (b : IqBeat)
  | doorbellApertureWrite (port : Nat) (b : IqBeat)
  -- memory ports
  | mpReadData (port : Nat) (b : OrBeat) | mpWriteResponse (port : Nat) (b : OrBeat)
  | mpLockData (port : Nat) (b : OrBeat) | mpUnlockResponse (port : Nat) (b : OrBeat)
  | mpCredit (port : Nat) (od : Bool) | mpRespLimitExpiry (port tag : Nat)
  | mpInitialCreditExpiry (port : Nat) | mpClkRangeExpiry
  -- lanes and links
  | trainingFrame (q : Nat) (ctl : BitVec 96) | trainingStepDone (q : Nat) | trainingStepTimeout (q : Nat)
  | detectTimeout (q : Nat) | detectRetry (q : Nat) | codewordReceived (q : Nat) (cw : Codeword)
  | ackWaitExpiry (q : Nat) | correctedRatioWindow (q : Nat) (corrected : Nat)
  | quietIdleExpiry (l : Nat) | quietRefresh (l : Nat) | fallow (sv : Nat) (addr : BitVec 24) (w : Word)
  | fallowPowerDown (l : Nat) | lanCtlRetrain (sv q : Nat) (w : Word)
  | prtLinkCfgRetrain (sv : Nat) (addr : BitVec 24) (w : Word) | lanCtlTest (sv q : Nat) (w : Word)
  | holdDown (sv q : Nat) (w : Word) | escanStart (sv g : Nat) (w : Word) | escanDone (g n : Nat)
  | lanInjOnce (sv q : Nat) (w : Word) | injectionInterval (q : Nat) | lnPgood (g : Nat) (level : Bool)
  | lanePllLockLoss (g : Nat)
  -- management and routing
  | reachNotice (l : Nat) (p : Packet) | peerNotice (l : Nat) (p : Packet)
  | rakeMapRequest (l : Nat) (p : Packet) | managementAcknowledgement (l : Nat) (p : Packet)
  | managementNak (l : Nat) (p : Packet) | managementResend (id : Nat)
  | hintDecay (d p : Nat) | capWindowEnd (l : Nat)
  | trellisTableWrite (sv : Nat) (addr : BitVec 24) (w : Word) | trlArb (sv : Nat) (w : Word)
  | arm (sv : Nat) (w : Word) | disarm (sv : Nat) (w : Word) | now (sv : Nat) (w : Word)
  | swapTime | guardEnd | drain (sv : Nat) (w : Word) | drainDone | drainLimitExpiry
  | rakeSample | rakeWindowClose | rakPop (sv : Nat) (w : Word)
  -- plots and supervisors
  | open_ (sv p : Nat) (w : Word) | teardown (sv p : Nat) (w : Word) | plotReset (sv p : Nat) (w : Word)
  | drainBoundExpiry (p : Nat) | plotDrainComplete (p : Nat) | plotDrainHangExpiry (p : Nat)
  | claim (sv : Nat) (w : Word) | release (sv : Nat) (w : Word) | handover (sv : Nat) (w : Word)
  | accept (sv : Nat) (w : Word) | handoverExpiry | supHeartbeat (sv : Nat) (w : Word) | heartbeatExpiry
  | supEvq (sv : Nat)
  -- mailboxes and Icquel
  | mbxReqCtlGo (sv i : Nat) (w : Word) | mbxRspCtlGoClear (sv i : Nat) (w : Word)
  | echo (i : Nat) | imageInstall (i : Nat) | soilUpdate (i : Nat) | measureRequestFragment (i : Nat)
  | measureResponseRead (i : Nat) | measureIdentityRead (i : Nat)
  | marlRead (i : Nat) (r : MarlReadout) | marlFind (i : Nat) | relay (i : Nat)
  | relayRequest (l : Nat) (p : Packet) | relayReply (l : Nat) (p : Packet) | relayTimeout (i : Nat)
  -- the collector
  | faultRaised | fltAck (sv : Nat) (w : Word) | fltAckAll (sv : Nat) (w : Word) | fltLost (sv : Nat)
  | fltFence (sv : Nat) (w : Word) | hrwSliceFence (sv : Nat) (w : Word) | sivFence (sv : Nat) (w : Word)
  | hrwPoolCfg (sv : Nat) (w : Word) | hrwLagWorstClear (sv ctx : Nat) (w : Word)
  | hrwPoolPeakClr (sv : Nat) (w : Word) | hrwDeepPeakClr (sv : Nat) (w : Word)
  | sivDispPeakClr (sv : Nat) (w : Word) | dibPeakClr (sv : Nat) (w : Word)
  | engineResetTimeout (k : Nat)
  -- resets and start
  | warm (sv : Nat) (w : Word) | cold (sv : Nat) (w : Word) | domCycle (sv : Nat) (w : Word) | resetAct
  | powerOn | coldRstN (level : Bool) (ties : Ties) | warmRstN
  | startStepDone (r : StepReport) | startStepTimeout | icquelStallExpiry | startTrainingBoundExpiry
  | icqBeat | refPllLockLoss | corePllLockLoss (pll : Nat) | cpClkAbsent
  -- control port and power
  | cpAnswerTimeout (sv : Nat) (write : Bool) (addr : BitVec 24)
  | registerWrite (sv : Nat) (addr : BitVec 24) (w : Word) (par : BitVec 2)
  | pwrDomReq (sv : Nat) (w : Word) | pwrAck (d : Nat) (level : Bool) | pwrAckTimeout (d : Nat)
  | selfGateIdleExpiry (d : Nat) | thermWarnN (level : Bool) | vdroopN (level : Bool)
  | thermLimitExpiry | droopHoldExpiry
  -- observation
  | marlCommitDone (r : MarlWrite) | sundialSecond | crashDump (sv : Nat) (w : Word)
  | missedClr (sv : Nat) (w : Word) | dbgSiltSel (sv : Nat) (w : Word) | siltFreezeExpiry
  | snap (sv : Nat) (w : Word) | cntClear (sv : Nat) (w : Word) | cntLo (sv k : Nat) | sunTimeLo (sv : Nat)
  | rearm (sv : Nat) (w : Word)
  | firmwareLogEntry (severity source code : Nat) (text : BitVec 384)
  | sundialSyncTick | sync (l : Nat) (p : Packet) (t : Nat) | syncReply (l : Nat) (p : Packet) (t : Nat)
  | holdoverExpiry | sunCfg (sv : Nat) (w : Word)
  -- test access
  | samplePreload (cells : List Bool) | extest (cells : List Bool) | extestPulse (cells : List Bool)
  | extestTrain (cells : List Bool)
  | wsBypass | wsSample (cells : List Bool) | wsPreload (cells : List Bool) | wsExtest (cells : List Bool)
  | wsIntest (cells : List Bool) | wsClamp | wsId | wsMbist (result : BitVec 64) | wsScan
  -- power loss, input returns and the other reads
  | powerLoss | warmRstNRelease | resetPulseRejected | cpClkReturn
  | registerRead (sv : Nat) (addr : BitVec 24) (par : Bool)
  | sundialLockBoundExpiry | controlStateError (kind unit : Nat)
  deriving DecidableEq, Repr

end Sys2Proof
end

