-- ==== Sys2Proof/Decode.lean ====
section
/-! DEFINITION. The codes and layouts of words: CRCs, the Tilth command, the packet header, the link
word and the codeword payload. The opcode table gives no row bits, so no word spells a command. -/

namespace Sys2Proof

/-- The command that a word spells: none, since the opcode table gives no row any bits. -/
def decodeTableWord (_nbits _w : Nat) : Option Instr := none

/-- One bit of CRC-16/CCITT-FALSE (R68). -/
def crc16Bit (c : BitVec 16) : BitVec 16 := if c.getLsbD 15 then (c <<< 1) ^^^ 0x1021 else c <<< 1

/-- One byte of CRC-16/CCITT-FALSE (R68). -/
def crc16Byte (c : BitVec 16) (b : Byte) : BitVec 16 :=
  let x := c ^^^ (b.setWidth 16 <<< 8)
  crc16Bit (crc16Bit (crc16Bit (crc16Bit (crc16Bit (crc16Bit (crc16Bit (crc16Bit x)))))))

/-- CRC-16/CCITT-FALSE: polynomial 0x1021, initial value 0xFFFF (R68). -/
def crc16 (bs : List Byte) : BitVec 16 := bs.foldl crc16Byte 0xFFFF

/-- One bit of the CRC-32 of IEEE 802.3. -/
def crc32Bit (c : BitVec 32) : BitVec 32 := if c.getLsbD 0 then (c >>> 1) ^^^ 0xEDB88320 else c >>> 1

/-- One byte of the CRC-32 of IEEE 802.3. -/
def crc32Byte (c : BitVec 32) (b : Byte) : BitVec 32 :=
  let x := c ^^^ b.setWidth 32
  crc32Bit (crc32Bit (crc32Bit (crc32Bit (crc32Bit (crc32Bit (crc32Bit (crc32Bit x)))))))

/-- The CRC-32 of IEEE 802.3 (R64, R184, R322, R363). -/
def crc32 (bs : List Byte) : BitVec 32 := (bs.foldl crc32Byte 0xFFFFFFFF) ^^^ 0xFFFFFFFF

namespace Machine

/-- A command's fields from its 32 bytes (R67). -/
def decodeCmd (w : BitVec 256) : Cmd :=
  { op := fld w 0 8
    flags := w.extractLsb' 8 8
    layer := fld w 16 16
    oper := fld w 32 16
    id := fld w 48 16
    a := w.extractLsb' 64 64
    b := w.extractLsb' 128 64
    len := fld w 192 32
    d := fld w 224 8
    sel := fld w 232 8
    crc := w.extractLsb' 240 16 }

/-- The 32 bytes of a command's fields (R67). -/
def encodeCmd (c : Cmd) : BitVec 256 :=
  BitVec.ofNat 256 (c.op + c.flags.toNat <<< 8 + c.layer <<< 16 + c.oper <<< 32 + c.id <<< 48
    + c.a.toNat <<< 64 + c.b.toNat <<< 128 + c.len <<< 192 + c.d <<< 224 + c.sel <<< 232 + c.crc.toNat <<< 240)

/-- The CRC that a command's bytes 0 to 29 call for (R68). -/
def cmdCrc (w : BitVec 256) : BitVec 16 := crc16 ((leBytes 32 w.toNat).take 30)

/-- The first 60 bytes of a packet header as a number (R322). -/
def headerNat (p : Packet) : Nat :=
  2 + p.kind <<< 8 + p.vn <<< 16 + p.pathVn <<< 19 + p.row.toNat <<< 22 + p.replay.toNat <<< 23
    + p.flits <<< 24 + p.rowCh <<< 29 + p.key <<< 32 + p.gen <<< 44 + p.src <<< 48 + p.dst <<< 64
    + p.hint <<< 80 + p.seq <<< 96 + p.area.toNat <<< 128

/-- The CRC that a packet calls for: header bytes 0 to 59 and every payload flit (R322). -/
def Packet.calcCrc (p : Packet) : BitVec 32 := crc32 (leBytes 60 (headerNat p) ++ p.bytes)

/-- The CRC field holds the packet's CRC (R325). -/
def Packet.crcOk (p : Packet) : Bool := p.crc == Packet.calcCrc p

/-- The packet with its CRC filled in. -/
def Packet.sealed (p : Packet) : Packet := { p with crc := Packet.calcCrc p }

/-- The header flit of a packet (R322). -/
def encodeHeader (p : Packet) : BitVec 512 := BitVec.ofNat 512 (headerNat p + p.crc.toNat <<< 480)

/-- A packet's header fields from its header flit (R322); the payload follows in later flits. -/
def decodeHeader (w : BitVec 512) : Packet :=
  { kind := fld w 8 8
    vn := fld w 16 3
    pathVn := fld w 19 3
    row := w.getLsbD 22
    replay := w.getLsbD 23
    flits := fld w 24 5
    rowCh := fld w 29 3
    key := fld w 32 12
    gen := fld w 44 4
    src := fld w 48 16
    dst := fld w 64 16
    hint := fld w 80 16
    seq := fld w 96 32
    area := w.extractLsb' 128 352
    payload := []
    crc := w.extractLsb' 480 32 }

/-- The flits of a packet: its header and its payload (R321). -/
def packetFlits (p : Packet) : List (BitVec 512) := encodeHeader p :: p.payload

/-- The link word of a codeword payload (R306, R329). -/
structure LinkWord where
  seq : Nat := 0
  replay : Bool := false
  idle : Bool := false
  kind : Nat := 0
  arg : Nat := 0
  deriving DecidableEq, Repr, Inhabited

/-- The link word's 20 bits (R329). -/
def encodeLinkWord (w : LinkWord) : BitVec 20 :=
  BitVec.ofNat 20 (w.seq + w.replay.toNat <<< 8 + w.idle.toNat <<< 9 + w.kind <<< 10 + w.arg <<< 12)

/-- The link word from its 20 bits (R329). -/
def decodeLinkWord (b : BitVec 20) : LinkWord :=
  { seq := fld b 0 8, replay := b.getLsbD 8, idle := b.getLsbD 9, kind := fld b 10 2, arg := fld b 12 8 }

/-- The link word of a payload: message bits 0 to 19 (R306). -/
def payloadWord (p : BitVec 5140) : LinkWord := decodeLinkWord (p.extractLsb' 0 20)

/-- Flit `f` of a payload: message bits 20 + 512 f onward (R306). -/
def payloadFlit (p : BitVec 5140) (f : Nat) : BitVec 512 := p.extractLsb' (20 + 512 * f) 512

/-- The ten flits of a payload. -/
def payloadFlits (p : BitVec 5140) : List (BitVec 512) := (List.range 10).map (payloadFlit p)

/-- The bits of a flit list, the first flit lowest. -/
def flitsNat : List (BitVec 512) → Nat
  | [] => 0
  | f :: r => f.toNat + 2 ^ 512 * flitsNat r

/-- A codeword payload from a link word and up to ten flits; missing flits are null (R306, R321). -/
def encodePayload (w : LinkWord) (fs : List (BitVec 512)) : BitVec 5140 :=
  BitVec.ofNat 5140 ((encodeLinkWord w).toNat + 2 ^ 20 * flitsNat (fs.take 10))

/-- A payload with another link word; its flits stay. -/
def setPayloadWord (p : BitVec 5140) (w : LinkWord) : BitVec 5140 :=
  ((p >>> 20) <<< 20) ||| (encodeLinkWord w).setWidth 5140

end Machine

end Sys2Proof
end

