-- ==== Sys2Proof/Machine/Harrow.lean ====
section
/-! DEFINITION. Harrow arithmetic: formats, exact sums, group records, rounding once, the loam form (R222-R241). -/

namespace Sys2Proof.Machine

/-- A value that enters the Harrow: `(-1)^neg * m * 2^q`, an infinity, or NaN (R229, R238). -/
inductive HVal where
  | fin (neg : Bool) (m : Nat) (q : Int)
  | inf (neg : Bool)
  | nan
  deriving DecidableEq, Repr, Inhabited

/-- A binary floating-point layout: exponent bits, fraction bits, the largest finite code of a positive number,
the codes of infinity and of the canonical NaN where it has them, and whether an overflow saturates (R223). -/
structure FpFmt where
  ebits : Nat
  mbits : Nat
  maxFin : Nat
  inf : Option Nat
  nan : Option Nat
  deriving DecidableEq, Repr

/-- The floating-point layout of a format's elements (R223); MXINT8 and the integers have none. -/
def fpFmt (f : Nat) : Option FpFmt :=
  match f with
  | 0x08 | 0x0A => some { ebits := 4, mbits := 3, maxFin := 0x7E, inf := none, nan := some 0x7F }
  | 0x09 | 0x0B => some { ebits := 5, mbits := 2, maxFin := 0x7B, inf := some 0x7C, nan := some 0x7E }
  | 0x0D => some { ebits := 2, mbits := 1, maxFin := 7, inf := none, nan := none }
  | 0x10 => some { ebits := 5, mbits := 10, maxFin := 0x7BFF, inf := some 0x7C00, nan := some 0x7E00 }
  | 0x11 => some { ebits := 8, mbits := 7, maxFin := 0x7F7F, inf := some 0x7F80, nan := some 0x7FC0 }
  | 0x12 => some { ebits := 8, mbits := 23, maxFin := 0x7F7FFFFF, inf := some 0x7F800000, nan := some 0x7FC00000 }
  | _ => none

/-- The bits of an element (R223). -/
def fmtBits (f : Nat) : Nat :=
  match f with
  | 0x01 | 0x02 | 0x0D => 4
  | 0x05 | 0x10 | 0x11 => 16
  | 0x06 | 0x12 => 32
  | _ => 8

/-- An integer format: is it signed? -/
def fmtSigned (f : Nat) : Bool := f == 1 || f == 3 || f == 5 || f == 6

/-- An integer format. -/
def isInt (f : Nat) : Bool := decide (1 ≤ f ∧ f ≤ 6)

/-- An MX format. -/
def isMx (f : Nat) : Bool := decide (0xA ≤ f ∧ f ≤ 0xD)

/-- The bytes of an MX tile: 128 blocks of 32 elements and their scales (R224). -/
def tileBytes (f : Nat) : Nat := if f = 0xD then 2176 else 4224

/-- The unit of R102 in bytes (R225). -/
def unitBytes (f : Nat) : Nat := if isMx f then tileBytes f else 128

/-- The elements of a number of bytes of a format (R224). -/
def elemsOf (f bytes : Nat) : Nat := if isMx f then bytes / tileBytes f * 4096 else bytes * 8 / fmtBits f

/-- The bytes of a number of elements of a format, whole tiles for an MX format (R224). -/
def bytesOf (f n : Nat) : Nat := if isMx f then n / 4096 * tileBytes f else ceilDiv (n * fmtBits f) 8

/-- The output format of an op (R226). -/
def outFmt (f op : Nat) : Nat := if op = 1 ∨ op = 5 then (if isInt f then 0x06 else 0x12) else f

/-- The exponent bias of a layout. -/
def FpFmt.bias (x : FpFmt) : Int := 2 ^ (x.ebits - 1) - 1

/-- The power of two of the last place of a layout's smallest numbers. -/
def FpFmt.qmin (x : FpFmt) : Int := 1 - x.bias - x.mbits

/-- A floating-point code as a value (R223). -/
def fpDecode (x : FpFmt) (c : Nat) : HVal :=
  let mag := c % 2 ^ (x.ebits + x.mbits)
  let neg := c.testBit (x.ebits + x.mbits)
  if x.inf = some mag then .inf neg
  else if x.maxFin < mag then .nan
  else
    let e := mag / 2 ^ x.mbits
    let m := mag % 2 ^ x.mbits
    if e = 0 then .fin neg m x.qmin else .fin neg (2 ^ x.mbits + m) (x.qmin + (e - 1 : Nat))

/-- A two's-complement number of a width. -/
def toSigned (w c : Nat) : Int := if c.testBit (w - 1) then (c : Int) - 2 ^ w else c

/-- An element's code as a value, apart from a block scale (R223, R224). -/
def elemDecode (f c : Nat) : HVal :=
  match fpFmt f with
  | some x => fpDecode x c
  | none =>
    let v : Int := if f = 0x0C ∨ fmtSigned f then toSigned (fmtBits f) c else c
    .fin (decide (v < 0)) v.natAbs (if f = 0x0C then -6 else 0)

/-- A value times a power of two. -/
def HVal.scale (v : HVal) (k : Int) : HVal :=
  match v with
  | .fin n m q => .fin n m (q + k)
  | x => x

/-- The exact product of two values (R227, R238). -/
def HVal.mul (a b : HVal) : HVal :=
  match a, b with
  | .nan, _ | _, .nan => .nan
  | .fin n m q, .fin n' m' q' => .fin (xor n n') (m * m') (q + q')
  | .inf n, .fin n' m _ => if m = 0 then .nan else .inf (xor n n')
  | .fin n m _, .inf n' => if m = 0 then .nan else .inf (xor n n')
  | .inf n, .inf n' => .inf (xor n n')

/-- The element codes of a byte string, 4-bit elements low half first (R224). -/
def codesOf (bits : Nat) : List Byte → List Nat
  | bs =>
    if bits = 4 then (bs.map (fun b => [b.toNat % 16, b.toNat / 16])).flatten
    else (List.range (bs.length / (bits / 8))).map (fun i => leNat ((bs.drop (bits / 8 * i)).take (bits / 8)))

/-- The values of one MX tile (R223, R224). -/
def tileVals (f : Nat) (bs : List Byte) : List HVal :=
  let n := tileBytes f - 128
  let scales := bs.drop n
  ((codesOf (fmtBits f) (bs.take n)).zipIdx).map (fun x =>
    let s := (scales.getD (x.2 / 32) 0).toNat
    if s = 255 then .nan else (elemDecode f x.1).scale ((s : Int) - 127))

/-- The values of a byte string of a format: whole elements, or whole tiles for an MX format. -/
def valsOf (f : Nat) (bs : List Byte) : List HVal :=
  if isMx f then
    ((List.range (bs.length / tileBytes f)).map (fun t => tileVals f ((bs.drop (tileBytes f * t)).take (tileBytes f)))).flatten
  else (codesOf (fmtBits f) bs).map (elemDecode f)

/-- The bit length of a number. -/
def bitLen (n : Nat) : Nat := if n = 0 then 0 else Nat.log2 n + 1

/-- The number of trailing zero bits of a positive number below 2^640. -/
def ctz : Nat → Nat → Nat
  | 0, _ => 0
  | k + 1, n => if n % 2 = 1 ∨ n = 0 then 0 else ctz k (n / 2) + 1

/-- lo and hi of a finite non-zero contribution (R229). -/
def loHi (v : HVal) : Option (Int × Int) :=
  match v with
  | .fin _ m q => if m = 0 then none else some (q + ctz 640 m, q + bitLen m)
  | _ => none

/-- A finite value in units of 2^-320 (R233). -/
def HVal.units (v : HVal) : Int :=
  match v with
  | .fin n m q => (if n then -1 else 1) * (m * 2 ^ (q + 320).toNat : Nat)
  | _ => 0

/-- A special value. -/
def HVal.special (v : HVal) : Bool :=
  match v with
  | .fin _ _ _ => false
  | _ => true

/-- The class bits of a value: +inf, -inf, NaN seen (R233). -/
def HVal.cls (v : HVal) : Nat :=
  match v with
  | .fin _ _ _ => 0
  | .inf false => 1
  | .inf true => 2
  | .nan => 4

/-- A negative zero. -/
def HVal.negZero (v : HVal) : Bool :=
  match v with
  | .fin n m _ => n && m == 0
  | _ => false

/-- The order of R239: -inf < negative < -0 < +0 < positive < +inf. NaN is above. -/
def HVal.lt (a b : HVal) : Bool :=
  match a, b with
  | .nan, _ => false
  | _, .nan => true
  | .inf n, .inf n' => n && !n'
  | .inf n, _ => n
  | _, .inf n => !n
  | .fin n m _, .fin n' m' _ =>
    if m = 0 ∧ m' = 0 then n && !n' else decide (a.units < b.units) || (decide (a.units = b.units) && n && !n')

/-- The larger or the smaller of two values; NaN wins (R239). -/
def HVal.pick (max : Bool) (a b : HVal) : HVal :=
  match a, b with
  | .nan, _ | _, .nan => .nan
  | _, _ => if max then (if a.lt b then b else a) else (if b.lt a then b else a)

/-- An element's accumulator: the exact sum in units of 2^-320, the class bits, the chosen value of max and min and
the bits of or (R231, R233, R239). -/
structure HElem where
  sum : Int := 0
  cls : Nat := 0
  best : Option HVal := none
  bits : Nat := 0
  deriving DecidableEq, Repr, Inhabited

/-- A group of 32 elements: its record and its elements (R230, R231). The window's integer W of an element is its sum
times 2^(320 - lo). -/
structure HGroup where
  empty : Bool := true
  lo : Int := 0
  hi : Int := 0
  esc : Bool := false
  negzero : BitVec 32 := BitVec.allOnes 32
  els : Tbl HElem := []
  deriving DecidableEq, Repr, Inhabited

/-- The operations that take part in loam: the sums (R239). -/
def isSum (op : Nat) : Bool := op == 0 || op == 1 || op == 4 || op == 5 || op == 8

/-- The record takes in a lo and a hi (R230). -/
def HGroup.span (g : HGroup) (x : Option (Int × Int)) : HGroup :=
  match x with
  | none => g
  | some (l, h) => if g.empty then { g with empty := false, lo := l, hi := h }
                   else { g with lo := min g.lo l, hi := max g.hi h }

/-- The spread that a window allows (R232). -/
def spreadLimit (wide : Bool) : Int := if wide then 150 else 70

/-- The group has to be in deep loam (R232). -/
def HGroup.mustEsc (g : HGroup) (wide : Bool) : Bool :=
  !g.empty && decide (spreadLimit wide < g.hi - g.lo) || g.els.any (fun e => e.2.cls != 0)

/-- A contribution of `v` to element `e` of a group, the group's record with it (R229-R233, R239). `code` is the
element's bits, for or. -/
def HGroup.add (op : Nat) (wide : Bool) (g : HGroup) (e : Nat) (v : HVal) (code : Nat) : HGroup :=
  let x := g.els.at e
  let g := if v.negZero then g else { g with negzero := setBit g.negzero e false }
  if isSum op then
    let g := { g.span (loHi v) with els := g.els.set e { x with sum := x.sum + v.units, cls := x.cls ||| v.cls } }
    { g with esc := g.esc || g.mustEsc wide }
  else if op = 6 then { g with els := g.els.set e { x with bits := x.bits ||| code } }
  else
    let b := match x.best with | none => v | some y => y.pick (op == 2) v
    { g with els := g.els.set e { x with best := some b } }

/-- The value of a completed element before its rounding (R236, R238, R239). -/
def HGroup.value (op fmt : Nat) (g : HGroup) (e : Nat) : HVal :=
  let x := g.els.at e
  if isSum op then
    if 4 ≤ x.cls ∨ x.cls = 3 then .nan
    else if x.cls = 1 then .inf false
    else if x.cls = 2 then .inf true
    else if x.sum = 0 then .fin (g.negzero.getLsbD e) 0 0
    else .fin (decide (x.sum < 0)) x.sum.natAbs (-320)
  else if op = 6 then
    let v : Int := if fmtSigned fmt then toSigned (fmtBits fmt) x.bits else x.bits
    .fin (decide (v < 0)) v.natAbs 0
  else x.best.getD (.fin false 0 0)

/-- `m * 2^u` rounded to nearest-even on the grid of a layout: the code of the magnitude, past the largest finite code
where it overflows (R236). -/
def fpRound (x : FpFmt) (m : Nat) (u : Int) : Nat :=
  if m = 0 then 0
  else
    let quant := max ((bitLen m : Int) - 1 + u - x.mbits) x.qmin
    let sh := quant - u
    let k := if sh ≤ 0 then m * 2 ^ (-sh).toNat
      else
        let d := 2 ^ sh.toNat
        let q := m / d
        let r := m % d
        if 2 * r > d ∨ (2 * r = d ∧ q % 2 = 1) then q + 1 else q
    k + (quant - x.qmin).toNat * 2 ^ x.mbits

/-- `m * 2^u` rounded to an integer, to nearest-even (R236). -/
def intRound (m : Nat) (u : Int) : Nat :=
  if 0 ≤ u then m * 2 ^ u.toNat
  else
    let d := 2 ^ (-u).toNat
    let q := m / d
    let r := m % d
    if 2 * r > d ∨ (2 * r = d ∧ q % 2 = 1) then q + 1 else q

/-- A value as a floating-point code (R236, R238). -/
def fpEncode (x : FpFmt) (v : HVal) : Nat :=
  let sign := fun n : Bool => if n then 2 ^ (x.ebits + x.mbits) else 0
  match v with
  | .nan => x.nan.getD 0
  | .inf n => match x.inf with
      | some c => sign n + c
      | none => x.nan.getD 0
  | .fin n m q =>
    let c := fpRound x m q
    sign n + (if c ≤ x.maxFin then c else x.inf.getD x.maxFin)

/-- The least and the greatest value of an integer format. -/
def intRange (f : Nat) : Int × Int :=
  if fmtSigned f then (-(2 ^ (fmtBits f - 1)), 2 ^ (fmtBits f - 1) - 1) else (0, 2 ^ fmtBits f - 1)

/-- A value as an integer code: clamped, or modulo 2^width under sum-wrap (R236, R238). -/
def intEncode (f : Nat) (wrap : Bool) (v : HVal) : Nat :=
  let (lo, hi) := intRange f
  let n : Int := match v with
    | .nan => 0
    | .inf true => lo
    | .inf false => hi
    | .fin s m q =>
      let k : Int := (intRound m q : Nat)
      let k := if s then -k else k
      if wrap then k else max lo (min hi k)
  (n % 2 ^ fmtBits f).toNat

/-- The emax of an MX element format (R237). -/
def mxEmax (f : Nat) : Int :=
  match f with
  | 0x0A => 8
  | 0x0B => 15
  | 0x0D => 2
  | _ => 0

/-- An MX element's magnitude `m * 2^u` on the element grid, unsaturated (R236, R237). -/
def mxRound (f m : Nat) (u : Int) : Nat :=
  match fpFmt f with
  | some x => fpRound x m u
  | none => intRound m (u + 6)

/-- The largest finite code of an MX element's magnitude (R223). -/
def mxMax (f : Nat) : Nat := match fpFmt f with | some x => x.maxFin | none => 127

/-- An MX element's code from its sign and the code of its magnitude. -/
def mxSign (f : Nat) (n : Bool) (c : Nat) : Nat :=
  match fpFmt f with
  | some x => (if n then 2 ^ (x.ebits + x.mbits) else 0) + c
  | none => if n then (256 - c) % 256 else c

/-- The magnitude of a finite value in units of 2^-320 (R229). -/
def HVal.mag (v : HVal) : Nat := v.units.natAbs

/-- The scale byte of a block before its specials count (R237). -/
def mxScale (f : Nat) (vs : List HVal) : Nat :=
  let m := vs.foldl (fun a v => max a v.mag) 0
  if m = 0 then 0
  else
    let e0 := (bitLen m : Int) - 1 - 320 - mxEmax f
    let e := if mxMax f < mxRound f m (-320 - e0) then e0 + 1 else e0
    ((max (-127) (min 127 e)) + 127).toNat

/-- The codes and the scale byte of a block of results (R237, R238). -/
def mxBlock (f : Nat) (vs : List HVal) : List Nat × Nat :=
  if (f = 0x0C ∨ f = 0x0D) ∧ vs.any (fun v => v.special) then (vs.map (fun _ => 0), 255)
  else
    let s := mxScale f vs
    (vs.map (fun v => match v with
      | .fin n _ _ => mxSign f n (min (mxMax f) (mxRound f v.mag (-320 - ((s : Int) - 127))))
      | .inf n => match fpFmt f with
          | some x => (match x.inf with | some c => mxSign f n c | none => x.nan.getD 0)
          | none => 0
      | .nan => match fpFmt f with | some x => x.nan.getD 0 | none => 0), s)

/-- Bytes from element codes. -/
def packCodes (bits : Nat) : List Nat → List Byte
  | [] => []
  | [c] => if bits = 4 then [BitVec.ofNat 8 (c % 16)] else leBytes (bits / 8) c
  | c :: d :: r =>
    if bits = 4 then BitVec.ofNat 8 (c % 16 + d % 16 * 16) :: packCodes bits r
    else leBytes (bits / 8) c ++ leBytes (bits / 8) d ++ packCodes bits r

/-- The bytes of one MX tile of results (R224, R237). -/
def tileOf (f : Nat) (vs : List HVal) : List Byte :=
  let blocks := (List.range 128).map (fun b => mxBlock f ((vs.drop (32 * b)).take 32))
  packCodes (fmtBits f) ((blocks.map (fun b => b.1)).flatten) ++ blocks.map (fun b => BitVec.ofNat 8 b.2)

/-- The bytes of a list of results in an output format, each element rounded once (R236-R238). -/
def encodeVals (f op : Nat) (vs : List HVal) : List Byte :=
  if isMx f then ((List.range (vs.length / 4096)).map (fun t => tileOf f ((vs.drop (4096 * t)).take 4096))).flatten
  else match fpFmt f with
    | some x => packCodes (fmtBits f) (vs.map (fpEncode x))
    | none => packCodes (fmtBits f) (vs.map (intEncode f (op == 8)))

/-- The value that an MX element, a product or a loam partial stands for may need the 160-bit window (R231). -/
def wideFmt (f : Nat) : Bool := fmtBits f == 32

/-- A record's 56 bits (R230, R324). -/
def recordBits (g : HGroup) : Nat :=
  (g.lo % 1024).toNat + (g.hi % 1024).toNat * 2 ^ 10 + g.esc.toNat * 2 ^ 20 + g.empty.toNat * 2 ^ 21 + g.negzero.toNat * 2 ^ 22

/-- A group with the record of 56 bits. -/
def recordOf (b : Nat) : HGroup :=
  { lo := toSigned 10 (b % 1024), hi := toSigned 10 (b / 2 ^ 10 % 1024), esc := b.testBit 20, empty := b.testBit 21,
    negzero := BitVec.ofNat 32 (b / 2 ^ 22) }

/-- The bytes of a word of a group in the loam form (R235). -/
def wordBytes (wide : Bool) (g : HGroup) : Nat :=
  if g.esc then 2 + ceilDiv (g.hi - g.lo + 4).toNat 16 * 2 else if wide then 20 else 10

/-- A signed number as little-endian bytes. -/
def leInt (n : Nat) (v : Int) : List Byte := leBytes n (v % 2 ^ (8 * n)).toNat

/-- The word of an element in the loam form (R235). -/
def loamWord (wide : Bool) (g : HGroup) (e : Nat) : List Byte :=
  let x := g.els.at e
  let w : Int := x.sum / 2 ^ (g.lo + 320).toNat
  if g.esc then leBytes 2 x.cls ++ leInt (wordBytes wide g - 2) w else leInt (wordBytes wide g) w

/-- The group of a partial of max, min or or: its elements' values stand as sums (R235, R239; log 51). -/
def HGroup.asSums (op fmt : Nat) (g : HGroup) : HGroup :=
  if isSum op then g
  else
    let vs := (List.range 32).map (fun e => if (g.els.find e).isSome then some (g.value op fmt e) else none)
    let start : HGroup := { negzero := g.negzero, esc := g.els.any (fun e => (g.value op fmt e.1).special) }
    (vs.zipIdx).foldl (fun (a : HGroup) x => match x.1 with
      | none => a
      | some v => { a.span (loHi v) with els := a.els.set x.2 { sum := v.units, cls := v.cls },
                                         negzero := setBit a.negzero x.2 v.negZero }) start

/-- The words that one loam-form packet takes from element `first` on: at most 960 bytes and 4 groups (R235). -/
def loamTake (wide : Bool) (grp : Nat → HGroup) (first stop : Nat) : Nat → Nat → Nat → Nat
  | 0, n, _ => n
  | k + 1, n, used =>
    let e := first + n
    let b := wordBytes wide (grp (e / 32))
    if stop ≤ e ∨ 960 < used + b ∨ first / 32 + 4 ≤ e / 32 then n else loamTake wide grp first stop k (n + 1) (used + b)

/-- The loam-form packets of elements `first` to `stop`: first element, records and words (R235). -/
def loamPackets (wide : Bool) (grp : Nat → HGroup) (stop : Nat) : Nat → Nat → List (Nat × List Nat × List Byte)
  | 0, _ => []
  | k + 1, first =>
    if stop ≤ first then []
    else
      let n := max 1 (loamTake wide grp first stop 100 0 0)
      let gs := (List.range 4).map (fun i =>
        if first / 32 + i ≤ (first + n - 1) / 32 then recordBits (grp (first / 32 + i)) else 0)
      let ws := ((List.range n).map (fun i => loamWord wide (grp ((first + i) / 32)) ((first + i) % 32))).flatten
      (first, gs, ws) :: loamPackets wide grp stop k (first + n)

/-- A word of the loam form as an exact sum and its class, and whether it lies in the span of its record (R235, R246). -/
def loamRead (wide : Bool) (g : HGroup) (bs : List Byte) : Int × Nat × Bool :=
  let cls := if g.esc then leNat (bs.take 2) else 0
  let body := if g.esc then bs.drop 2 else bs
  let w := toSigned (8 * body.length) (leNat body)
  let lim : Int := if g.empty then 0 else 2 ^ (g.hi - g.lo + 3).toNat
  let ok := decide (bs.length = wordBytes wide g) && decide (-lim ≤ w ∧ w ≤ lim) && decide (cls < 8)
  (w * 2 ^ (g.lo + 320).toNat, cls, ok)

/-- An element of a loam-form partial joins a group (R235): the record merges, the sum and the class join, or the
value is chosen under max, min and or. -/
def HGroup.merge (op fmt : Nat) (wide : Bool) (g p : HGroup) (e : Nat) (sum : Int) (cls : Nat) : HGroup :=
  let x := g.els.at e
  let g := if p.negzero.getLsbD e then g else { g with negzero := setBit g.negzero e false }
  if isSum op then
    let g := { g.span (if p.empty then none else some (p.lo, p.hi)) with
      els := g.els.set e { x with sum := x.sum + sum, cls := x.cls ||| cls } }
    { g with esc := g.esc || p.esc || g.mustEsc wide }
  else
    let v : HVal := if cls = 0 then
        (if sum = 0 then .fin (p.negzero.getLsbD e) 0 0 else .fin (decide (sum < 0)) sum.natAbs (-320))
      else if cls = 1 then .inf false else if cls = 2 then .inf true else .nan
    g.add op wide e v ((sum / 2 ^ 320) % 2 ^ fmtBits fmt).toNat

end Sys2Proof.Machine
end

