-- ==== Sys2Proof/Machine/Parts/Collective.lean ====
section
/-! DEFINITION. Parts of State: beds, steps, slots, the Harrow, the Sieve, dispatch contexts and the Dibber
(R184-R304). -/

namespace Sys2Proof.Machine

/-- A bed descriptor (R184); `limit` is the step timer in microseconds with its default applied. -/
structure Desc where
  bed : Nat := 0
  gen : Nat := 0
  direct : Bool := false
  landing : Nat := 0
  limit : Nat := 0
  planes : Nat := 0
  slotsMin : Nat := 0
  slotsMax : Nat := 0
  boardMin : Nat := 0
  boardMax : Nat := 0
  members : BitVec 512 := 0
  crc : Nat := 0
  deriving DecidableEq, Repr, Inhabited

/-- What the members of a step must agree on (R195): opcode, format, op selector, length and P. -/
structure CCmd where
  op : Nat := 0
  fmt : Nat := 0
  sel : Nat := 0
  len : Nat := 0
  p : Nat := 0
  deriving DecidableEq, Repr, Inhabited

/-- The fields that DISPATCH and COMBINE add to their step-ready flit (R278). -/
structure Moe where
  experts : Nat := 0
  choices : Nat := 0
  policy : Nat := 0
  cap : Nat := 0
  rowBytes : Nat := 0
  crc : Nat := 0
  deriving DecidableEq, Repr, Inhabited

/-- A member's step-ready flit as a serving block keeps it (R195, R206, R278). -/
structure ReadyInfo where
  cmd : CCmd := {}
  crc : Nat := 0
  moe : Moe := {}
  deriving DecidableEq, Repr, Inhabited

/-- Work that a step has still to send to one server once that server's grant allows: a range of local memory to read
and cut into packets, or one packet that is formed. `off` is the range's place in the server's piece, `idx0` and `ent` the first
packet index and the manifest entry of a COMBINE contribution, `slot` the own slot that the packet empties, `stream` the
section of a sparse stream. -/
structure Piece where
  server : Nat
  chunk : Nat
  stripe : Nat := 0
  src : Nat := 0
  len : Nat := 0
  off : Nat := 0
  kind : Nat := 0x32
  idx0 : Nat := 0
  ent : Nat := 0
  pkt : Option Packet := none
  slot : Option Nat := none
  stream : Option Nat := none
  reading : Bool := false
  deriving DecidableEq, Repr, Inhabited

/-- A section of an SREDUCE result at a receiver (R261): bytes landed, and the bytes its header announces. -/
structure Section where
  got : Nat := 0
  want : Option Nat := none
  closed : Bool := false
  deriving DecidableEq, Repr, Inhabited

/-- A step of a bed at this block (R188): its command, whether that command is still outstanding, where its buffers are,
its first chunk, what it has still to send and land, and how many of its slots the block has allocated. `seen` lists the
result packets landed or landing, by server, chunk, stripe and offset; `unit` is the Sieve unit that serves it. -/
structure CStep where
  num : Nat
  cmd : CCmd
  f : Nat
  tid : Nat
  a : Nat := 0
  b : Nat := 0
  c0 : Nat := 0
  nc : Nat := 0
  since : Nat := 0
  live : Bool := true
  stopped : Bool := false
  busyWork : Nat := 0
  out : List (Nat × Piece) := []
  nextPiece : Nat := 0
  due : Nat := 0
  landed : Nat := 0
  seen : List (Nat × Nat × Nat × Nat) := []
  alloc : Nat := 0
  unit : Option Nat := none
  moe : Moe := {}
  moeKnown : Bool := false
  space : Nat := 0
  sects : Tbl Section := []
  cands : Tbl (Tbl (List Byte) × Option Nat) := []
  noted : Bool := false
  deriving DecidableEq, Repr, Inhabited

/-- A Dibber step of a bed at this block (R289-R302): its command, its source bytes once they are read, the nodes that it
has sent to, whether it has had its slot, whether its result has been handed on, whether it sends nothing more. -/
structure DStep where
  num : Nat
  cmd : CCmd
  f : Nat
  tid : Nat
  a : Nat := 0
  b : Nat := 0
  since : Nat := 0
  live : Bool := true
  data : Option (List Byte) := none
  sentTo : List Nat := []
  slot : Bool := false
  handed : Bool := false
  stopped : Bool := false
  deriving DecidableEq, Repr, Inhabited

/-- The laggard registers of a bed (R213, R220). -/
structure Lag where
  last : Nat := 0
  lastNs : Nat := 0
  worst : Nat := 0
  worstNs : Nat := 0
  valid : Bool := false
  deriving DecidableEq, Repr, Inhabited

/-- A bed context and its register window (R186, R220). `horizon` is the grant horizon that the block keeps for each
serving node (R197), `stepHz` the grants that hold for one step alone by step and node (R263, R267, R272, R281; log 58),
`granted` its own; `abort` is the first aborted step with its code and whether the code came from
outside (R216, R217); `early` keeps the DISPATCH packets of a step that has still to issue here. -/
structure Bed where
  isOpen : Bool := false
  plot : Nat := 0
  desc : Desc := {}
  nextStep : Nat := 0
  nextChunk : Nat := 0
  nextDib : Nat := 0
  steps : List CStep := []
  dsteps : List DStep := []
  ready : List ((Nat × Nat) × ReadyInfo) := []
  horizon : Tbl Nat := []
  stepHz : List ((Nat × Nat) × Nat) := []
  granted : Nat := 0
  dgrants : List (Nat × Nat) := []
  dmasks : Tbl Nat := []
  dready : List ((Nat × Nat) × CCmd) := []
  abort : Option (Nat × Nat × Bool) := none
  dabort : Option (Nat × Nat × Bool) := none
  early : List Packet := []
  resv : Nat := 0
  dresv : Nat := 0
  stale : Word := 0
  dup : Word := 0
  staleWrap : Bool := false
  dupWrap : Bool := false
  aborted : Bool := false
  abortCode : Nat := 0
  lag : Lag := {}
  deriving DecidableEq, Repr, Inhabited

/-- One member's stream of a section at its serving block (R258): the packets admitted, by sequence number, the last one's
number, and N from its header. -/
structure Stream where
  pkts : Tbl (List Byte) := []
  last : Option Nat := none
  space : Option Nat := none
  deriving DecidableEq, Repr, Inhabited

/-- A slot (R194): one stripe at a plane, one part-group at an E64, one section, scan step, admission or item. `got` is
the receipt map by (rank, stripe, index), `staged` the bytes kept by the same key, `lasts` the last index of a (rank,
stripe), `mask` the ranks received whole, `order` the completion order of ranks; `local` counts own result lines in flight,
`deep` the deep entries held and how many of them come from the reserve, `next` the lowest rank not yet added (R267),
`expect` the experts of an item (R282). -/
structure Slot where
  ctx : Nat
  step : Nat
  chunk : Nat
  group : Nat
  bank : Nat := 0
  got : List (Nat × Nat × Nat) := []
  staged : List ((Nat × Nat × Nat) × List Byte) := []
  lasts : List ((Nat × Nat) × Nat) := []
  mask : BitVec 512 := 0
  order : List (Nat × Nat) := []
  groups : Tbl HGroup := []
  first : Option Nat := none
  since : Nat := 0
  done : Bool := false
  wait : List (Nat × Packet) := []
  ownLines : Nat := 0
  next : Nat := 0
  deep : Nat := 0
  deepRes : Nat := 0
  deepWait : Bool := false
  bases : List Nat := []
  expect : Option (List Nat) := none
  streams : Tbl Stream := []
  deriving DecidableEq, Repr, Inhabited

/-- Result lines being written at this block: whose they are, the bytes to count, the packet to acknowledge and the own
slot they come from (R200). -/
structure Landing where
  ctx : Nat
  step : Nat
  bytes : Nat
  ack : Option Packet := none
  slot : Option Nat := none
  sect : Option (Nat × Option Nat) := none
  deriving DecidableEq, Repr, Inhabited

/-- A manifest entry: source endpoint, token, weight and row scale (R276). -/
structure ManEnt where
  src : Nat
  token : Nat
  weight : Nat
  rowScale : Nat
  deriving DecidableEq, Repr, Inhabited

/-- A tag of a member's list (R270). -/
structure Tag8 where
  expert : Nat
  token : Nat
  weight : Nat
  rowScale : Nat
  deriving DecidableEq, Repr, Inhabited

/-- A dispatch context (R277, R279): the step, what the descriptor gave, the member's tags and slots, the filled counts of
its local experts, its manifest, and the payload lines and manifest entries that its local experts have taken. -/
structure DispCtx where
  ctx : Nat
  step : Nat
  moe : Moe := {}
  int8 : Bool := false
  tally : Nat := 0
  tokenBase : Nat := 0
  inputBase : Nat := 0
  slotTable : Nat := 0
  manifest : Nat := 0
  tokens : Nat := 0
  tags : List Tag8 := []
  haveTags : Bool := false
  offs : Tbl (Nat × Nat) := []
  slots : List (Option Nat) := []
  placed : Bool := false
  tableDone : Bool := false
  filled : Tbl Nat := []
  line0 : Bool := false
  man : Tbl ManEnt := []
  lines : Nat := 0
  entries : Nat := 0
  deriving DecidableEq, Repr, Inhabited

/-- A Dibber slot (R296): one step's full-width accumulators and its receipts, by board slot at an E64 and by board and
packet index at a plane; `lasts` the last index of a board's partial, `since` when its first packet came, `lastNs` when
its last one did. -/
structure DSlot where
  ctx : Nat
  step : Nat
  got : List (Nat × Nat) := []
  lasts : Tbl Nat := []
  groups : Tbl HGroup := []
  since : Option Nat := none
  lastNs : Nat := 0
  deriving DecidableEq, Repr, Inhabited

/-- The first error that HRW_ERR, SIV_ERR or DIB_ERR holds. -/
structure ErrReg where
  code : Nat := 0
  unit : Nat := 0
  ctx : Nat := 0
  rank : Nat := 0
  valid : Bool := false
  deriving DecidableEq, Repr, Inhabited

/-- Beds, slots, the Harrow, the Sieve and the Dibber. `lastGen` is the last generation opened for a plot and a bed id,
`turn` the bed context that the shared pool served last, `inbox` the packets that the block sends itself. -/
structure Coll where
  poolCfg : Option Nat := none
  peak : Nat := 0
  staleCnt : Nat := 0
  staleWrap : Bool := false
  beds : Tbl Bed := []
  lastGen : List ((Nat × Nat) × Nat) := []
  slots : List (Nat × Slot) := []
  nextId : Nat := 0
  turn : Nat := 0
  landings : List (Nat × Landing) := []
  inbox : List Packet := []
  sliceFence : Word := 0
  resRetry : Word := 0
  escCnt : Word := 0
  deepPeak : Nat := 0
  deepBusy : Word := 0
  retryWrap : Bool := false
  escWrap : Bool := false
  busyWrap : Bool := false
  hrwErr : ErrReg := {}
  reserveHolder : Option Nat := none
  sivFence : BitVec 4 := 0
  drop : Word := 0
  dense : Word := 0
  dropWrap : Bool := false
  denseWrap : Bool := false
  dispPeak : Nat := 0
  sivErr : ErrReg := {}
  disp : List DispCtx := []
  dibLimit : Nat := 20
  dslots : List (Nat × DSlot) := []
  dturn : Nat := 0
  dibSteps : Word := 0
  dibDup : Word := 0
  stepsWrap : Bool := false
  ddupWrap : Bool := false
  dibPeak : Nat := 0
  dibErr : ErrReg := {}
  lastNs : Nat := 0
  deriving DecidableEq, Repr, Inhabited

end Sys2Proof.Machine
end

