-- ==== Sys2Proof/Machine/Parts/Observe.lean ====
section
/-! DEFINITION. Parts of State: the Marl, Silt rings, traces, dumps, the Sundial, counters and test
access (R450-R453, R468-R496, R535-R537). -/

namespace Sys2Proof.Machine

/-- An open bed step as a reset record lists it (R427). -/
structure OpenStep where
  bed : Nat
  gen : Nat
  step : Nat
  chunk : Nat
  deriving DecidableEq, Repr, Inhabited

/-- The body of a Marl record, by kind (R471). -/
inductive MarlBody where
  | fault (level : Level) (escalated conseq : Bool) (kind : UnitKind) (unit : Nat) (entry : Option Nat)
      (detail : Nat) (ctx : List Byte)
  | summary (entries : List (Nat × Option Nat × Nat))
  | stepAbort (bed gen step chunk code : Nat) (missing : BitVec 512)
  | reset (cause code : Nat) (steps : List OpenStep)
  | start (warm : Bool) (step code failed : Nat) (icqCopy soilCopy : Bool) (us : Nat)
  | safe (code : Nat)
  | dumpPart (dump part parts trigger : Nat)
  | log (entries : List (BitVec 512))
  | trace (records : List (BitVec 256))
  deriving DecidableEq, Repr

/-- A Marl record (R469): its kind, header fields and body. -/
structure MarlRec where
  kind : Nat
  time : Nat
  code : Nat := 0
  layer : Nat := 0
  op : Nat := 0
  plot : Option Nat := none
  unlocked : Bool := false
  object : Nat := 0
  part : Nat := 0
  parts : Nat := 0
  body : MarlBody
  deriving DecidableEq, Repr

/-- A slot of the record area (R469, R470): bits corrected at its last read, and whether it decodes. -/
structure MarlSlot where
  seq : Nat
  record : MarlRec
  committed : Bool
  corrected : Nat := 0
  bad : Bool := false
  deriving DecidableEq, Repr

/-- The record being committed: its record, its slot and how often its write was retried (R470, R478). -/
structure MarlCommit where
  record : MarlRec
  slot : Nat
  retried : Bool
  deriving DecidableEq, Repr

/-- The store region of the Marl (R450): two Icquel copies, two soil profile copies, the control area. -/
structure Store where
  icqA : Memory := []
  icqB : Memory := []
  soilA : Memory := []
  soilB : Memory := []
  icqActive : Bool := false
  soilActive : Bool := false
  soilKey : Option (List Byte) := none
  partialObj : Memory := []
  partialKind : Nat := 0
  deriving DecidableEq, Repr, Inhabited

/-- What a crash dump holds (R475): each section as it stood when the dump was taken. -/
structure DumpSnap where
  number : Nat
  trigger : Nat
  table : Tbl FltEntry
  silt : List (Nat × Nat × List (BitVec 128))
  log : List (BitVec 512)
  deriving DecidableEq, Repr

/-- The Marl: store, record area, queue, flood allowance and MRL_ registers (R468-R479, R496). `second` is the Sundial second
of `counts`; `dumpLeft` the parts of the running crash dump still to commit, `dumpHalf` the half that it takes. -/
structure Marl where
  store : Store := {}
  slots : Tbl MarlSlot := []
  nextFault : Nat := 0
  nextDump : Nat := 2048
  nextLog : Nat := 6144
  nextTrace : Nat := 10240
  wrapFlag : BitVec 4 := 0
  queue : List MarlRec := []
  cur : Option MarlCommit := none
  seq : Word := 0
  fullUsed : Nat := 0
  flood : Bool := false
  faultQFull : Bool := false
  second : Nat := 0
  counts : List ((Nat × Option Nat) × Nat) := []
  corr : Word := 0
  uncorr : Nat := 0
  logDrop : Nat := 0
  logDropFlag : Bool := false
  logRing : List (BitVec 512) := []
  logSeq : Nat := 0
  logHist : List (BitVec 512) := []
  dumpNo : Nat := 0
  dumpLeft : Nat := 0
  dumpMissed : Nat := 0
  dumpHalf : Bool := false
  dumps : List DumpSnap := []
  lastFaultSlot : Option Nat := none
  deriving DecidableEq, Repr, Inhabited

/-- A Silt ring (R480-R482): events written, events dropped while frozen, slots. -/
structure Ring where
  count : Word := 0
  lost : Nat := 0
  ev : Tbl (BitVec 128) := []
  deriving DecidableEq, Repr, Inhabited

/-- A utilisation counter (R491-R493, R496). -/
structure Cnt where
  sel : Word := 0
  count : Nat := 0
  tag : Nat := 0
  hiLatch : Nat := 0
  tagLatch : Nat := 0
  ovf : Bool := false
  snap : Nat := 0
  snapTag : Nat := 0
  deriving DecidableEq, Repr, Inhabited

/-- A DUMP entry whose lines are not all written (R484): the command it belongs to, where its padding header (if any) and
its own header stand in the area, where the next entry begins, its header bytes, its source and length, and whether it is
done. -/
structure DumpEnt where
  id : Nat
  f : Nat
  tid : Nat
  pad : Option Nat
  start : Nat
  next : Nat
  header : List Byte
  src : Nat
  len : Nat
  plot : Nat
  err : Option Nat := none
  done : Bool := false
  deriving DecidableEq, Repr, Inhabited

/-- Silt rings, trace ring, dump area and counters (R480-R485, R491-R496). `dumpRes` is the area offset where the next
DUMP's entry goes. -/
structure Obs where
  rings : Tbl Ring := []
  siltSel : Word := 0
  frozenSince : Nat := 0
  trcCtl : Word := 0
  trc : Tbl (BitVec 256) := []
  trcProd : Word := 0
  trcFlushed : Nat := 0
  trcLost : Nat := 0
  dumpBase : Nat := 0
  dumpSize : Nat := 0
  dumpHead : Nat := 0
  dumpTail : Nat := 0
  dumpLost : Nat := 0
  dumpRes : Nat := 0
  dumpPend : List DumpEnt := []
  dumpNext : Nat := 0
  cnt : Tbl Cnt := []
  snapTime : Nat := 0
  deriving DecidableEq, Repr, Inhabited

/-- The four states of the Sundial (R490). -/
inductive SunState where
  | free | locking | locked | holdover
  deriving DecidableEq, Repr, Inhabited

/-- The Sundial and SUN_ registers (R486-R490, R496). `acc` is the fraction of a nanosecond in fs, `rate` the correction in force
in ppm, `slew` the fs still to be slewed in; `peers` holds what other nodes last told of themselves: depth in bits 1 to 0, locked
in bit 2; `replies` a plane's offsets of this round in ps; `mayStep` that the start may still step the count. -/
structure Sun where
  time : Nat := 0
  acc : Int := 0
  rate : Int := 0
  slew : Int := 0
  state : SunState := .locked
  holdoverEvt : Bool := false
  source : Nat := 0
  offsetPs : Int := 0
  isl : Tbl (BitVec 16) := []
  hiLatch : Word := 0
  good : Nat := 0
  lastReply : Nat := 0
  lastSync : Nat := 0
  mayStep : Bool := false
  noted922 : Bool := false
  peers : Tbl Nat := []
  replies : Tbl Int := []
  deriving DecidableEq, Repr, Inhabited

/-- Test access (R535-R537): the lane segment's mode and cells, and the wrapper's instruction and
registers. -/
structure Tst where
  lbsMode : Nat := 0
  laneCells : List Bool := []
  lanePreload : List Bool := []
  wir : Nat := 0
  bound : List Bool := []
  boundPreload : List Bool := []
  driveOut : Bool := false
  driveIn : Bool := false
  clamp : Bool := false
  idReg : Word := 0
  mbist : BitVec 64 := 0
  scan : Bool := false
  deriving DecidableEq, Repr, Inhabited

end Sys2Proof.Machine
end

