-- ==== Sys2Proof/Machine/State.lean ====
section
/-! DEFINITION. State: everything the manual gives the block, and the queue of waiting commands. -/

namespace Sys2Proof.Machine

/-- The states of a plot (R379). -/
inductive PlotState where
  | free | active | draining
  deriving DecidableEq, Repr, Inhabited

/-- A plot table entry (R379-R391, R409). `byReset` says that the running sequence is a plot reset
(R390); `bound` that its drain bound has passed with accesses outstanding (R389, R424). -/
structure Plot where
  key : Nat := 0
  gen : Nat := 0
  priv : Bool := false
  state : PlotState := .free
  tallyBase : Nat := 0
  tallyQuota : Nat := 0
  bedQuota : Nat := 0
  furQuota : Nat := 0
  drain : Nat := 1000
  acct : Word := 0
  since : Nat := 0
  byReset : Bool := false
  bound : Bool := false
  hung : Bool := false
  deriving DecidableEq, Repr, Inhabited

/-- Why the machine stops. No meaning raises one: the manual answers every access and every event
itself (with a fault entry, a refusal status or no effect). Safe. -/
inductive Fault where
  /-- A local address outside every memory of the block. Raised by no meaning; safe. -/
  | outsideMemory
  deriving DecidableEq, Repr

/-- Why a command has no meaning. -/
inductive Refusal where
  /-- The command of this mnemonic has no meaning yet. Raised by arms of `exec` only; safe. -/
  | notModelled (mnemonic : String)
  deriving DecidableEq, Repr

/-- The block. `pending` is the queue of waiting commands, first in, first out. `sram` is buffer SRAM
and `wlog` the bytes that the running command writes to it, applied when the command ends. `clk` is
the model's count of nanoseconds since power-on and `free` the counter that picks free values.
`outbox` is what the block has driven across its boundary. -/
structure State where
  pending : List Instr
  sram : Memory
  wlog : List Host.Cell
  clk : Nat
  free : Nat
  outbox : List Output
  glb : Glb
  start : Start
  sup : Sup
  mbx : Tbl Mbx
  flt : Flt
  pwr : Pwr
  mrl : Marl
  obs : Obs
  sun : Sun
  tst : Tst
  plots : Tbl Plot
  tally : Tbl DWord
  fur : Tbl Furrow
  img : Images
  xfer : Xfer
  mp : Mp
  rlc : Rlc
  home : Home
  lanes : Lanes
  trl : Trl
  rak : Rak
  mgt : Mgt
  coll : Coll
  deriving DecidableEq, Repr

/-- The block with given tie-offs at the end of a cold start that reached RUN (R20, R454): every
field at its Cold value. Plot 0 is open (R382). Values that the manual leaves to the soil profile are
zero (DESIGN CHOICE, log 2). -/
def State.coldStarted (t : Ties) : State where
  pending := []
  sram := []
  wlog := []
  clk := 0
  free := 0
  outbox := []
  glb := { ties := t }
  start := {}
  sup := {}
  mbx := []
  flt := {}
  pwr := { mpClkOk := t.build == 1, lnPgood := BitVec.allOnes 64 }
  mrl := {}
  obs := {}
  sun := {}
  tst := {}
  plots := [(0, { state := .active, priv := true })]
  tally := []
  fur := []
  img := {}
  xfer := {}
  mp := {}
  rlc := {}
  home := {}
  lanes := {}
  trl := {}
  rak := {}
  mgt := {}
  coll := {}

/-- The tie-offs of the block at reset: E64, endpoint 0, position 0, no test (DESIGN CHOICE, log 1). -/
def Ties.atReset : Ties := { build := 1, inst := 0, diePos := 0, tstEn := false }

/-- The machine right after reset: an E64 at the end of a cold start that reached RUN. -/
def State.reset : State := State.coldStarted Ties.atReset

end Sys2Proof.Machine
end

