-- ==== Sys2Proof/Machine/Ops.lean ====
section
/-! DEFINITION. The operations every meaning is written with: how a command ends, which build and node
the block is, buffer SRAM, raising faults, Silt events, counters and outputs. -/

namespace Sys2Proof.Machine

/-- The state a command leaves: the queue and the clock stand as they stood, and buffer SRAM takes the
bytes the command wrote. -/
def commit (s t : State) : State :=
  { t with pending := s.pending, clk := s.clk, sram := s.sram.writeAll t.wlog, wlog := [] }

/-- The block is an E64 (R3). -/
def e64 (s : State) : Bool := s.glb.ties.build == 1

/-- The block's node number (R4, R28, R322). -/
def selfNode (s : State) : Nat :=
  if e64 s then s.glb.ties.inst.toNat else 512 + s.glb.ties.inst.toNat % 32

/-- GLB_ID as sampled (R6). -/
def glbId (s : State) : Word :=
  pk [(0, s.glb.ties.build.toNat), (8, s.glb.ties.inst.toNat), (20, s.glb.ties.diePos.toNat), (24, 1)]

/-- The furrows of the build (R42). -/
def furrowCount (s : State) : Nat := if e64 s then 64 else 256

/-- The lanes of the build (R7). -/
def laneCount (s : State) : Nat := if e64 s then 64 else 512

/-- The links of the build (R362): 40 on E64, 512 on S512. -/
def linkCount (s : State) : Nat := if e64 s then 40 else 512

/-- The transfer engines of the build (R155). -/
def engineCount (s : State) : Nat := if e64 s then 8 else 32

/-- The port engines of the build (R7). -/
def portCount (s : State) : Nat := if e64 s then 16 else 128

/-- Bytes of buffer SRAM (R7, R55). -/
def sramSize (s : State) : Nat := if e64 s then 16 * 2 ^ 20 else 384 * 2 ^ 20

/-- Buffer SRAM with the running command's writes. -/
def curSram (s : State) : Memory := s.sram.writeAll s.wlog

/-- Bytes of buffer SRAM. -/
def sramRead (s : State) (a n : Nat) : List Byte := (curSram s).readBytes a n

/-- Bytes written to buffer SRAM. -/
def sramWrite (a : Nat) (bs : List Byte) (s : State) : State := { s with wlog := s.wlog ++ cellsAt a bs }

/-- A line of buffer SRAM. -/
def sramLine (s : State) (a : Nat) : Line := lineOf (sramRead s a 128)

/-- Every byte of buffer SRAM becomes zero (R454 step 10). -/
def sramZero (s : State) : State := { s with wlog := s.wlog ++ (curSram s).map (fun c => (c.1, 0)) }

/-- The enabled bytes of a line written to buffer SRAM (R113). -/
def sramWriteLine (a : Nat) (l : Line) (be : LineEn) (s : State) : State :=
  { s with wlog := s.wlog ++ ((cellsAt a (lineBytes l)).filter (fun c => be.getLsbD (c.1 - a))) }

/-- An output of the block. -/
def emit (o : Output) (s : State) : State := { s with outbox := s.outbox ++ [o] }

/-- The next free value's index, and the counter advanced. -/
def takeFree (s : State) : State := { s with free := s.free + 1 }

/-- A furrow; an unlisted one stands as at reset, with the ring in buffer SRAM on S512 (R53). -/
def getFur (s : State) (f : Nat) : Furrow := s.fur.getD f { ringCfg := if e64 s then 6 else 0x106 }

/-- A furrow changed. -/
def modFur (f : Nat) (g : Furrow → Furrow) (s : State) : State := { s with fur := s.fur.set f (g (getFur s f)) }

/-- A plot of the plot table. -/
def getPlot (s : State) (p : Nat) : Plot := s.plots.at p

/-- A plot changed. -/
def modPlot (p : Nat) (g : Plot → Plot) (s : State) : State := { s with plots := s.plots.mod p g }

/-- The level that the fault tables give a code when the block itself raises it (R106, R154, R180, R219,
R247, R287, R303, R342, R372, R408, R446, R466, R495, R539, R557, R564). A code that a furrow takes is
L1 whatever this says (R79, R180). -/
def faultLevel (code : Nat) : Level :=
  if code = 0xF00 ∨ code = 0x742 then .safe
  else if code ∈ [0x249, 0x24B, 0x662, 0x801, 0x821, 0x851, 0x710, 0x712, 0x721, 0x730, 0x731] then .l3
  else if code ∈ [0x261, 0x661] then .l2
  else if 0x101 ≤ code ∧ code ≤ 0x171 then .l1
  else if code ∈ [0x220, 0x221, 0x223, 0x301, 0x302, 0x303, 0x304, 0x305, 0x306, 0x310, 0x311, 0x312, 0x313,
      0x314, 0x315, 0x320, 0x330, 0x340, 0x3A0, 0x3A1, 0x3A3, 0x3B1, 0x3B2, 0x3B4, 0x3B6, 0x610, 0x852,
      0xF30] then .l1
  else .l0

/-- A fault on its way to the collector, which takes it at FAULT_RAISED (R412, R413). -/
def raiseEv (e : FaultEv) (s : State) : State :=
  { s with flt := { s.flt with inflight := s.flt.inflight ++ [{ e with time := s.sun.time }] } }

/-- A fault of the block with no plot, at the level of its table. -/
def raise (code : Nat) (s : State) : State := raiseEv { code := code, level := faultLevel code } s

/-- A fault noted at L0 for a plot and a unit. -/
def note (code : Nat) (plot : Option Nat) (kind : UnitKind) (unit : Nat) (s : State) : State :=
  raiseEv { code := code, level := .l0, plot := plot, kind := kind, unit := unit } s

/-- A fault noted at L0 when a condition holds. -/
def noteIf (b : Bool) (code : Nat) (s : State) : State := if b then raise code s else s

/-- The Silt ring that DBG_SILT_SEL selects (R482, R496): kind and index, and its key. -/
def siltKey (kind idx : Nat) : Nat := kind * 256 + idx

/-- A ring takes no events while DBG_SILT_SEL selects it with freeze set (R482). -/
def siltFrozen (s : State) (kind idx : Nat) : Bool :=
  bitAt s.obs.siltSel 12 && fld s.obs.siltSel 0 3 == kind && fld s.obs.siltSel 3 8 == idx

/-- The 16 bytes of a Silt event (R481). -/
def siltBits (time code layer op : Nat) (plot sub detail : Nat) : BitVec 128 :=
  BitVec.ofNat 128 (time % 2 ^ 48 + (code % 2 ^ 12) * 2 ^ 48 + (layer % 2 ^ 16) * 2 ^ 64 + (op % 2 ^ 16) * 2 ^ 80
    + (plot % 256) * 2 ^ 96 + (sub % 256) * 2 ^ 104 + (detail % 2 ^ 16) * 2 ^ 112)

/-- A unit writes an event of a time into its Silt ring (R481, R482). -/
def siltAt (time kind idx code layer op plot sub detail : Nat) (s : State) : State :=
  let r := s.obs.rings.at (siltKey kind idx)
  let r' := if siltFrozen s kind idx then { r with lost := satInc 65535 r.lost }
    else { r with count := r.count + 1,
                  ev := r.ev.set (r.count.toNat % 64) (siltBits time code layer op plot sub detail) }
  { s with obs := { s.obs with rings := s.obs.rings.set (siltKey kind idx) r' } }

/-- A unit writes an event of now. -/
def silt (kind idx code layer op plot sub detail : Nat) (s : State) : State :=
  siltAt s.sun.time kind idx code layer op plot sub detail s

/-- The code of a furrow state (R51). -/
def FState.code (f : FState) : Nat :=
  match f with
  | .idle => 0 | .running => 1 | .waiting => 2 | .stopped => 3 | .halted => 4 | .faulted => 5

/-- The code of a training state (R343). -/
def TState.code (t : TState) : Nat :=
  match t with
  | .down => 0 | .detect => 1 | .acquire => 2 | .coeff => 3 | .align => 4 | .check => 5 | .up => 6 | .test => 7 | .held => 8

/-- Furrows and lanes whose state a command changed write the event of the change (R481, 0x001 and 0x002). -/
def siltStates (s t : State) : State :=
  let t' := t.fur.foldl (fun t e =>
    if (getFur s e.1).state = e.2.state then t
    else silt 3 (e.1 / 64) 0x001 0 0 e.2.plot (e.1 % 256) e.2.state.code t) t
  t.lanes.lane.foldl (fun t e =>
    if (s.lanes.lane.at e.1).tstate = e.2.tstate then t
    else silt 0 (e.1 / 8) 0x002 0 0 0 (e.1 % 8) e.2.tstate.code t) t'

/-- Links that narrowed or widened and power domains that changed write their events (R481, 0x003 and 0x007); the manual names
no unit for a domain's event: it goes to the management ring (log 80). -/
def siltLinks (s t : State) : State :=
  let t' := t.lanes.link.foldl (fun t e =>
    let m := (s.lanes.link.at e.1).mask
    if m = e.2.mask ∨ m = 0 ∨ e.2.mask = 0 then t
    else silt 1 (if t.glb.ties.build == 1 then e.1 else e.1 / 4) 0x003 0 0 0 0 e.2.mask t) t
  t.pwr.doms.foldl (fun t e =>
    if (s.pwr.doms.getD e.1 {}).on = e.2.on then t
    else silt 7 3 0x007 0 0 0 0 (e.1 + if e.2.on then 32768 else 0) t) t'

/-- Beds opened and closed, steps that have left their bed with no abort, and a Trellis swap write their events (R481, 0x004 to
0x006 and 0x008); bed events go to the ring of the first Harrow cluster (log 80). -/
def siltBeds (s t : State) : State :=
  let t' := t.coll.beds.foldl (fun t e =>
    let o := s.coll.beds.at e.1
    let gone := o.steps.filter (fun x => !x.stopped && !(e.2.steps.any (fun y => y.num == x.num)))
    let t := gone.foldl (fun t x => silt 4 0 0x006 0 0 e.2.plot 0 (x.num % 65536) t) t
    if o.isOpen = e.2.isOpen then t else silt 4 0 0x004 0 0 e.2.plot 0 e.1 t) t
  let t' := s.coll.beds.foldl (fun t e =>
    if e.2.isOpen && !(t.coll.beds.at e.1).isOpen then silt 4 0 0x005 0 0 e.2.plot 0 e.1 t else t) t'
  if s.trl.live = t.trl.live then t' else silt 7 1 0x008 0 0 0 0 t.trl.live.toNat t'

/-- The bits of `b` that are not in `a` write a fence event into the rings of their units (R481, 0x009). -/
def siltFence (n kind group code a b : Nat) (s : State) : State :=
  (List.range n).foldl (fun s i =>
    if b.testBit i && !a.testBit i then silt kind (i / group) 0x009 0 0 0 i code s else s) s

/-- Fenced units write their events (R481, 0x009). -/
def siltFences (s t : State) : State :=
  let t' := siltFence 128 1 1 0xF10 s.flt.fencedPrt.toNat t.flt.fencedPrt.toNat t
  let t' := siltFence 32 2 1 0xF11 s.flt.fencedXfr.toNat t.flt.fencedXfr.toNat t'
  let t' := siltFence 4 3 1 0xF12 s.flt.fencedFur.toNat t.flt.fencedFur.toNat t'
  let t' := siltFence 4 6 1 0xF13 s.flt.fencedBank.toNat t.flt.fencedBank.toNat t'
  let t' := siltFence 32 4 4 0x402 s.coll.sliceFence.toNat t.coll.sliceFence.toNat t'
  siltFence 4 5 1 0x3C1 s.coll.sivFence.toNat t.coll.sivFence.toNat t'

/-- The non-fault events of what a command changed (R481). -/
def siltChanges (s t : State) : State := siltFences s (siltBeds s (siltLinks s (siltStates s t)))

/-- A command that runs as the state change `f`. -/
def act (f : State → State) (s : State) : Host.Outcome State Fault Refusal :=
  .next (commit s (siltChanges s (f { s with wlog := [] })))

/-- The Silt ring of a faulting unit (R480). -/
def siltUnit (k : UnitKind) (unit : Nat) : Nat × Nat :=
  match k with
  | .furrow => (3, unit / 64)
  | .port => (1, unit)
  | .xfer => (2, unit)
  | .slice => (4, unit / 4)
  | .sieve => (5, unit)
  | .dibber => (7, 0)
  | .bank => (6, unit)
  | .block => (7, 2)

/-- Saturation of a utilisation counter (R491). -/
def cntMax : Nat := 2 ^ 48 - 1

/-- The counter counts this source and unit (R491). -/
def cntTakes (c : Cnt) (src unit : Nat) : Bool :=
  bitAt c.sel 24 && fld c.sel 0 5 == src && (fld c.sel 5 10 == 0x3FF || fld c.sel 5 10 == unit)

/-- The counter after `n` more (R491). -/
def cntAdd (c : Cnt) (n : Nat) : Cnt :=
  if c.count + n ≤ cntMax then { c with count := c.count + n } else { c with count := cntMax, ovf := true }

/-- `n` events of a counter source at a unit (R491); a counter that newly saturates notes 0x910. -/
def countSrc (src unit n : Nat) (s : State) : State :=
  let cs := s.obs.cnt.mapVals (fun _ c => if cntTakes c src unit then cntAdd c n else c)
  let newly := s.obs.cnt.any (fun e => cntTakes e.2 src unit && !e.2.ovf && (cntAdd e.2 n).ovf)
  noteIf newly 0x910 { s with obs := { s.obs with cnt := cs } }

/-- A counter in command mode restarts at the issue of each command of its furrow (R492): the count
that ends keeps its tag until then, and the new count belongs to the issued command. -/
def cntCommand (f seq : Nat) (s : State) : State :=
  { s with obs := { s.obs with cnt := s.obs.cnt.mapVals (fun _ c =>
      if bitAt c.sel 15 && fld c.sel 16 8 == f then { c with count := 0, tag := seq % 2 ^ 24 } else c) } }

/-- A 32-bit wrapping counter advanced, and whether it wrapped. -/
def wrapInc (w : Word) : Word × Bool := (w + 1, w == 0xFFFFFFFF)

/-- The block-wide tally number of a plot's tally (R383). -/
def tallyIndex (s : State) (plot t : Nat) : Nat := (getPlot s plot).tallyBase + t

/-- A tally's value. -/
def getTally (s : State) (plot t : Nat) : DWord := s.tally.at (tallyIndex s plot t)

/-- A tally set, unless its plot drains (R97, R124, R387). -/
def setTally (plot t : Nat) (v : DWord) (s : State) : State :=
  if (getPlot s plot).state = .draining then s
  else { s with tally := s.tally.set (tallyIndex s plot t) v }

/-- An increment of a tally, unless its plot drains (R98, R125, R387). -/
def addTally (plot t : Nat) (v : DWord) (s : State) : State :=
  if (getPlot s plot).state = .draining then s
  else { s with tally := s.tally.set (tallyIndex s plot t) (getTally s plot t + v) }

/-- A line counted at its destination (R93, R118): on the tally, or on GLB_PLOT_ACCT while the plot
drains (R387). Tally 0xFFFF counts on no tally (R73). -/
def countLine (plot : Nat) (tally : Option Nat) (bytes : Nat) (s : State) : State :=
  if (getPlot s plot).state = .draining then
    modPlot plot (fun p => { p with acct := p.acct + 1 }) s
  else match tally with
    | none => s
    | some t => if t = 0xFFFF then s
      else countSrc 4 plot bytes (addTally plot t (BitVec.ofNat 64 bytes) s)

/-- The block is under L3 or Safe, or a reset has stopped origination (R421, R422, R427). -/
def stopped (s : State) : Bool := s.flt.l3 || s.flt.safe || s.glb.stopped

/-- The block is in RUN (R467). -/
def inRun (s : State) : Bool := s.start.state == 2

/-- A time limit in ns has passed since a moment. -/
def passed (s : State) (since limit : Nat) : Bool := since + limit ≤ s.clk

/-- A switched domain (R546); an unlisted one is on. -/
def getDom (s : State) (d : Nat) : Dom := s.pwr.doms.getD d {}

/-- A domain changed. -/
def modDom (d : Nat) (g : Dom → Dom) (s : State) : State :=
  { s with pwr := { s.pwr with doms := s.pwr.doms.set d (g (getDom s d)) } }

/-- A domain is powered and not isolated. -/
def domOn (s : State) (d : Nat) : Bool := (getDom s d).on && !(getDom s d).isolated

/-- The transport domain of a port engine (R546). -/
def portDom (s : State) (p : Nat) : Nat := if e64 s then 8 + p / 8 else 64 + p / 16
/-- The transport domain of a transfer engine (R546). -/
def engDom (s : State) (e : Nat) : Nat := if e64 s then 8 + e / 4 else 64 + e / 4
/-- The domain of a furrow's group (R546). -/
def furDom (s : State) (f : Nat) : Nat := if e64 s then 10 else 72 + f / 64
/-- The domain of a Harrow slice's cluster (R546). -/
def sliceDom (s : State) (k : Nat) : Nat := if e64 s then 11 else 76 + k / 4
/-- The domain of a Sieve unit (R546). -/
def sieveDom (s : State) (u : Nat) : Nat := if e64 s then 12 else 84 + u
/-- The domain of a buffer bank group (R546). -/
def bankDom (s : State) (b : Nat) : Nat := if e64 s then 13 + b else 88 + b
/-- The management domain (R546). -/
def mgmtDom (s : State) : Nat := if e64 s then 15 else 92
/-- The Marl domain (R546). -/
def marlDom (s : State) : Nat := if e64 s then 16 else 93
/-- The Dibber domain (R546). -/
def dibDom (s : State) : Nat := if e64 s then 17 else 94
/-- The number of switched domains (R546). -/
def domCount (s : State) : Nat := if e64 s then 18 else 96

/-- A wake cause meets a domain that Lulen gated by itself: its power is requested, once the controller has opened its switch,
and counted (R508, R548, R549, R558). -/
def wakeDom (d : Nat) (s : State) : State :=
  let x := getDom s d
  if x.selfOff && !x.req && !x.wakeWait then
    modDom d (fun x => if x.ack then { x with wakeWait := true } else { x with req := true, reqSince := s.clk })
      { s with pwr := { s.pwr with wakeCnt := s.pwr.wakeCnt + 1 } }
  else modDom d (fun x => { x with idleSince := s.clk }) s

/-- A record waits for the Marl (R472), which it wakes (R548): its time is the event's, or the Sundial's, flagged while that is unlocked (R469, R490). -/
def queueRec (r : MarlRec) (s : State) : State :=
  wakeDom (marlDom s) { s with mrl := { s.mrl with queue := s.mrl.queue ++ [{ r with
      time := if r.time = 0 then s.sun.time else r.time, unlocked := s.sun.state == .free || s.sun.state == .holdover }] } }

/-- The causes of open entries are cleared (R412); an entry that is acknowledged too closes, and the table has room again
(R417, R419). -/
def clearCauses (mine : FltEntry → Bool) (s : State) : State :=
  let es := s.flt.entries.mapVals (fun _ e => if mine e then { e with cleared := true } else e)
  let es' := es.filter (fun e => !(e.2.cleared && e.2.acked))
  { s with flt := { s.flt with entries := es', fullNoted := s.flt.fullNoted && decide (es'.length = es.length) } }

/-- The cause of a furrow's own L1 entry is cleared, by a resume or a reset (R412). -/
def clearFurCause (f : Nat) (s : State) : State := clearCauses (fun e => e.furrow == some f && e.level == .l1) s

/-- SIGNAL posts an entry to the event queue of 64 entries (R401). -/
def postEvent (code f plot : Nat) (s : State) : State :=
  if s.sup.evq.length < 64 then
    { s with sup := { s.sup with evq := s.sup.evq ++ [pk [(0, code % 65536), (16, f % 256), (24, plot % 256)]] } }
  else { s with sup := { s.sup with dropped := satInc 65535 s.sup.dropped, events := setBit s.sup.events 4 true } }

/-- The collective part of the state changed. -/
def modColl (g : Coll → Coll) (s : State) : State := { s with coll := g s.coll }
/-- A bed context. -/
def getBed (s : State) (c : Nat) : Bed := s.coll.beds.at c
/-- A bed context changed. -/
def modBed (c : Nat) (g : Bed → Bed) (s : State) : State := modColl (fun x => { x with beds := x.beds.mod c g }) s

/-- The open context of a bed of a plot (R186). -/
def findBed (s : State) (plot bed : Nat) : Option Nat :=
  (s.coll.beds.find? (fun e => e.2.isOpen && e.2.plot == plot && e.2.desc.bed == bed)).map (fun e => e.1)

/-- A block that has no bed for a packet, or one of another generation, discards it (R189). -/
def collStale (plot bed : Nat) (s : State) : State :=
  match findBed s plot bed with
  | some c => modBed c (fun b => { b with stale := b.stale + 1, staleWrap := b.staleWrap || b.stale == 0xFFFFFFFF }) s
  | none => modColl (fun c => { c with
      staleCnt := (c.staleCnt + 1) % 2 ^ 31, staleWrap := c.staleWrap || c.staleCnt + 1 == 2 ^ 31 }) s

end Sys2Proof.Machine
end

