-- ==== Sys2Proof/Machine/Flags.lean ====
section
/-! DEFINITION. Comparisons: the predicates of CMP, the modular comparison of tallies, and parity. -/

namespace Sys2Proof.Machine

/-- The comparison that an op selector of CMP names (R90); codes above 0x0A are refused before. -/
def cmpHolds (sel : Nat) (x y : DWord) : Bool :=
  match sel with
  | 0 => x == y
  | 1 => x != y
  | 2 => x.ult y
  | 3 => x.ule y
  | 4 => x.slt y
  | 5 => x.sle y
  | 6 => y.ult x
  | 7 => y.ule x
  | 8 => y.slt x
  | 9 => y.sle x
  | _ => (x &&& y) != 0

/-- A tally with value `v` has reached the target `t` (R122). -/
def tallyReached (v t : DWord) : Bool := decide ((v - t).toNat < 2 ^ 62)

/-- Even parity of a beat's data, one bit per 64 data bits (R520). -/
def dataParity (l : Line) : BitVec 16 :=
  BitVec.ofNat 16 ((List.range 16).foldl (fun a i => a + (oddParity (l.extractLsb' (64 * i) 64)).toNat * 2 ^ i) 0)

/-- The seventeenth parity bit of an OR or IR beat, over kind, tag and status (R521, R523). -/
def rspParity (kind : BitVec 2) (tag : BitVec 10) (status : Bool) : Bool :=
  xor (xor (oddParity kind) (oddParity tag)) status

/-- The parity of an OR beat holds (R521). -/
def orParityOk (b : OrBeat) : Bool :=
  b.par.setWidth 16 == dataParity b.data && b.par.getLsbD 16 == rspParity b.kind b.tag b.status

/-- The parity of an IQ beat and, for a write, of its ID beat holds (R522). -/
def iqParityOk (b : IqBeat) : Bool :=
  let q := xor b.write (xor (oddParity b.tag) (xor (oddParity b.core) (xor (oddParity b.plot)
    (xor (oddParity b.addr) (xor (oddParity b.len) b.vol)))))
  b.par == q && (!b.write || (b.dpar.setWidth 16 == dataParity b.data && b.dpar.getLsbD 16 == oddParity b.be))

/-- The parity bit of a control-port request over WR, MASTER and ADDR (R514). -/
def cpAddrParity (wr : Bool) (sv : Nat) (addr : BitVec 24) : Bool :=
  xor wr (xor (oddParity (BitVec.ofNat 2 sv)) (oddParity addr))

/-- The parity of a control-port write holds: one bit over WR, MASTER and ADDR, one over the data
(R514, R516). -/
def cpParityOk (sv : Nat) (addr : BitVec 24) (w : Word) (par : BitVec 2) : Bool :=
  par.getLsbD 0 == cpAddrParity true sv addr && par.getLsbD 1 == oddParity w

end Sys2Proof.Machine
end

