-- ==== Sys2Proof/Machine/Operands.lean ====
section
/-! DEFINITION. How each opcode uses its fields (R82), the checks of steps 1 to 6 of R74, and how
operands are read at issue (R71). -/

namespace Sys2Proof.Machine

/-- The use an opcode makes of byte 28. -/
inductive DUse where
  | none | greg | pred | fmt | fmtOrRaw
  deriving DecidableEq, Repr

/-- The use an opcode makes of byte 29 [4:0]. -/
inductive SelUse where
  | none | row | compare | atomic | kind | reduction | topk | combine
  deriving DecidableEq, Repr

/-- A row of the operand table (R82): the used bits of A, B and the length, whether bytes 6 to 7 are
used, the use of byte 28 and of the op selector, and the mask of the flags V, W, GA, GB and GL that it
honours. -/
structure OpUse where
  a : Nat := 0
  b : Nat := 0
  len : Nat := 0
  id : Bool := false
  d : DUse := .none
  sel : SelUse := .none
  flags : Nat := 0
  deriving DecidableEq, Repr

/-- All 64 bits of an operand. -/
def all64 : Nat := 2 ^ 64 - 1
/-- All 32 bits of a length. -/
def all32 : Nat := 2 ^ 32 - 1
/-- A local address of 47 bits. -/
def all47 : Nat := 2 ^ 47 - 1

/-- The bits of P that a collective command names, in their places in B (R103). -/
def pBits (op : Nat) : Nat :=
  (match op with
   | 0x52 | 0x56 | 0x58 => 0x1FF
   | 0x57 => 0x3FF
   | 0x59 => 1
   | 0x61 => 0x1FFF
   | _ => 0) * 2 ^ 47

/-- The row of a collective, sparse or Dibber command that takes user buffers. On S512 A and B hold no
address and GA and GB are not honoured (R104); P stays, since planes issue the same P (R188; log 40). -/
def collUse (plane : Bool) (op : Nat) (d : DUse) (sel : SelUse) : OpUse :=
  let gl := if op = 0x70 then 0 else 0x40
  if plane then { a := 0, b := pBits op, len := all32, id := true, d := d, sel := sel, flags := gl }
  else { a := all64, b := all47 + pBits op, len := all32, id := true, d := d, sel := sel, flags := 0x30 + gl }

/-- The operand table (R82, R83): none for an opcode that is not listed. -/
def opUse (plane : Bool) (op : Nat) : Option OpUse :=
  match op with
  | 0x00 => some {}
  | 0x01 => some { a := all64, flags := 0x10 }
  | 0x02 => some { a := all64, b := 0xF, flags := 0x10 }
  | 0x03 => some { a := all64, b := all64, flags := 0x10 }
  | 0x04 => some { a := 0xFFFFFFFF3F }
  | 0x05 => some {}
  | 0x06 => some {}
  | 0x07 => some { a := 0xFFFF }
  | 0x10 => some { a := all64, d := .greg }
  | 0x11 => some { a := all64, d := .greg, flags := 0x10 }
  | 0x12 => some { a := 0xF, d := .greg }
  | 0x13 => some { a := 0xF, b := all64, d := .pred, sel := .compare, flags := 0x20 }
  | 0x14 => some { a := all64, d := .greg, sel := .row, flags := 0x13 }
  | 0x15 => some { a := all64, id := true, d := .greg, sel := .row, flags := 0x12 }
  | 0x20 => some { a := all64, b := all64, len := all32, id := true, sel := .row, flags := 0x73 }
  | 0x21 => some { a := all64, b := all64, len := all32, id := true, sel := .row, flags := 0x72 }
  | 0x22 => some { a := all64, b := all64, len := all32, id := true, sel := .row, flags := 0x73 }
  | 0x23 => some { a := all64, b := all64, len := all32, id := true, sel := .row, flags := 0x72 }
  | 0x30 => some { a := all64, b := all64, len := 0x1F, d := .fmt, sel := .atomic, flags := 0x30 }
  | 0x40 => some { a := all64, id := true, flags := 0x10 }
  | 0x41 => some { a := all64, b := 0x1FF, id := true, sel := .row, flags := 0x12 }
  | 0x42 => some { a := all64, id := true, flags := 0x10 }
  | 0x43 => some {}
  | 0x44 => some { a := all64, b := all64, sel := .kind, flags := 0x30 }
  | 0x45 => some { a := all64, flags := 0x10 }
  | 0x50 => some { a := all64, id := true, flags := 0x10 }
  | 0x51 => some { id := true }
  | 0x52 | 0x53 | 0x54 | 0x59 | 0x60 => some (collUse plane op .fmt .reduction)
  | 0x55 | 0x56 | 0x57 | 0x58 => some (collUse plane op .fmt .none)
  | 0x61 => some (collUse plane op .fmt .topk)
  | 0x62 => some (collUse plane op .none .none)
  | 0x63 => some (collUse plane op .fmt .combine)
  | 0x70 => some (collUse plane op .fmt .reduction)
  | 0x71 => some { id := true }
  | 0x7E => some { a := all64, flags := 0x10 }
  | 0x7F => some { a := all64, b := all64, len := all32, d := .fmtOrRaw, flags := 0x70 }
  | _ => none

/-- Flag bits of a command (R69). -/
def Cmd.flag (c : Cmd) (i : Nat) : Bool := c.flags.getLsbD i
/-- The op selector, byte 29 [4:0]. -/
def Cmd.osel (c : Cmd) : Nat := c.sel % 32
/-- The predicate index, byte 29 [7:5]. -/
def Cmd.pidx (c : Cmd) : Nat := c.sel / 32
/-- V: volatile. -/
def Cmd.fV (c : Cmd) : Bool := c.flag 0
/-- W: row channel. -/
def Cmd.fW (c : Cmd) : Bool := c.flag 1
/-- N: notify. -/
def Cmd.fN (c : Cmd) : Bool := c.flag 2
/-- K: break. -/
def Cmd.fK (c : Cmd) : Bool := c.flag 3
/-- GA: operand A from a register. -/
def Cmd.fGA (c : Cmd) : Bool := c.flag 4
/-- GB: operand B from a register. -/
def Cmd.fGB (c : Cmd) : Bool := c.flag 5
/-- GL: length from a register. -/
def Cmd.fGL (c : Cmd) : Bool := c.flag 6
/-- P: predicated. -/
def Cmd.fP (c : Cmd) : Bool := c.flag 7

/-- The row channel of a command with W set. -/
def Cmd.row (c : Cmd) : Option Nat := if c.fW then some (c.osel % 8) else none

/-- The bits of A that the command uses, after R71 and the kind-dependent rule of R100. -/
def usedA (u : OpUse) (c : Cmd) : Nat :=
  if c.fGA then 0xF
  else if c.op = 0x44 then (if c.osel = 0 then 0x1FF else if c.osel = 1 then 0xFFFF else u.a)
  else u.a

/-- The bits of B that the command uses: R71, R100, and R176 for an immediate of a 32-bit ATOM. -/
def usedB (u : OpUse) (c : Cmd) : Nat :=
  if c.fGB then 0xF
  else if c.op = 0x44 ∧ c.osel = 1 then 0
  else if c.op = 0x30 ∧ (c.d = 0x06 ∨ c.d = 0x12) then all32
  else u.b

/-- The bits of the length that the command uses: R71, and R96 for ATOM. -/
def usedLen (u : OpUse) (c : Cmd) : Nat :=
  if c.fGL then 0xF
  else if c.op = 0x30 then (if c.len.testBit 4 then 0x1F else 0)
  else u.len

/-- A value has a bit outside a mask. -/
def outside (v mask : Nat) : Bool := v &&& mask != v

/-- Step 4 of R74: every unused field and bit is zero and every index in range (R72, R89, R94, R100). -/
def fieldsOk (u : OpUse) (c : Cmd) : Bool :=
  !outside c.a.toNat (usedA u c) && !outside c.b.toNat (usedB u c) && !outside c.len (usedLen u c)
    && (u.id || c.id == 0)
    && (match u.d with | .none => c.d == 0 | .greg => decide (c.d < 16) | .pred => decide (c.d < 8) | _ => true)
    && (match u.sel with
        | .none => c.osel == 0
        | .row => if c.fW then decide (c.osel < 8) else c.osel == 0
        | .kind => !(c.osel == 1 && c.fGB)
        | _ => true)
    && (c.fP || c.pidx == 0)

/-- The formats of the shared table (R223). -/
def sharedFormats : List Nat := [1, 2, 3, 4, 5, 6, 8, 9, 0xA, 0xB, 0xC, 0xD, 0x10, 0x11, 0x12]

/-- The integer formats. -/
def intFormat (f : Nat) : Bool := decide (1 ≤ f ∧ f ≤ 6)
/-- The MX formats. -/
def mxFormat (f : Nat) : Bool := decide (0xA ≤ f ∧ f ≤ 0xD)

/-- The formats an opcode accepts (R95, R104, R105, R254, R281). -/
def formatOk (op d : Nat) : Bool :=
  if op = 0x30 then d == 6 || d == 7 || d == 0x12
  else if op = 0x70 then d ∈ [3, 4, 5, 6, 0x10, 0x11, 0x12]
  else if op = 0x60 ∨ op = 0x61 then d ∈ [3, 4, 5, 6, 8, 9, 0x10, 0x11, 0x12]
  else if op = 0x7F then d == 0 || d ∈ sharedFormats
  else d ∈ sharedFormats

/-- Step 6 of R74: the op selector (R90, R95, R100, R104, R226, R256, R262, R281). -/
def selOk (use : SelUse) (d sel : Nat) : Bool :=
  match use with
  | .none | .row => true
  | .compare => decide (sel ≤ 0xA)
  | .atomic => decide (0x10 ≤ sel ∧ sel ≤ 0x17) && !(d == 0x12 && decide (0x15 ≤ sel))
  | .kind => decide (sel ≤ 1)
  | .topk => sel == 2 || sel == 3
  | .combine => sel == 4 || sel == 5
  | .reduction =>
    if sel = 6 ∨ sel = 8 then intFormat d
    else if sel = 1 then d != 6 && d != 0x12
    else decide (sel ≤ 3)

/-- Steps 2 to 6 of R74: zero when the command passes, else the code of the first failure. -/
def staticCheck (plane : Bool) (c : Cmd) : Nat :=
  match opUse plane c.op with
  | none => 0x101
  | some u =>
    if outside c.flags.toNat (u.flags ||| 0x8C) then 0x102
    else if !fieldsOk u c then 0x103
    else if (u.d = .fmt ∨ u.d = .fmtOrRaw) ∧ !formatOk c.op c.d then 0x105
    else if !selOk u.sel c.d c.osel then 0x106
    else 0

/-- The operands of a command as step 9 of R74 takes them. -/
structure Opnd where
  a : DWord
  b : DWord
  len : Nat
  deriving DecidableEq, Repr

/-- A general register. -/
def Furrow.reg (f : Furrow) (k : Nat) : DWord := f.g.getD k 0

/-- A general register set. -/
def Furrow.setReg (f : Furrow) (k : Nat) (v : DWord) : Furrow := { f with g := f.g.set k v }

/-- The operands of a command, registers read (R71). -/
def operands (f : Furrow) (c : Cmd) : Opnd :=
  { a := if c.fGA then f.reg (c.a.toNat % 16) else c.a
    b := if c.fGB then f.reg (c.b.toNat % 16) else c.b
    len := if c.fGL then (f.reg (c.len % 16)).toNat else c.len }

/-- The registers that a command reads or writes (R71, R78, R89-R91, R96). -/
def regsUsed (c : Cmd) : List Nat :=
  (if c.fGA then [c.a.toNat % 16] else []) ++ (if c.fGB then [c.b.toNat % 16] else [])
    ++ (if c.fGL then [c.len % 16] else [])
    ++ (match c.op with
        | 0x10 | 0x11 | 0x14 | 0x15 => [c.d]
        | 0x12 => [c.d, c.a.toNat % 16]
        | 0x13 => [c.a.toNat % 16]
        | 0x30 => (if c.osel = 0x14 then [15] else []) ++ (if c.len.testBit 4 then [c.len % 16] else [])
        | _ => [])

/-- A register operand holds a bit outside what the opcode uses: the step 4 checks at step 9 (R74, R100,
R103). -/
def regFieldBad (u : OpUse) (c : Cmd) (o : Opnd) : Bool :=
  (c.fGA && outside o.a.toNat (usedA u { c with flags := c.flags &&& 0xEF }))
    || (c.fGB && c.op != 0x30 && outside o.b.toNat (usedB u { c with flags := c.flags &&& 0xDF }))

/-- Rack address bits [63:56] are zero (R30). -/
def rackOk (a : DWord) : Bool := decide (a.toNat < 2 ^ 56)
/-- The endpoint of a rack address (R30). -/
def rackEp (a : DWord) : Nat := fld a 47 9
/-- The local part of a rack address (R30). -/
def rackLocal (a : DWord) : Nat := fld a 0 47
/-- A local operand names no other endpoint: bits [63:47] are zero (R92; log 41). -/
def localOk (a : DWord) : Bool := decide (a.toNat < 2 ^ 47)

/-- A tally id may be used: no tally where the command allows it, else within the quota (R73). -/
def tallyOk (s : State) (plot id : Nat) (noneOk : Bool) : Bool :=
  if id = 0xFFFF then noneOk else decide (id < (getPlot s plot).tallyQuota)

/-- The first code of a list of (failed, code) pairs whose test failed, else zero. -/
def firstFail : List (Bool × Nat) → Nat
  | [] => 0
  | (b, c) :: r => if b then c else firstFail r

end Sys2Proof.Machine
end

