-- ==== Sys2Proof/Machine/Engine.lean ====
section
/-! DEFINITION. The furrow engine: issue, completion, retirement, faults, doorbells and the states of a
furrow (R42-R61, R74-R80, R107-R109). -/

namespace Sys2Proof.Machine

/-- The state as FUR_STATUS reads it: Running or Waiting. -/
def Furrow.active (f : Furrow) : Bool := f.state == .running || f.state == .waiting

/-- The sequence number of the next command to issue: FUR_SEQ as it reads once it retires (R47, R80;
log 42). -/
def Furrow.nextSeq (f : Furrow) : Nat := (f.seq.toNat + f.issued.length + 1) % 2 ^ 32

/-- Commands issued and not yet complete that take one of the 16 places (R76). -/
def Furrow.outstanding (f : Furrow) : Nat := (f.issued.filter (fun i => i.outst && !i.done)).length

/-- The registers that a command still out will write (R78). -/
def Furrow.busyRegs (f : Furrow) : List Nat :=
  (f.issued.filter (fun i => !i.done)).filterMap (fun i => i.dest)

/-- The size of the furrow's ring (R55). -/
def Furrow.ringSize (f : Furrow) : Nat := 2 ^ fld f.ringCfg 0 5

/-- The ring lies in buffer SRAM (R53). -/
def Furrow.ringSram (f : Furrow) : Bool := bitAt f.ringCfg 8

/-- The ring base (R47, R55). -/
def Furrow.ringBase (f : Furrow) : Nat := f.baseHi.toNat * 2 ^ 32 + f.baseLo.toNat

/-- Commands between FUR_CONS and FUR_PROD (R56). -/
def Furrow.avail (f : Furrow) : Nat := (f.prod - f.cons).toNat

/-- A furrow as it enters Idle other than by a start: the fields of R43 that keep their values keep them. -/
def Furrow.toIdle (f : Furrow) : Furrow :=
  { ctl := f.ctl, haltedEvt := f.haltedEvt, stopEvt := f.stopEvt, faultEvt := f.faultEvt,
    ctlIgnored := f.ctlIgnored, plot := f.plot, ringCfg := f.ringCfg, baseLo := f.baseLo,
    baseHi := f.baseHi, brkMatch := f.brkMatch, twLimit := f.twLimit, nextTid := f.nextTid }

/-- A furrow's plot is frozen at L2 (R420). -/
def plotFrozen (s : State) (p : Nat) : Bool := s.flt.plotFault.getLsbD p

/-- The furrow waits, issue blocked (R45, R51); a wait that goes on keeps its start (R97). -/
def waitOn (f : Nat) (k : WaitKind) (s : State) : State :=
  modFur f (fun g => { g with state := .waiting, wait := k,
                              waitSince := if g.state = .waiting ∧ g.wait = k then g.waitSince else some s.clk }) s

/-- The furrow runs: its wait, if any, has ended. -/
def runOn (f : Nat) (s : State) : State :=
  modFur f (fun g => { g with state := .running, wait := .none, waitSince := none }) s

/-- The furrow enters Stopped with a cause (R45, R51). -/
def stopFur (f : Nat) (c : StopCause) (s : State) : State :=
  modFur f (fun g => { g with state := .stopped, cause := c, stopEvt := true, wait := .none, waitSince := none,
                              stepping := false, stepTid := none }) s

/-- The furrow enters Faulted with a code that opens no entry of its own (R420, R421), or as the head of
its issued commands failed (R79). -/
def enterFaulted (f code seq aband : Nat) (s : State) : State :=
  modFur f (fun g => { g with state := .faulted, faultEvt := true, faultCode := code,
                              faultSeq := BitVec.ofNat 32 seq, abandoned := aband, issued := [],
                              wait := .none, waitSince := none, failing := false, forced := none, halting := false,
                              stepping := false, stepTid := none }) s

/-- The furrow enters Faulted once its outstanding commands are complete and every command before the
failed one has retired (R79); under a plot fault with that fault's code and no entry of its own (R420). -/
def settleFault (f : Nat) (s : State) : State :=
  let g := getFur s f
  match g.issued with
  | [] => match g.forced with
    | some code => enterFaulted f code ((g.seq.toNat + 1) % 2 ^ 32) 0 s
    | none => s
  | h :: r =>
    match h.err with
    | none => s
    | some code =>
      if g.failing && g.issued.all (fun i => i.done) then
        match g.forced with
        | some c => enterFaulted f c ((g.seq.toNat + 1) % 2 ^ 32) r.length s
        | none =>
          let n := (g.seq.toNat + 1) % 2 ^ 32
          raiseEv { code := code, level := .l1, plot := some g.plot, kind := .furrow, unit := f,
                    layer := h.cmd.layer, op := h.cmd.oper, conseq := h.conseq, detail := n,
                    furrow := some f, ctx := leBytes 32 (encodeCmd h.cmd).toNat }
            (enterFaulted f code n r.length s)
      else s

/-- An entry joins the furrow's issued commands; a step has used its one command (R76, R109). -/
def pushIssued (f : Nat) (i : Issued) (s : State) : State :=
  modFur f (fun g => { g with issued := g.issued ++ [i], cur := none, nextTid := g.nextTid + 1,
                              state := if g.active then .running else g.state, wait := .none, waitSince := none,
                              stepTid := if g.stepping then some i.tid else none }) s

/-- The next command of the furrow fails before it takes effect: the furrow issues nothing further
(R74, R79). -/
def failCmd (f : Nat) (c : Cmd) (code : Nat) (s : State) : State :=
  settleFault f (modFur f (fun g => { g with failing := true })
    (pushIssued f { tid := (getFur s f).nextTid, cmd := c, outst := false, done := true, err := some code } s))

/-- A command that completes when it issues (R76). -/
def issueNow (f : Nat) (c : Cmd) (s : State) : State :=
  cntCommand f (getFur s f).nextSeq
    (pushIssued f { tid := (getFur s f).nextTid, cmd := c, outst := false, done := true } s)

/-- A command that is outstanding from issue until completion, in `parts` parts (R76). -/
def issueOut (f : Nat) (c : Cmd) (parts : Nat) (dest : Option Nat) (s : State) : State :=
  cntCommand f (getFur s f).nextSeq
    (pushIssued f { tid := (getFur s f).nextTid, cmd := c, outst := true, left := parts, dest := dest } s)

/-- One part of an issued command ends, in error with a code or not; the first error stands. -/
def partDone (f tid : Nat) (err : Option Nat) (conseq : Bool) (s : State) : State :=
  modFur f (fun g => { g with issued := g.issued.map (fun i =>
    if i.tid = tid then { i with left := i.left - 1,
                                 err := if i.err.isSome then i.err else err,
                                 conseq := if i.err.isSome then i.conseq else err.isSome && conseq }
    else i) }) s

/-- A command whose effect fails at once: it is outstanding with no part left and an error. -/
def failOut (f tid code : Nat) (s : State) : State :=
  modFur f (fun g => { g with issued := g.issued.map (fun i =>
    if i.tid = tid then { i with left := 0, err := some code } else i) }) s

/-- The block lets furrows issue: none of L3, Safe or a reset in progress (R421, R422, R427). -/
def mayIssue (s : State) : Bool := !stopped s && inRun s

/-- A command of furrow `f` with an opcode (and, for SIGNAL, a kind) stands at issue. -/
def atIssue (s : State) (f op : Nat) : Option Ready :=
  let g := getFur s f
  if mayIssue s && decide (f < furrowCount s) && domOn s (furDom s f) && g.active && !g.failing && !g.halting && g.resetting.isNone
      && !(g.stepping && g.stepTid.isSome) then
    match g.cur with
    | some r => if r.cmd.op = op ∧ !r.passed then some r else none
    | none => none
  else none

/-- The oldest command is complete but cannot retire: its notify entry finds the FIFO full (R77). -/
def notifyBlocked (g : Furrow) : Bool :=
  match g.issued with
  | [] => false
  | h :: _ => h.done && h.err.isNone && h.cmd.fN && decide (16 ≤ g.notify.length)

/-- The waits that come before every command's own: a held retirement (R77), the outstanding limit
(R76), the register scoreboard (R78). -/
def issueWait (g : Furrow) (c : Cmd) (outst : Bool) : WaitKind :=
  if notifyBlocked g then .notifyFull
  else if outst ∧ 16 ≤ g.outstanding then .outstanding
  else if (regsUsed c).any (fun k => k ∈ g.busyRegs) then .scoreboard
  else .none

/-- The start of every opcode event: with the command at issue and no wait, `k` runs on its operands. -/
def withCmd (f op : Nat) (outst : Bool) (k : Cmd → Opnd → Place → State → State) (s : State) : State :=
  match atIssue s f op with
  | none => s
  | some r =>
    let w := issueWait (getFur s f) r.cmd outst
    if w = .none then k r.cmd (operands (getFur s f) r.cmd) r.place s else waitOn f w s

/-- The step 9 check that a register operand keeps the field rules of step 4 (R74). -/
def regCheck (s : State) (c : Cmd) (o : Opnd) : Bool × Nat :=
  (match opUse (!e64 s) c.op with | some u => regFieldBad u c o | none => false, 0x103)

/-- The step 9 check of a length in bytes (R71). -/
def lenCheck (o : Opnd) : Bool × Nat := (decide (o.len = 0 ∨ 2 ^ 32 < o.len), 0x111)

/-- A row channel is for privileged plots (R94). -/
def rowCheck (s : State) (f : Nat) (c : Cmd) : Bool × Nat :=
  (c.fW && !(getPlot s (getFur s f).plot).priv, 0x150)

/-- A command ends its checks: the first failure fails it, else `k` runs. -/
def checked (f : Nat) (c : Cmd) (checks : List (Bool × Nat)) (k : State → State) (s : State) : State :=
  let code := firstFail checks
  if code = 0 then k s else failCmd f c code s

/-- A doorbell's window rule (R57). -/
def bellOk (g : Furrow) (v : Word) : Bool :=
  decide ((v - g.cons).toNat ≤ g.ringSize) && decide ((v - g.prod).toNat ≤ g.ringSize)

/-- A new producer index is presented to a furrow (R57, R58). A refused one fails the next command,
which stays in place: a resume issues the command after the last one issued (R80; log 43). -/
def doorbell (n : Nat) (v : Word) (s : State) : State :=
  let g := getFur s n
  if bellOk g v then modFur n (fun g => { g with prod := v }) s
  else if g.state = .idle ∨ g.state = .faulted then note 0x170 (some g.plot) .furrow n s
  else if g.failing then s
  else
    let c := match g.cur with | some r => r.cmd | none => {}
    let s := failCmd n c 0x170 s
    modFur n (fun h => { h with cur := g.cur }) s

/-- The oldest command retires in order: FUR_SEQ advances and a notify entry is pushed (R77, R87). -/
def retireHead (f : Nat) (s : State) : State :=
  let g := getFur s f
  match g.issued with
  | [] => s
  | h :: r =>
    if !h.done || h.err.isSome || g.state == .faulted || g.state == .idle then s
    else if notifyBlocked g then (if g.active then waitOn f .notifyFull s else s)
    else
      let seq := g.seq + 1
      let ent := pk [(0, seq.toNat % 2 ^ 24), (24, h.skipped.toNat), (31, 1)]
      let s := modFur f (fun g => { g with seq := seq, issued := r,
                                           notify := if h.cmd.fN then g.notify ++ [ent] else g.notify }) s
      let s := if g.wait = .notifyFull then runOn f s else s
      let s := if h.cmd.op = 0x06 ∧ !h.skipped then
          modFur f (fun g => { g with state := .halted, haltedEvt := true, halting := false, wait := .none,
                                      waitSince := none, stepping := false, stepTid := none }) s
        else if g.stepping ∧ g.stepTid = some h.tid ∧ g.active then stopFur f .stepDone s
        else s
      settleFault f s

/-- An outstanding command whose parts are all finished completes (R76, R79, R109). -/
def completeCmd (f k : Nat) (s : State) : State :=
  let g := getFur s f
  match g.issued.find? (fun i => i.tid == k) with
  | none => s
  | some i =>
    if i.done || i.left ≠ 0 then s
    else
      let s := modFur f (fun g => { g with
        issued := g.issued.map (fun j => if j.tid = k then { j with done := true } else j),
        failing := g.failing || i.err.isSome }) s
      let s := if g.stepping ∧ g.stepTid = some k ∧ i.err.isNone ∧ g.active then stopFur f .stepDone s else s
      settleFault f s

/-- The condition of a wait still holds (R45): Waiting reads back as Running once it clears. -/
def waitHolds (s : State) (f : Nat) : Bool :=
  let g := getFur s f
  match g.wait with
  | .none => false
  | .ringEmpty => g.prefetch.isEmpty && g.fetching.isNone && decide (g.avail ≤ g.skip)
  | .outstanding => decide (16 ≤ g.outstanding)
  | .fence => g.issued.any (fun i => !i.done)
  | .notifyFull => notifyBlocked g
  | .scoreboard => match g.cur with
      | some r => (regsUsed r.cmd).any (fun k => k ∈ g.busyRegs)
      | none => false
  | .twait => match g.cur with
      | some r => !tallyReached (getTally s g.plot r.cmd.id) (operands g r.cmd).a
      | none => false
  | .sunwait => match g.cur with
      | some r => decide (s.sun.time < (operands g r.cmd).a.toNat)
      | none => false

/-- The state and wait kind that FUR_STATUS shows (R51). -/
def shownState (s : State) (f : Nat) : FState × WaitKind :=
  let g := getFur s f
  if g.state = .waiting then (if waitHolds s f then (.waiting, g.wait) else (.running, .none))
  else (g.state, .none)

/-- A count added to a furrow's producer index by SIGNAL (R58, R100). -/
def signalFur (n : Nat) (count : Word) (s : State) : State := doorbell n ((getFur s n).prod + count) s

end Sys2Proof.Machine
end

