-- ==== Sys2Proof/Machine/Ports.lean ====
section
/-! DEFINITION. Reads and writes of local lines: through the memory ports on E64, in buffer SRAM on S512
(R112, R113, R118, R518-R534). -/

namespace Sys2Proof.Machine

/-- A local address exists (R34, R55, R534). -/
def mapped (s : State) (a : Nat) : Bool :=
  if e64 s then decide (a < 2 ^ 47) && bitAt s.mp.localMap (a / 2 ^ 42) else decide (a < sramSize s)

/-- Every line of a range of local addresses exists. -/
def mappedRange (s : State) (a len : Nat) : Bool := mapped s a && mapped s (a + (len - 1))

/-- The port of a local address (R526). -/
def portOf (a : Nat) : Nat := a / 4096 % 16

/-- The memory ports changed. -/
def modPort (p : Nat) (g : MPort → MPort) (s : State) : State :=
  { s with mp := { s.mp with ports := s.mp.ports.mod p g } }

/-- Finished local work joins what the running command has still to take up. -/
def pushFin (x : Fin) (s : State) : State := { s with mp := { s.mp with fin := s.mp.fin ++ [x] } }

/-- Line `i` of a read arrives, or fails. -/
def finishRead (g i : Nat) (err : Bool) (l : Line) (s : State) : State :=
  match s.mp.gathers.lookup g with
  | none => s
  | some x =>
    let x' := { x with left := x.left - 1, got := x.got.set i l, err := x.err || err }
    let rest := s.mp.gathers.filter (fun e => e.1 != g)
    if x'.left = 0 then
      pushFin (.rd x'.k x'.err (x'.got.map (fun e => e.2))) { s with mp := { s.mp with gathers := rest } }
    else { s with mp := { s.mp with gathers := (g, x') :: rest } }

/-- A line of a write is visible, or failed: a visible line is counted on its tally (R118). -/
def finishWrite (w bytes : Nat) (err : Bool) (s : State) : State :=
  match s.mp.scatters.lookup w with
  | none => s
  | some x =>
    let s := if err || bytes = 0 then s else countLine x.plot x.tally bytes s
    let x' := { x with left := x.left - 1, err := x.err || err }
    let rest := s.mp.scatters.filter (fun e => e.1 != w)
    if x'.left = 0 then pushFin (.wr x'.k x'.err) { s with mp := { s.mp with scatters := rest } }
    else { s with mp := { s.mp with scatters := (w, x') :: rest } }

/-- An access ends with its line, or in error. -/
def finishAcc (a : Access) (err : Bool) (l : Line) (s : State) : State :=
  match a.what with
  | .rd g i => finishRead g i err l s
  | .wr w bytes => finishWrite w bytes err s
  | .lock j => if a.kind = .lockRead then pushFin (.lock j err l) s else pushFin (.unlock j err) s

/-- An access to buffer SRAM on S512, done at once. -/
def sramAccess (a : Access) (s : State) : State :=
  match a.kind with
  | .read | .lockRead => finishAcc a false (sramLine s a.addr) s
  | .write | .unlockWrite => finishAcc a false 0 (sramWriteLine a.addr a.data a.be s)

/-- An access is issued: queued on its port (R526), or done in buffer SRAM. -/
def access (a : Access) (s : State) : State :=
  if e64 s then modPort (portOf a.addr) (fun p => { p with queue := p.queue ++ [a] }) s else sramAccess a s

/-- The accesses of a read, line by line. -/
def readAccs (plot g : Nat) : Nat → List Nat → List Access
  | _, [] => []
  | i, a :: r => { kind := .read, addr := a, plot := plot, what := .rd g i } :: readAccs plot g (i + 1) r

/-- A read of lines of local memory begins; `k` takes them in order. -/
def startRead (plot : Nat) (lines : List Nat) (k : RCont) (s : State) : State :=
  let g := s.mp.nextId
  if lines.isEmpty then pushFin (.rd k false []) s
  else
    let s := { s with mp := { s.mp with nextId := g + 1, gathers := (g, { left := lines.length, k := k }) :: s.mp.gathers } }
    (readAccs plot g 0 lines).foldl (fun s a => access a s) s

/-- One line to write: its address, bytes, enables, and how many bytes it counts. -/
structure LineWr where
  addr : Nat
  data : Line
  be : LineEn := BitVec.allOnes 128
  bytes : Nat := 128
  deriving DecidableEq, Repr

/-- A write of lines of local memory begins; each line counts on the tally when it is visible. -/
def startWrite (plot : Nat) (tally : Option Nat) (ws : List LineWr) (k : WCont) (s : State) : State :=
  let g := s.mp.nextId
  if ws.isEmpty then pushFin (.wr k false) s
  else
    let s := { s with mp := { s.mp with nextId := g + 1,
                                        scatters := (g, { left := ws.length, plot := plot, tally := tally, k := k }) :: s.mp.scatters } }
    ws.foldl (fun s w => access { kind := .write, addr := w.addr, plot := plot, data := w.data, be := w.be,
                                  what := .wr g w.bytes } s) s

/-- The lock read of an atomic request begins (R527). -/
def startLock (plot job addr : Nat) (s : State) : State :=
  access { kind := .lockRead, addr := addr, plot := plot, what := .lock job } s

/-- The first tag that is neither outstanding nor quarantined (R525, R532). -/
def freeTag (p : MPort) : Nat → Nat → Option Nat
  | 0, _ => none
  | k + 1, t => if (p.tags.lookup t).isNone && !(p.quar.contains t) then some t else freeTag p k (t + 1)

/-- Credits enough to send an access (R524, R527). -/
def maySend (p : MPort) (k : AccKind) : Bool :=
  match k with
  | .read => decide (p.resv < p.oq)
  | .write => decide (p.resv < p.oq) && decide (p.resv < p.od)
  | .lockRead => decide (p.resv + 1 < p.oq) && decide (p.resv < p.od)
  | .unlockWrite => true

/-- The beats that a request drives. -/
def beats (port tag : Nat) (a : Access) : List Output :=
  .oq port tag a.kind a.addr a.plot
    :: (match a.kind with | .write | .unlockWrite => [.od port a.data a.be] | _ => [])

/-- Queued accesses of a port go out while credits and tags last (R524, R525). -/
def pumpPort (port : Nat) : Nat → State → State
  | 0, s => s
  | k + 1, s =>
    let p := s.mp.ports.at port
    match p.queue with
    | [] => s
    | a :: r =>
      match freeTag p 1024 0 with
      | none => s
      | some t =>
        if p.up && maySend p a.kind then
          let s := modPort port (fun p => { p with
            queue := r, tags := (t, { acc := a, since := s.clk }) :: p.tags, oq := p.oq - 1,
            od := if a.kind = .write then p.od - 1 else p.od,
            resv := if a.kind = .lockRead then p.resv + 1 else p.resv }) s
          pumpPort port k { s with outbox := s.outbox ++ beats port t a }
        else s

/-- Every port sends what it can. -/
def pump (s : State) : State :=
  s.mp.ports.foldl (fun s e => pumpPort e.1 e.2.queue.length s) s

/-- The unlock write of a lock read goes out at once on its tag, with the credits kept for it (R527). -/
def sendUnlock (port tag : Nat) (a : Access) (s : State) : State :=
  let s := modPort port (fun p => { p with oq := p.oq - 1, od := p.od - 1, resv := p.resv - 1,
                                           tags := (tag, { acc := a, since := s.clk }) :: p.tags.filter (fun e => e.1 != tag) }) s
  { s with outbox := s.outbox ++ beats port tag a }

/-- The line address that holds a byte. -/
def lineBase (a : Nat) : Nat := a / 128 * 128

/-- Consecutive line addresses. -/
def lineAddrs (a n : Nat) : List Nat := (List.range n).map (fun i => a + 128 * i)

/-- The bytes of a list of lines. -/
def linesBytes (ls : List Line) : List Byte := (ls.map lineBytes).flatten

/-- The writes that put a byte string at an address, line by line with enables; each line counts the
bytes it carries. -/
def bytesWr (a : Nat) (bs : List Byte) : List LineWr :=
  let first := lineBase a
  (List.range (ceilDiv (a + bs.length - first) 128)).map (fun i =>
    let base := first + 128 * i
    let lo := max a base
    let hi := min (a + bs.length) (base + 128)
    let part := (bs.drop (lo - a)).take (hi - lo)
    { addr := base, data := lineOf (List.replicate (lo - base) 0 ++ part),
      be := BitVec.ofNat 128 ((2 ^ (hi - lo) - 1) * 2 ^ (lo - base)), bytes := hi - lo })

end Sys2Proof.Machine
end

