-- ==== Sys2Proof/Machine/LinkOps.lean ====
section
/-! DEFINITION. Lanes and links: wiring, units and codewords, credits, retry, narrowing, what arrives
(R22-R27, R326-R337, R344, R345). -/

namespace Sys2Proof.Machine

/-- The links numbered as the permission table numbers them: is `l` a mesh link of an E64 (R23, R362)? -/
def isMesh (s : State) (l : Nat) : Bool := e64 s && decide (l < 8)

/-- The lanes of a link in ascending lane_index (R23-R26). -/
def linkLanes (s : State) (l : Nat) : List Nat :=
  if e64 s then (if l < 8 then [4 * l, 4 * l + 1, 4 * l + 2, 4 * l + 3] else [24 + l]) else [l]

/-- The link of a lane. -/
def laneLink (s : State) (q : Nat) : Nat := if e64 s then (if q < 32 then q / 4 else q - 24) else q

/-- The port engine of a link (R23-R26). -/
def linkPort (s : State) (l : Nat) : Nat := if e64 s then (if l < 8 then l else 8 + (l - 8) / 4) else l / 4

/-- The lane's index in its port (R314). -/
def laneIndex (s : State) (q : Nat) : Nat := if e64 s ∧ q < 32 then q % 4 else 0

/-- The lane group of a lane. -/
def laneGroup (q : Nat) : Nat := q / 8

/-- The slot of an endpoint on its board (R28). -/
def mySlot (s : State) : Nat := selfNode s % 8
/-- The board of a node. -/
def boardOf (n : Nat) : Nat := n / 8

/-- The mesh link toward a slot of the board (R23). -/
def meshLink (s : State) (slot : Nat) : Nat := (slot + 7 - mySlot s) % 8

/-- The node at the far end of a link under the wiring rule (R23-R26); none for E64 port engine 7. -/
def farNode (s : State) (l : Nat) : Option Nat :=
  if e64 s then
    if l < 7 then some (selfNode s / 8 * 8 + (mySlot s + l + 1) % 8)
    else if l = 7 then none else some (512 + (l - 8))
  else some l

/-- The build and TIE_INST that the far end of a link must send (R27). -/
def farIdentity (s : State) (l : Nat) : Option (Nat × Nat) :=
  (farNode s l).map (fun n => if n < 512 then (1, n) else (2, n - 512))

/-- A link. -/
def getLink (s : State) (l : Nat) : Link := s.lanes.link.at l
/-- A link changed. -/
def modLink (l : Nat) (g : Link → Link) (s : State) : State :=
  { s with lanes := { s.lanes with link := s.lanes.link.mod l g } }
/-- A lane. -/
def getLane (s : State) (q : Nat) : Lane := s.lanes.lane.at q
/-- A lane changed. -/
def modLane (q : Nat) (g : Lane → Lane) (s : State) : State :=
  { s with lanes := { s.lanes with lane := s.lanes.lane.mod q g } }

/-- The link is in service. -/
def linkUp (s : State) (l : Nat) : Bool := (getLink s l).up

/-- The buffer count that a link advertises for a virtual network, in flits (R344). -/
def bufCount (mesh : Bool) (vn : Nat) : Nat :=
  match vn with
  | 0 | 1 | 3 => if mesh then 640 else 320
  | 2 => if mesh then 160 else 0
  | 4 => if mesh then 136 else 0
  | 5 => if mesh then 48 else 24
  | 6 => 8
  | _ => 0

/-- The credits that a packet spends (R331, R345). -/
def pktCredits (p : Packet) : Nat := if p.vn = 4 then 17 else 1 + p.flits

/-- The lanes in service of a link, ascending. -/
def activeLanes (s : State) (l : Nat) : List Nat :=
  (linkLanes s l).filter (fun q => (getLink s l).mask.testBit (laneIndex s q))

/-- The mask that names lanes of a link. -/
def maskOf (s : State) (qs : List Nat) : Nat := qs.foldl (fun m q => m ||| 2 ^ laneIndex s q) 0

/-- A lane fault noted with its lane (R342, R343). -/
def laneFault (q code : Nat) (s : State) : State :=
  note code none .port (q / 4) (modLane q (fun x => { x with lastFault := code }) s)

/-- A counter of a lane's window advanced by `n`, with its wrap flag (R343). -/
def laneCnt (q : Nat) (bit n : Nat) (get : Lane → Word) (put : Lane → Word → Lane) (s : State) : State :=
  modLane q (fun x =>
    let v := (get x).toNat + n
    let y := put x (BitVec.ofNat 32 v)
    if 2 ^ 32 ≤ v then { y with wrap := setBit y.wrap bit true } else y) s

/-- The training control field that a lane sends (R314). -/
def myFrame (s : State) (q : Nat) (last : Bool) : BitVec 96 :=
  let x := getLane s q
  let body := x.preStatus * 2 ^ 7 + x.postStatus * 2 ^ 9
    + (if x.tstate = .align ∨ x.tstate = .check ∨ x.tstate = .up then 2 ^ 11 else 0)
    + last.toNat * 2 ^ 12 + x.precodeRx.toNat * 2 ^ 13 + s.glb.ties.build.toNat * 2 ^ 14
    + s.glb.ties.inst.toNat * 2 ^ 16 + laneIndex s q * 2 ^ 25
    + (if isMesh s (laneLink s q) then 0 else 2 ^ 28)
  BitVec.ofNat 96 (body + (crc16 (leBytes 10 body)).toNat * 2 ^ 80)

/-- A Quiet direction wakes: 200 ns of training frames, the last with last set (R319). -/
def wake (l : Nat) (s : State) : State :=
  if (getLink s l).quietTx then
    let s := (activeLanes s l).foldl (fun s q => emit (.trainFrames q (myFrame s q true)) s) s
    modLink l (fun k => { k with quietTx := false, idleSince := s.clk }) s
  else s

/-- An idle codeword on a lane with a link word entry (R329). -/
def sendWord (q kind arg : Nat) (s : State) : State :=
  let s := wake (laneLink s q) s
  emit (.codeword q (encodePayload { seq := (getLane s q).txSeq, idle := true, kind := kind, arg := arg } [])) s

/-- One unit goes to its lane, which holds it for replay (R326, R332). -/
def sendUnit (l : Nat) (fs : List (BitVec 512)) (s : State) : State :=
  let k := getLink s l
  let ls := activeLanes s l
  match ls[(k.txUnit - k.txU0) % ls.length]? with
  | none => s
  | some q =>
    let x := getLane s q
    let pay := encodePayload { seq := x.txSeq } fs
    let s := modLane q (fun x => { x with
      txSeq := (x.txSeq + 1) % 256,
      held := x.held ++ [{ seq := x.txSeq, unit := some k.txUnit, payload := pay, since := s.clk }] }) s
    emit (.codeword q pay) (modLink l (fun k => { k with txUnit := k.txUnit + 1, idleSince := s.clk }) s)

/-- Flits go out in units of ten (R306). -/
def sendFlits (l : Nat) : Nat → List (BitVec 512) → State → State
  | 0, _, s => s
  | n + 1, fs, s => sendFlits l n (fs.drop 10) (sendUnit l (fs.take 10) s)

/-- A link control flit from entries of four bytes (R330). -/
def ctlFlit (es : List Nat) : BitVec 512 :=
  BitVec.ofNat 512 (1 + es.length * 2 ^ 8 + (es.foldr (fun e a => e + 2 ^ 32 * a) 0) * 2 ^ 32)

/-- Link control entries go out on a link. -/
def sendCtl (l : Nat) (es : List Nat) (s : State) : State :=
  sendFlits l 1 [ctlFlit es] (countSrc 1 (linkPort s l) 1 (wake l s))

/-- Every lane of the link has room in its replay buffer for its share of `n` units (R332). -/
def replayRoom (s : State) (l n : Nat) : Bool :=
  let ls := activeLanes s l
  ls.all (fun q => decide ((getLane s q).held.length + ceilDiv n ls.length ≤ 64))

/-- A packet may go out: the link is up and not narrowing, its credits are there and so is replay room
(R320, R331, R332, R336). -/
def maySendPkt (s : State) (l : Nat) (p : Packet) : Bool :=
  let k := getLink s l
  k.up && k.narrowing.isNone && !k.fallowing && decide (pktCredits p ≤ k.cred.getD p.vn 0)
    && replayRoom s l (ceilDiv (1 + p.flits) 10)

/-- Flit slots of the collective class in the current cap window (R356). -/
def isCollVn (vn : Nat) : Bool := vn == 3 || vn == 4 || vn == 5

/-- A packet leaves on a link as it stands: it spends its credits and its flits go out in units (R326, R331) and count
(R491). -/
def sendAsIs (l : Nat) (p : Packet) (s : State) : State :=
  let s := countSrc 1 (linkPort s l) (1 + p.flits) (wake l s)
  let s := if isCollVn p.vn then countSrc 3 (linkPort s l) (1 + p.flits) s else s
  let s := modLink l (fun k => { k with
    cred := k.cred.set p.vn (k.cred.getD p.vn 0 - pktCredits p),
    collSlots := if isCollVn p.vn then k.collSlots + 1 + p.flits else k.collSlots,
    deficit := k.deficit.set p.vn (k.deficit.getD p.vn 0 - (1 + p.flits)) }) s
  sendFlits l (ceilDiv (1 + p.flits) 10) (packetFlits p) (emit (.packet l p) s)

/-- A Sundial message takes the time at which it leaves: t1 of a sync, t3 of a sync reply (R489; log 90). -/
def stampSun (s : State) (p : Packet) : Packet :=
  if p.kind = 0x60 then
    match p.ar 16 1 with
    | 0x20 => { p with area := setFld p.area 32 64 (s.sun.time % 2 ^ 64) }
    | 0x21 => { p with area := setFld p.area 160 64 (s.sun.time % 2 ^ 64) }
    | _ => p
  else p

/-- A packet that the block forms leaves on a link with its CRC (R322). -/
def sendPkt (l : Nat) (p : Packet) (s : State) : State := sendAsIs l (Packet.sealed (stampSun s p)) s

/-- Credits for a packet taken from a link's buffer go back to the far end (R331). -/
def returnCredits (l vn n : Nat) (s : State) : State :=
  if linkUp s l ∧ 0 < n then
    match activeLanes s l with
    | [] => s
    | q :: _ => sendWord q 3 (vn + (n % 32) * 8) s
  else s

/-- The packet at the head of a link's buffer for a virtual network leaves it. -/
def takePkt (l : Nat) (p : Packet) (s : State) : State :=
  let s := modLink l (fun k => { k with inq := k.inq.set p.vn ((k.inq.getD p.vn []).drop 1) }) s
  returnCredits l p.vn (pktCredits p) s

/-- The packet stands at the head of a link's buffer for its virtual network. -/
def atHead (s : State) (l : Nat) (p : Packet) : Bool :=
  (((getLink s l).inq.getD p.vn []).head?) == some p

/-- A VN2 packet that no endpoint takes: its path_vn is neither 1 nor 3, or it comes from an uplink (R353). -/
def vn2Bad (s : State) (l : Nat) (p : Packet) : Bool := p.vn == 2 && (!(p.pathVn == 1 || p.pathVn == 3) || !isMesh s l)

/-- The kinds and virtual networks listed together in R323; a board-forward hop carries VN1 and VN3
packets on VN2. -/
def kindVnOk (kind vn pathVn : Nat) : Bool :=
  let home : Nat → Bool := fun v =>
    if kind ∈ [0x10, 0x11, 0x12, 0x13, 0x14, 0x15, 0x16, 0x17, 0x18] then v == 0
    else if kind ∈ [0x20, 0x21, 0x22, 0x23, 0x24, 0x25, 0x26, 0x27] then v == 1
    else if kind ∈ [0x30, 0x33, 0x35, 0x36, 0x37, 0x38, 0x39, 0x3A, 0x3B, 0x3C] then v == 3
    else if kind = 0x31 then v == 3 || v == 5
    else if kind = 0x32 ∨ kind = 0x34 then v == 3 || v == 4
    else if kind ∈ [0x50, 0x51, 0x52, 0x53] then v == 5
    else if kind ∈ [0x60, 0x61, 0x62] then v == 6
    else false
  if vn = 2 then home pathVn || decide (pathVn ≠ 1 ∧ pathVn ≠ 3) else home vn

/-- A link goes down or comes up: the rest of the block hears of it (R337). -/
def linkEvt (e : LinkEvt) (s : State) : State := { s with lanes := { s.lanes with evts := s.lanes.evts ++ [e] } }

/-- The state is a step of training (R315). -/
def TState.training (t : TState) : Bool :=
  match t with
  | .detect | .acquire | .coeff | .align | .check => true
  | .down | .up | .test | .held => false

/-- The lane groups that run full training (R317); a lane whose far end is missing runs none. -/
def fullGroups (s : State) : List Nat :=
  ((s.lanes.lane.filter (fun e => e.2.full && !e.2.wait && !e.2.noFar && e.2.tstate.training)).map (fun e => laneGroup e.1)).eraseDups

/-- A full training of the lane must wait for its batch (R317). -/
def mustWait (s : State) (q : Nat) : Bool :=
  !(fullGroups s).contains (laneGroup q) && decide (s.lanes.trainBatch ≤ (fullGroups s).length)

/-- The waiting lane groups begin, in ascending order, while the batch has room (R317). -/
def promote : Nat → State → State
  | 0, s => s
  | n + 1, s =>
    match (s.lanes.lane.filter (fun e => e.2.wait)).head? with
    | none => s
    | some e =>
      if mustWait s e.1 then s
      else promote n { s with lanes := { s.lanes with lane := s.lanes.lane.mapVals (fun q x =>
        if laneGroup q = laneGroup e.1 ∧ x.wait then { x with wait := false, stepSince := s.clk } else x) } }

/-- A lane leaves service and what it holds; its training, if `t` is a step of it, begins on the stored path where that is
valid (R315, R317, R335, R336). An eye scan of the lane stops (R338). -/
def laneOut (q : Nat) (t : TState) (s : State) : State :=
  let s := promote 8 (modLane q (fun x => { x with
    tstate := .down, inPort := false, rxSeq := 0, txSeq := 0, nakOut := false,
    badRun := 0, discardTill := none, ackWaits := 0, merge := [], stepSince := s.clk, full := !x.stored, wait := false,
    seenFar := false, noFar := false, frames := 0, checkBad := false, checkCorr := 0, idOk := false,
    preStatus := 0, postStatus := 0 }) s)
  let s := modLane q (fun x => { x with
    tstate := t, wait := t.training && x.full && mustWait s q,
    trainsStarted := if t.training then satInc 65535 x.trainsStarted else x.trainsStarted }) s
  let g := laneGroup q
  let e := s.lanes.escan.at g
  if e.busy && e.lane == q % 8 then
    { s with lanes := { s.lanes with escan := s.lanes.escan.set g { e with busy := false, aborted := true } } }
  else s

/-- A port has no lane in service: what its link holds is gone (R337). -/
def portOff (l : Nat) (s : State) : State :=
  let s := (linkLanes s l).foldl (fun s q => modLane q (fun x => { x with held := [] }) s) s
  linkEvt (.down l) (modLink l (fun k => { k with
    up := false, mask := 0, quietTx := false, quietRx := false, cred := [], rxPart := none, narrowing := none,
    txUnit := 0, txU0 := 0, rxUnit := 0, rxU0 := 0, collSlots := 0, deficit := [] }) s)

/-- The last lane of a port is lost: the port goes down with fault 0x531 (R337). -/
def portDown (l : Nat) (s : State) : State := portOff l (note 0x531 none .port (linkPort s l) s)

/-- The narrow entry of an end: a lane mask, an epoch and its units delivered (R330, R336). -/
def narrowCtl (k : Link) (mask epoch : Nat) : BitVec 512 := ctlFlit [5 + (mask + epoch * 16) * 2 ^ 8 + (k.rxUnit % 2 ^ 16) * 2 ^ 16]

/-- A narrow entry goes out on a lane in a codeword that is held for replay, in place of an older one (R332, R334, R336; log 44). -/
def sendNarrow (q mask epoch : Nat) (s : State) : State :=
  let x := getLane s q
  let pay := encodePayload { seq := x.txSeq } [narrowCtl (getLink s (laneLink s q)) mask epoch]
  emit (.codeword q pay) (modLane q (fun x => { x with
    txSeq := (x.txSeq + 1) % 256, discardTill := some epoch, rxSeq := 0, nakOut := false, merge := [],
    held := x.held.filter (fun h => h.unit.isSome) ++ [{ seq := x.txSeq, unit := none, payload := pay, since := s.clk }] }) s)

/-- An end names a new lane mask: it sends the narrow entry on every lane of that mask, restarts seqs and
awaits the far end's entry (R336). -/
def startNarrow (l mask epoch : Nat) (s : State) : State :=
  let k := getLink s l
  let qs := (linkLanes s l).filter (fun q => mask.testBit (laneIndex s q))
  let (w, wrapped) := wrapInc k.narrowCnt
  let s := modLink l (fun k => { k with narrowing := some (mask, epoch), narrowCnt := w,
                                        narrowWrap := k.narrowWrap || wrapped }) s
  qs.foldl (fun s q => sendNarrow q mask epoch s) (wake l s)

/-- The mask that a further change of lanes starts from, and its epoch: one during a narrowing starts a new narrowing (R336,
R337). -/
def nextNarrow (k : Link) : Nat × Nat :=
  match k.narrowing with
  | some (m, e) => (m, (e + 1) % 16)
  | none => (k.mask, (k.epoch + 1) % 16)

/-- A lane goes down with a code, or with none: its port narrows or goes down (R335, R336, R337). -/
def laneDown (q code : Nat) (t : TState) (s : State) : State :=
  let l := laneLink s q
  let was := (getLane s q).inPort
  let s := if code = 0 then s else laneFault q code s
  let s := laneOut q t s
  if was then
    let (m, e) := nextNarrow (getLink s l)
    let m := m &&& (15 - 2 ^ laneIndex s q)
    if m = 0 then portDown l s else startNarrow l m e (note 0x530 none .port (linkPort s l) s)
  else modLane q (fun x => { x with held := [] }) s

/-- Internal retraining of a link's lanes on the stored path (R321, R331, R335). -/
def retrainLink (l : Nat) (s : State) : State :=
  (linkLanes s l).foldl (fun s q => if (getLane s q).inPort then laneDown q 0 .detect s else s) s

/-- The units held for replay from unit `d` on, as flits in unit order (R336). -/
def heldFlits (s : State) (l d : Nat) : List (BitVec 512) :=
  let hs := ((linkLanes s l).map (fun q => (getLane s q).held)).flatten
  let n := (getLink s l).txUnit
  (((List.range (n - d)).map (fun i => (hs.filter (fun h => h.unit == some (d + i))).map (fun h => payloadFlits h.payload))).flatten).flatten

/-- The far count of a narrowing, brought to this end's unit numbers (R336). -/
def farCount (txUnit d : Nat) : Nat := txUnit - (txUnit + 2 ^ 16 - d % 2 ^ 16) % 2 ^ 16

/-- A narrowing ends at this end: units from `d` on go out again on the new lanes, each lane's first
codeword beginning with a restart entry (R336). -/
def finishNarrow (l mask epoch d : Nat) (s : State) : State :=
  let k := getLink s l
  let d' := farCount k.txUnit d
  let fs := heldFlits s l d'
  let s := (linkLanes s l).foldl (fun s q => modLane q (fun x => { x with
    held := [], txSeq := 0, ackWaits := 0,
    inPort := mask.testBit (laneIndex s q) }) s) s
  let s := modLink l (fun k => { k with mask := mask, epoch := epoch, narrowing := none, txUnit := d', txU0 := d',
                                        rxU0 := k.rxUnit }) s
  let n := (activeLanes s l).length
  let heads := (List.range n).map (fun i => ctlFlit [6 + epoch * 16 * 2 ^ 8] :: ((fs.drop (9 * i)).take 9))
  let s := heads.foldl (fun s h => sendUnit l h s) s
  let rest := fs.drop (9 * n)
  sendFlits l (ceilDiv rest.length 10) rest s

/-- The far end's lane mask in this end's lane indices (R314, R317). -/
def ownMask (s : State) (l m : Nat) : Nat :=
  maskOf s ((linkLanes s l).filter (fun q => (getLane s q).tstate == .up && m.testBit (getLane s q).farIndex))

/-- A narrow entry arrives, in a replay or not: it ends the narrowing that this end awaits, starts one, or, as a replay of the last
one, shows that this end's entry was lost and brings it again (R334, R336; log 44). -/
def takeNarrow (l m epoch d : Nat) (replay : Bool) (s : State) : State :=
  let k := getLink s l
  let join := fun (mine : Nat) (s : State) =>
    let nm := mine &&& ownMask s l m
    if nm = 0 then s
    else
      let s := if nm < k.mask then note 0x530 none .port (linkPort s l) s else s
      finishNarrow l nm epoch d (startNarrow l nm epoch s)
  match k.narrowing with
  | some (mine, e) =>
    if e = epoch then finishNarrow l (mine &&& ownMask s l m) epoch d s
    else if epoch = (e + 1) % 16 then join mine s
    else s
  | none =>
    if epoch = (k.epoch + 1) % 16 then join 15 s
    else if replay && epoch == k.epoch then
      (activeLanes s l).foldl (fun s q =>
        emit (.codeword q (encodePayload { seq := (getLane s q).txSeq } [narrowCtl k k.mask epoch])) s) (wake l s)
    else s

/-- An ack releases held codewords up to its seq (R333). -/
def takeAck (q sq : Nat) (s : State) : State :=
  modLane q (fun x =>
    if x.held.any (fun h => h.seq == sq) then
      { x with held := (x.held.dropWhile (fun h => h.seq != sq)).drop 1, ackWaits := 0 }
    else x) s

/-- Held codewords go out again with replay set (R334). -/
def resend (q : Nat) (hs : List HeldCw) (s : State) : State :=
  let s := laneCnt q 3 hs.length (·.replayCnt) (fun x v => { x with replayCnt := v }) s
  hs.foldl (fun s h => emit (.codeword q (setPayloadWord h.payload { seq := h.seq, replay := true })) s) s

/-- Everything held from an entry on is resent, or the lane goes down at its eighth send (R334, R335). -/
def resendFrom (q sq : Nat) (s : State) : State :=
  let x := getLane s q
  let keep := x.held.takeWhile (fun h => h.seq != sq)
  let again := x.held.dropWhile (fun h => h.seq != sq)
  if again.any (fun h => decide (8 ≤ h.sends)) then laneDown q 0x511 .detect s
  else
    let s := modLane q (fun x => { x with held := keep ++ again.map (fun h => { h with sends := h.sends + 1, since := s.clk }) }) s
    resend q again s

/-- A NAK for a seq that is held resends from it (R334). -/
def takeNak (q sq : Nat) (s : State) : State :=
  if (getLane s q).held.any (fun h => h.seq == sq) then resendFrom q sq s else s

/-- A credit return (R331). -/
def takeCredit (l vn n : Nat) (s : State) : State :=
  if 7 ≤ vn then retrainLink l (note 0x541 none .port (linkPort s l) s)
  else
    let c := (getLink s l).cred.getD vn 0 + n
    if bufCount (isMesh s l) vn < c then retrainLink l (note 0x542 none .port (linkPort s l) s)
    else modLink l (fun k => { k with cred := k.cred.set vn c }) s

/-- The lane of a link with a far lane index, for entries that name the far end's lane (R330). -/
def laneOfFar (s : State) (l i : Nat) : Nat :=
  match (linkLanes s l).filter (fun q => (getLane s q).farIndex == i) with
  | q :: _ => q
  | [] => (linkLanes s l).headD 0

/-- One entry of a link control flit (R330). -/
def ctlEntry (l : Nat) (e : BitVec 32) (replay : Bool) (s : State) : State :=
  let b1 := fld e 8 8
  let v := fld e 16 16
  match fld e 0 8 with
  | 0x01 => takeAck (laneOfFar s l (b1 % 4)) (v % 256) s
  | 0x02 => takeNak (laneOfFar s l (b1 % 4)) (v % 256) s
  | 0x03 => takeCredit l (b1 % 8) v s
  | 0x04 => modLink l (fun k => { k with quietRx := true }) s
  | 0x05 => takeNarrow l (b1 % 16) (b1 / 16) v replay s
  | 0x06 => s
  | _ => note 0x541 none .port (linkPort s l) s

/-- The entries of a link control flit (R330). -/
def ctlEntries (f : BitVec 512) : List (BitVec 32) :=
  (List.range (min (fld f 8 8) 15)).map (fun i => f.extractLsb' (32 + 32 * i) 32)

/-- A packet whose flits have all arrived joins its buffer, or is refused (R323, R345). -/
def enqueuePkt (l : Nat) (p : Packet) (s : State) : State :=
  if kindVnOk p.kind p.vn p.pathVn && !(p.vn == 6 && p.flits != 0) then
    modLink l (fun k => { k with inq := k.inq.set p.vn (k.inq.getD p.vn [] ++ [p]) }) s
  else returnCredits l p.vn (pktCredits p) (note 0x541 none .port (linkPort s l) s)

/-- The flits of an accepted unit in order (R321, R327). -/
def takeFlits (l : Nat) : List (BitVec 512) → State → State
  | [], s => s
  | f :: r, s =>
    let s := if fld f 0 8 = 0 ∧ (getLink s l).rxPart.isNone then s else countSrc 2 (linkPort s l) 1 s
    match (getLink s l).rxPart with
    | some (p, n) =>
      let p := { p with payload := p.payload ++ [f] }
      let s := modLink l (fun k => { k with rxPart := if n ≤ 1 then none else some (p, n - 1) }) s
      takeFlits l r (if n ≤ 1 then enqueuePkt l p s else s)
    | none =>
      match fld f 0 8 with
      | 0 => takeFlits l r s
      | 1 => takeFlits l r ((ctlEntries f).foldl (fun s e => ctlEntry l e false s) s)
      | 2 =>
        let p := decodeHeader f
        if p.flits = 0 then takeFlits l r (enqueuePkt l p s)
        else takeFlits l r (modLink l (fun k => { k with rxPart := some (p, p.flits) }) s)
      | _ => retrainLink l (note 0x541 none .port (linkPort s l) s)

/-- The lane that carries the next unit to take, by the far end's lane order (R326). -/
def nextLane (s : State) (l : Nat) : Option Nat :=
  let k := getLink s l
  let qs := (List.range 4).filterMap (fun i =>
    ((activeLanes s l).filter (fun q => (getLane s q).farIndex == i)).head?)
  qs[(k.rxUnit - k.rxU0) % qs.length]?

/-- Units leave the merge buffers in unit order and each is acknowledged, while no narrowing is under way (R326, R333, R336). -/
def deliver (l : Nat) : Nat → State → State
  | 0, s => s
  | n + 1, s =>
    match (if (getLink s l).narrowing.isSome then none else nextLane s l) with
    | none => s
    | some q =>
      match (getLane s q).merge with
      | [] => s
      | p :: r =>
        let s := modLane q (fun x => { x with merge := r }) s
        let s := modLink l (fun k => { k with rxUnit := k.rxUnit + 1 }) s
        let s := sendWord q 1 (payloadWord p).seq s
        deliver l n (takeFlits l (payloadFlits p) s)

/-- The entry of a link word takes effect (R329). -/
def useWord (q : Nat) (w : LinkWord) (s : State) : State :=
  match w.kind with
  | 1 => takeAck q w.arg s
  | 2 => takeNak q w.arg s
  | 3 => takeCredit (laneLink s q) (w.arg % 8) (if w.arg / 8 = 0 then 32 else w.arg / 8) s
  | _ => s

/-- The codeword carries a restart entry of an epoch in its first flit (R336). -/
def hasRestart (p : BitVec 5140) (epoch : Nat) : Bool :=
  let f := payloadFlit p 0
  fld f 0 8 == 1 && (ctlEntries f).any (fun e => fld e 0 8 == 6 && fld e 12 4 == epoch)

/-- The codeword carries a narrow entry in its first flit: it is read whatever the lane's seq, since
every surviving lane sends it while seqs restart (R336; log 44). -/
def narrowEntry (p : BitVec 5140) : Option (BitVec 32) :=
  let f := payloadFlit p 0
  if fld f 0 8 = 1 then (ctlEntries f).find? (fun e => fld e 0 8 == 5) else none

/-- A codeword arrives on a lane in its port (R333, R336). -/
def takeCodeword (q : Nat) (cw : Codeword) (s : State) : State :=
  let l := laneLink s q
  let s := laneCnt q 0 cw.innerCorr (·.innerCorr) (fun x v => { x with innerCorr := v }) s
  let s := laneCnt q 1 cw.rsCorr (·.rsCorr) (fun x v => { x with rsCorr := v }) s
  match cw.payload with
  | none =>
    let s := laneCnt q 2 1 (·.rsUncorr) (fun x v => { x with rsUncorr := v }) s
    let s := modLane q (fun x => { x with badRun := x.badRun + 1, checkBad := true }) s
    if !(getLane s q).inPort then s
    else if 8 ≤ (getLane s q).badRun then laneDown q 0x510 .detect s
    else if (getLane s q).nakOut then s
    else
      let s := laneCnt q 4 1 (·.nakCnt) (fun x v => { x with nakCnt := v }) s
      sendWord q 2 (getLane s q).rxSeq (modLane q (fun x => { x with nakOut := true }) s)
  | some p =>
    let s := modLane q (fun x => { x with badRun := 0 }) s
    let x := getLane s q
    let w := payloadWord p
    if !x.inPort then s
    else
      let s := modLink l (fun k => { k with quietRx := false }) s
      if w.idle then (if x.discardTill.isSome then s else useWord q w s)
      else match narrowEntry p with
        | some e => deliver l 256 (ctlEntry l e w.replay s)
        | none =>
          match x.discardTill with
          | some ep =>
            if hasRestart p ep ∧ w.seq = 0 then
              deliver l 256 (useWord q w (modLane q (fun x => { x with discardTill := none, rxSeq := 1, merge := [p] }) s))
            else s
          | none =>
            if w.seq = x.rxSeq then
              let s := modLane q (fun x => { x with rxSeq := (x.rxSeq + 1) % 256, nakOut := false, merge := x.merge ++ [p] }) s
              deliver l 256 (useWord q w s)
            else s

/-- A lane joins its port: alone it brings the port up, else the port takes the wider mask (R315, R337). -/
def joinPort (q : Nat) (s : State) : State :=
  let l := laneLink s q
  let s := modLane q (fun x => { x with inPort := true, rxSeq := 0, txSeq := 0, held := [], merge := [],
                                        nakOut := false, badRun := 0, discardTill := none }) s
  let k := getLink s l
  let bit := 2 ^ laneIndex s q
  if k.up then startNarrow l ((nextNarrow k).1 ||| bit) (nextNarrow k).2 s
  else
    let s := modLink l (fun k => { k with up := true, mask := bit, epoch := 0, txUnit := 0, txU0 := 0, rxUnit := 0,
                                          rxU0 := 0, idleSince := s.clk, windowSince := s.clk, collSlots := 0 }) s
    let es := (List.range 7).map (fun v => 3 + v * 2 ^ 8 + bufCount (isMesh s l) v * 2 ^ 16)
    linkEvt (.up l) (sendCtl l es s)

end Sys2Proof.Machine
end

