-- ==== Sys2Proof/Machine/Routing.lean ====
section
/-! DEFINITION. Paths: the spray set, spraying weights, row-channel planes and the choice of a link (R129,
R159, R346-R358). -/

namespace Sys2Proof.Machine

/-- The live Trellis bank (R363). -/
def liveBank (s : State) : Bank := if s.trl.live then s.trl.bankB else s.trl.bankA

/-- The route entry of a destination endpoint (R362). -/
def routeEntry (s : State) (d : Nat) : Word := (liveBank s).route.getD d 0

/-- The reach entry of a destination endpoint: all ones after a start (R347, R374). -/
def reachEntry (s : State) (d : Nat) : Word := s.trl.reach.getD d 0xFFFFFFFF

/-- The peer table's uplink live mask of a board slot (R353, R374). -/
def peerMask (s : State) (slot : Nat) : Word := s.trl.peer.getD slot 0xFFFFFFFF

/-- The link of uplink `p` on E64 (R362). -/
def uplink (p : Nat) : Nat := 8 + p

/-- The uplink live mask of this endpoint. -/
def upMask (s : State) : Nat := (List.range 32).foldl (fun m p => if linkUp s (uplink p) then m + 2 ^ p else m) 0

/-- The spray set toward an endpoint (R346). -/
def spraySet (s : State) (d : Nat) : List Nat :=
  (List.range 32).filter (fun p => bitAt (routeEntry s d) p && bitAt (reachEntry s d) p && linkUp s (uplink p))

/-- The key of a (destination, plane) pair. -/
def pairKey (d p : Nat) : Nat := 32 * d + p

/-- The hint level of a (destination, plane) pair (R358). -/
def hintLevel (s : State) (d p : Nat) : Nat := (s.trl.level.at (pairKey d p)).1

/-- The own uplink VN0 level of a plane (R358). -/
def ownLevel (s : State) (p : Nat) : Nat := min 7 (8 * (320 - (getLink s (uplink p)).cred.getD 0 0) / 320)

/-- The weight of a plane toward a destination (R358). -/
def weight (s : State) (d p : Nat) : Nat := 8 - max (hintLevel s d p) (ownLevel s p)

/-- The plane with the largest counter, the lower one on a tie (R358). -/
def bestPlane (cur : Tbl Int) (d : Nat) : List Nat → Option Nat
  | [] => none
  | p :: r =>
    match bestPlane cur d r with
    | none => some p
    | some q => if cur.getD (pairKey d p) 0 < cur.getD (pairKey d q) 0 then some q else some p

/-- The counters after each plane of the set has gained its weight (R358). -/
def addWeights (s : State) (d : Nat) : List Nat → Tbl Int → Tbl Int
  | [], cur => cur
  | p :: r, cur => addWeights s d r (cur.set (pairKey d p) (cur.getD (pairKey d p) 0 + weight s d p))

/-- The plane of the next counted packet and the counters it leaves (R358). -/
def sprayChoice (s : State) (d : Nat) : Option (Nat × Tbl Int) :=
  let set := spraySet s d
  let cur := addWeights s d set s.trl.cur
  (bestPlane cur d set).map (fun p =>
    (p, cur.set (pairKey d p) (cur.getD (pairKey d p) 0 - ((set.map (weight s d)).sum : Nat))))

/-- The plane of a row channel (R351). -/
def rowPlane (s : State) (src dst c : Nat) : Option Nat :=
  let set := spraySet s dst
  set[(37 * src + 11 * dst + 5 * c) % 1024 % set.length]?

/-- The nodes lie on one board. -/
def sameBoard (s : State) (d : Nat) : Bool := e64 s && decide (d < 512) && boardOf d == boardOf (selfNode s)

/-- The far slot's mesh link is in service (R159). -/
def meshUp (s : State) (d : Nat) : Bool := sameBoard s d && d != selfNode s && linkUp s (meshLink s (d % 8))

/-- An S512's downlink to an endpoint is up and enabled (R160, R348, R362). -/
def downlinkOk (s : State) (d : Nat) : Bool := linkUp s d && bitAt (routeEntry s d) 0

/-- The link of a packet to a node, for a counted packet or a row channel, and the spray counters it
leaves; none when no path stands (R159, R349, R350). -/
def choosePath (s : State) (d : Nat) (row : Option Nat) : Option (Nat × Tbl Int) :=
  if e64 s then
    if 512 ≤ d then (if linkUp s (uplink (d - 512)) then some (uplink (d - 512), s.trl.cur) else none)
    else if meshUp s d then some (meshLink s (d % 8), s.trl.cur)
    else match row with
      | some c => (rowPlane s (selfNode s) d c).map (fun p => (uplink p, s.trl.cur))
      | none => (sprayChoice s d).map (fun x => (uplink x.1, x.2))
  else if d < 512 ∧ downlinkOk s d then some (d, s.trl.cur) else none

/-- The forwarding peer of an endpoint of a board for a plane (R352): entry `c mod m` of the ascending
slots whose link to the plane is up and whose mesh link to the endpoint is up. -/
def forwardPeer (slots : List Nat) (c : Nat) : Option Nat := slots[c % slots.length]?

/-- At an E64 whose uplink to `p` is down: the slots that may forward up for it. -/
def upPeers (s : State) (p : Nat) : List Nat :=
  (List.range 8).filter (fun j => j != mySlot s && bitAt (peerMask s j) p && linkUp s (meshLink s j))

/-- The packet's chunk field (R324). -/
def pktChunk (p : Packet) : Nat := p.ar 24 4

/-- At a plane whose downlink to `e` is down: the slots of `e`'s board whose link to the plane is up. Whether
a peer's mesh link to `e` is up no rule tells the plane; it counts on it (R352; log 45). -/
def downPeers (s : State) (e : Nat) : List Nat :=
  (List.range 8).filter (fun j => j != e % 8 && linkUp s (e / 8 * 8 + j))

/-- The link of a collective packet to a plane or an endpoint, and the packet as it goes: on its own link, the long way round
the board ring on VN4 (R207), or on VN2 through a forwarding peer (R352). A plane's collective acknowledgements go down as its
step-abort notices do: without them no step of that member would complete (R203, R443; log 98). -/
def collPath (s : State) (p : Packet) : Option (Nat × Packet) :=
  if e64 s then
    if 512 ≤ p.dst then
      let pl := p.dst - 512
      if linkUp s (uplink pl) then some (uplink pl, p)
      else if p.vn = 3 ∨ p.kind = 0x27 then
        (forwardPeer (upPeers s pl) (pktChunk p)).map (fun j => (meshLink s j, { p with vn := 2, pathVn := p.vn }))
      else none
    else if meshUp s p.dst then some (meshLink s (p.dst % 8), p)
    else if p.vn = 4 ∧ p.dst ≠ selfNode s ∧ linkUp s 0 then some (0, p) else none
  else if linkUp s p.dst then some (p.dst, p)
  else if p.vn = 3 ∨ p.kind = 0x26 ∨ p.kind = 0x27 then
    (forwardPeer (downPeers s p.dst) (pktChunk p)).map (fun j => (p.dst / 8 * 8 + j, p))
  else none

end Sys2Proof.Machine
end

