-- ==== Sys2Proof/Machine/Send.lean ====
section
/-! DEFINITION. The packets that a block forms: headers, numbering, reservations and sending (R158, R161,
R164, R322, R355, R356, R434, R435). -/

namespace Sys2Proof.Machine

/-- The row-channel key of a destination (or source) node and a channel. -/
def rowKey (n c : Nat) : Nat := 8 * n + c

/-- A packet of a plot to a node, without its sequence number (R158, R322). -/
def mkPkt (s : State) (plot dst kind vn : Nat) (row : Option Nat) (area : BitVec 352)
    (payload : List (BitVec 512)) : Packet :=
  { kind := kind, vn := vn, pathVn := vn, row := row.isSome, flits := payload.length,
    rowCh := row.getD 0, key := (getPlot s plot).key, gen := (getPlot s plot).gen, src := selfNode s,
    dst := dst, area := area, payload := payload }

/-- The next number of a VN0 request to a node (R434). -/
def nextSeq (s : State) (p : Packet) : Nat :=
  if p.row then s.xfer.rowCtr.getD (rowKey p.dst p.rowCh) 0 else s.xfer.ctr.getD p.dst 0

/-- The counters after a VN0 request (R434). -/
def bumpSeq (p : Packet) (s : State) : State :=
  let n := (nextSeq s p + 1) % 2 ^ 32
  if p.row then { s with xfer := { s.xfer with rowCtr := s.xfer.rowCtr.set (rowKey p.dst p.rowCh) n } }
  else { s with xfer := { s.xfer with ctr := s.xfer.ctr.set p.dst n } }

/-- A packet joins the send queue. -/
def pushRq (r : Rq) (s : State) : State :=
  { s with xfer := { s.xfer with rqs := s.xfer.rqs ++ [(s.xfer.nextId, r)], nextId := s.xfer.nextId + 1 } }

/-- A VN0 request is numbered and joins the send queue (R434). -/
def queueReq (r : Rq) (s : State) : State :=
  pushRq { r with pkt := { r.pkt with seq := nextSeq s r.pkt } } (bumpSeq r.pkt s)

/-- A reply joins the send queue with its request's number (R434). -/
def queueReply (p : Packet) (board : Bool) (s : State) : State :=
  pushRq { pkt := p, who := if board then .bwReply else .reply } s

/-- A packet of the send queue or outstanding changed. -/
def modRq (id : Nat) (g : Rq → Rq) (s : State) : State :=
  { s with xfer := { s.xfer with rqs := s.xfer.rqs.map (fun e => if e.1 = id then (e.1, g e.2) else e) } }

/-- A packet leaves the block's books: its reservations are free (R163). -/
def dropRq (id : Nat) (s : State) : State :=
  { s with xfer := { s.xfer with rqs := s.xfer.rqs.filter (fun e => e.1 != id) } }

/-- A packet of the books. -/
def getRq (s : State) (id : Nat) : Option Rq := s.xfer.rqs.lookup id

/-- The packet is a request that an answer ends. -/
def Rq.isReq (r : Rq) : Bool :=
  match r.who with
  | .reply | .bwReply | .once => false
  | _ => true

/-- Bytes of the reply pool reserved (R161, R183). -/
def poolUsed (s : State) : Nat := ((s.xfer.rqs.filter (fun e => e.2.sent)).map (fun e => e.2.reply)).sum

/-- Acknowledgement slots reserved (R161, R183). -/
def ackUsed (s : State) : Nat := (s.xfer.rqs.filter (fun e => e.2.sent && e.2.ack)).length

/-- The reply pool in bytes (R161). -/
def poolSize (s : State) : Nat := if e64 s then 4 * 2 ^ 20 else 2 ^ 20
/-- The acknowledgement slots (R161). -/
def ackSlots (s : State) : Nat := if e64 s then 8192 else 4096

/-- Room is there for every reply of a request (R161). -/
def roomFor (s : State) (r : Rq) : Bool :=
  decide (poolUsed s + r.reply ≤ poolSize s) && (!r.ack || decide (ackUsed s < ackSlots s))

/-- The packet is on the same channel: the same row channel, or both counted toward one node. -/
def sameChannel (a b : Packet) : Bool :=
  a.dst == b.dst && a.row == b.row && a.rowCh == b.rowCh && a.vn == b.vn

/-- A VN0 request may be sent under the limits of its channel (R130, R435, R438). -/
def windowOk (s : State) (r : Rq) : Bool :=
  let others := (s.xfer.rqs.filter (fun e => e.2.isReq && e.2.pkt.vn == 0 && sameChannel e.2.pkt r.pkt)).map (fun e => e.2)
  if r.pkt.row then
    others.all (fun o => o.sent || seqDist r.pkt.seq o.pkt.seq < 2 ^ 31)
      && decide ((others.filter (fun o => o.sent)).length < 256)
      && !(others.any (fun o => o.busy))
  else
    others.all (fun o => !(seqDist o.pkt.seq r.pkt.seq ≥ 4096 && seqDist o.pkt.seq r.pkt.seq < 2 ^ 31))
      && (if r.pkt.kind = 0x15 ∨ r.pkt.kind = 0x16 then
            decide ((others.filter (fun o => o.sent && (o.pkt.kind == 0x15 || o.pkt.kind == 0x16))).length < 64)
          else true)

/-- The packet is write data that this home sends for a copy request (R170): it answers an inbound request. -/
def ofCopyJob (s : State) (r : Rq) : Bool :=
  match r.who with
  | .seg id _ => (match s.xfer.segs.lookup id with | some g => (match g.owner with | .job _ => true | _ => false) | none => false)
  | _ => false

/-- The block may start this packet: replies and VN6 always; the rest not under L3, Safe, a reset or a drain, which lets the
write data of a copy request go on (R366, R421, R427). -/
def mayStart (s : State) (r : Rq) : Bool :=
  !s.flt.safe && (r.pkt.vn == 6 || r.who == .reply || r.who == .bwReply || r.pkt.kind == 0x26 || r.pkt.kind == 0x27
    || (!stopped s && (!s.trl.drain || ofCopyJob s r)))

/-- A VN4 packet enters the board ring only into two free buffers of the next hop (R208). -/
def mayEnter (s : State) (l : Nat) (p : Packet) : Bool :=
  p.vn != 4 || meshUp s p.dst || decide (34 ≤ (getLink s l).cred.getD 4 0)

/-- The weight of a virtual network (R376). -/
def vnWeight (s : State) (vn : Nat) : Nat := fld s.trl.arb (4 * vn) 4

/-- The class of a packet at the arbiter of R355: 0 is VN5 under the cap, 1 the rest of the collective class
under the cap, 2 the weighted round robin. -/
def arbClass (s : State) (l : Nat) (p : Packet) : Nat :=
  if isCollVn p.vn ∧ (getLink s l).collSlots < 614 then (if p.vn = 5 then 0 else 1) else 2

/-- The path that a queued packet would take now, and the packet as it goes. -/
def pathOf (s : State) (r : Rq) : Option (Nat × Packet × Tbl Int) :=
  let p := { r.pkt with replay := r.again }
  match r.who with
  | .bwLoad _ | .bwStore _ | .bwReply =>
    if meshUp s p.dst then some (meshLink s (p.dst % 8), p, s.trl.cur) else none
  | _ =>
    if isCollVn p.vn ∨ p.kind = 0x26 ∨ p.kind = 0x27 then (collPath s p).map (fun x => (x.1, x.2, s.trl.cur))
    else if p.vn = 6 ∧ sameBoard s p.dst then
      (if meshUp s p.dst then some (meshLink s (p.dst % 8), p, s.trl.cur) else none)
    else (choosePath s p.dst (if p.row then some p.rowCh else none)).map (fun x => (x.1, p, x.2))

/-- Another sent packet awaits an acknowledgement that could not be told from this one's. -/
def collTwin (s : State) (id : Nat) (r : Rq) : Bool :=
  isCollVn r.pkt.vn && r.isReq && s.xfer.rqs.any (fun e => e.1 != id && e.2.sent && e.2.isReq && isCollVn e.2.pkt.vn
    && e.2.pkt.dst == r.pkt.dst && fld e.2.pkt.area 0 128 == fld r.pkt.area 0 128)

/-- A queued packet may leave, as far as its channel and the reservations of its block go (R130, R161, R200, R435). -/
def mayGo (s : State) (id : Nat) (r : Rq) : Bool :=
  !r.sent && !r.busy && mayStart s r && !collTwin s id r && windowOk s r && roomFor s r

/-- Another queued packet goes before this one on the link (R355). -/
def outranked (s : State) (id l : Nat) (p : Packet) : Bool :=
  let mine := arbClass s l p
  let waiting := (s.xfer.rqs.filter (fun e => e.1 != id && mayGo s e.1 e.2)).filterMap (fun e =>
    match pathOf s e.2 with
    | some (l', p', _) => if l' = l ∧ maySendPkt s l p' ∧ mayEnter s l p' then some p' else none
    | none => none)
  let room := fun q : Packet => decide (1 + q.flits ≤ (getLink s l).deficit.getD q.vn 0)
  waiting.any (fun q => decide (arbClass s l q < mine) && decide (arbClass s l q < 2))
    || (mine != 0 && !room p && waiting.any (fun q => arbClass s l q == mine && room q))

/-- A round of the weighted round robin begins when no waiting packet has deficit left (R355). -/
def freshRound (l : Nat) (p : Packet) (s : State) : State :=
  if 1 + p.flits ≤ (getLink s l).deficit.getD p.vn 0 then s
  else modLink l (fun k => { k with
    deficit := (List.range 7).map (fun v => (v, k.deficit.getD v 0 + 17 * vnWeight s v)) }) s

/-- Row-channel replies count as sent in order; a reply leaves the books at its send. -/
def afterSend (id l : Nat) (r : Rq) (s : State) : State :=
  if r.isReq then modRq id (fun r => { r with sent := true, at1 := s.clk, link := l, busy := false }) s
  else dropRq id s

/-- The read at a home of the levels that a plane stamps is by VN0 credits in use (R357). -/
def hintFor (s : State) (node : Nat) : Nat :=
  let c := (getLink s node).cred.getD 0 0
  (selfNode s - 512) % 32 + min 7 (8 * (320 - c) / 320) * 32 + 2 ^ 8

end Sys2Proof.Machine
end

