-- ==== Sys2Proof/Machine/Cache.lean ====
section
/-! DEFINITION. The remote-line cache of E64: hits, fills, invalidation and epochs (R140-R146). -/

namespace Sys2Proof.Machine

/-- The current cache epoch of a plot. -/
def curEpoch (s : State) (plot : Nat) : Nat := s.rlc.epoch.getD plot 0

/-- The rack address of a line at a home. -/
def rackAddr (node a : Nat) : Nat := node * 2 ^ 47 + a

/-- The cached copy that a read of a plot hits (R140): its own plot's, of the current epoch. -/
def cacheHit (s : State) (plot addr : Nat) : Option Line :=
  if e64 s && s.rlc.enable then
    (s.rlc.lines.find? (fun c => c.plot == plot && c.addr == addr && c.epoch == curEpoch s plot)).map (fun c => c.data)
  else none

/-- The cache changed. -/
def modRlc (g : Rlc → Rlc) (s : State) : State := { s with rlc := g s.rlc }

/-- Copies of the lines from `addr` on are gone, and fills of them in flight install nothing (R141, R142). -/
def dropLines (addr n : Nat) (s : State) : State :=
  if e64 s then
    let hit := fun a => decide (addr ≤ a ∧ a < addr + 128 * n)
    let s := modRlc (fun c => { c with lines := c.lines.filter (fun l => !hit l.addr) }) s
    { s with xfer := { s.xfer with rqs := s.xfer.rqs.map (fun e =>
        if e.2.pkt.kind = 0x13 then
          let base := rackAddr e.2.pkt.dst (e.2.pkt.ar 16 8)
          (e.1, { e.2 with noFill := e.2.noFill ++ ((lineAddrs base (e.2.pkt.ar 28 1 % 16)).filter hit) })
        else e) } }
  else s

/-- A fill: the line joins the cache; a full cache gives up a line that no rule names (R140; log 20). -/
def fillLine (plot addr : Nat) (l : Line) (s : State) : State :=
  let ls := s.rlc.lines.filter (fun c => !(c.plot == plot && c.addr == addr))
  let s := if ls.length < 32768 then s else takeFree s
  let ls := if ls.length < 32768 then ls else ls.eraseIdx (Config.cacheVictim s.free % 32768)
  modRlc (fun c => { c with lines := { plot := plot, addr := addr, epoch := curEpoch s plot, data := l } :: ls }) s

/-- The lines of a read's answer that may fill: non-volatile, of the epoch at the request, not invalidated
since (R140-R142). -/
def fillFrom (r : Rq) : Nat → List Line → State → State
  | _, [], s => s
  | a, l :: ls, s =>
    let s := if a ∈ r.noFill then s else fillLine r.plot a l s
    fillFrom r (a + 128) ls s

/-- Read data fills the cache (R140, R169). -/
def fillAnswer (r : Rq) (ls : List Line) (s : State) : State :=
  if e64 s && s.rlc.enable && r.pkt.ar 29 1 % 2 == 0 && r.epoch == curEpoch s r.plot then
    fillFrom r (rackAddr r.pkt.dst (r.pkt.ar 16 8)) ls s
  else s

/-- An uncorrectable error in the cached line: 0x260, and the line is discarded (R146). -/
def cacheUpset (plot addr : Nat) (s : State) : State :=
  raise 0x260 (modRlc (fun c => { c with
    lines := c.lines.filter (fun l => !(l.plot == plot && l.addr == addr)), eccEvt := true }) s)

/-- Every fill in flight installs nothing. -/
def stopFills (plot : Option Nat) (s : State) : State :=
  { s with xfer := { s.xfer with rqs := s.xfer.rqs.map (fun e =>
      if plot.isNone || plot == some e.2.plot then (e.1, { e.2 with epoch := 16 }) else e) } }

/-- The lines of a plot are gone (R142, R147). -/
def invPlotLines (plot : Nat) (s : State) : State :=
  stopFills (some plot) (modRlc (fun c => { c with lines := c.lines.filter (fun l => l.plot != plot) }) s)

/-- Every line is gone (R142, R147). -/
def invAllLines (s : State) : State := stopFills none (modRlc (fun c => { c with lines := [] }) s)

/-- A FENCE may advance the plot's epoch: the next epoch has been swept (R145). -/
def mayAdvance (s : State) (plot : Nat) : Bool :=
  !(s.rlc.sweeping && (curEpoch s plot + 1) % 16 == s.rlc.oldest.getD plot 0)

/-- A FENCE advances the plot's epoch: older lines miss at once and the sweep clears them (R142, R145). -/
def advanceEpoch (plot : Nat) (s : State) : State :=
  modRlc (fun c => { c with
    epoch := c.epoch.set plot ((c.epoch.getD plot 0 + 1) % 16), sweeping := true,
    oldest := c.oldest.set plot (if c.sweeping then c.oldest.getD plot (c.epoch.getD plot 0) else c.epoch.getD plot 0) }) s

/-- The sweep has cleared the lines of old epochs (R145). -/
def sweepDone (s : State) : State :=
  modRlc (fun c => { c with
    sweeping := false, oldest := [], lines := c.lines.filter (fun l => l.epoch == c.epoch.getD l.plot 0) }) s

end Sys2Proof.Machine
end

