-- ==== Sys2Proof/Machine/Segment.lean ====
section
/-! DEFINITION. Transfer engines: segments, runs, row-channel order, completion and abandonment (R130, R155-R157,
R163, R167, R169, R180, R181). -/

namespace Sys2Proof.Machine

/-- PRT_XFR_ERR captures the first error since valid was cleared (R183). -/
def xferErr (code node : Nat) (home : Bool) (plot : Nat) (s : State) : State :=
  if s.xfer.errValid then s
  else { s with xfer := { s.xfer with errCode := code, errEnd := node % 512, errSide := home, errPlot := plot, errValid := true } }

/-- A segment. -/
def getSeg (s : State) (id : Nat) : Option Seg := s.xfer.segs.lookup id

/-- A segment changed. -/
def modSeg (id : Nat) (g : Seg → Seg) (s : State) : State :=
  { s with xfer := { s.xfer with segs := s.xfer.segs.map (fun e => if e.1 = id then (e.1, g e.2) else e) } }

/-- A part of a segment's owner ends. -/
def ownerPart (o : Owner) (own err : Option Nat) (conseq : Bool) (s : State) : State :=
  match o with
  | .disp ctx step => pushFin (.seg ctx step own err conseq) s
  | .cmd f tid => partDone f tid err conseq s
  | .job id => pushFin (.copied id err) s

/-- A local access of this block is refused: its code is noted at L0 (R180). -/
def noteOwn (code plot : Nat) (s : State) : State := note code (some plot) .xfer 0 s

/-- A home's part that the block performs for itself is refused with a home's code, noted at L0 and captured as at any home
(R180, R183, R566; log 97). -/
def selfRefusal (code plot : Nat) (s : State) : State := xferErr code (selfNode s) true plot (noteOwn code plot s)

/-- A run of a segment ends; the last one completes the segment (R163). -/
def runDone (id : Nat) (err : Option Nat) (conseq : Bool) (s : State) : State :=
  match getSeg s id with
  | none => s
  | some g =>
    let e := if g.err.isSome then g.err else err
    let c := if g.err.isSome then g.conseq else err.isSome && conseq
    let s := match g.err, err with
      | none, some code => xferErr code g.far false g.plot s
      | _, _ => s
    if g.left ≤ 1 then
      ownerPart g.owner (if g.kind = .local then some g.lines else none) e c { s with xfer := { s.xfer with segs := s.xfer.segs.filter (fun x => x.1 != id) } }
    else modSeg id (fun x => { x with left := x.left - 1, err := e, conseq := c }) s

/-- The runs of packets over consecutive lines: up to 8 lines, none crossing a 1 KiB boundary of the remote
address (R157). -/
def cutRuns : Nat → Nat → Nat → Nat → List (Nat × Nat)
  | 0, _, _, _ => []
  | k + 1, remote, first, left =>
    if left = 0 then []
    else
      let n := min left (8 - (remote / 128 + first) % 8)
      (first, n) :: cutRuns k remote (first + n) (left - n)

/-- The first segment of a row channel that has a packet still to form. -/
def rowHead (s : State) (far c : Nat) : Option (Nat × Seg) :=
  s.xfer.segs.find? (fun e => e.2.row == some c && e.2.far == far
    && (!e.2.active || decide (e.2.next < e.2.runs.length)))

/-- A formed packet joins the send queue. A segment that only carried a single packet of a command, which ends with that
packet's own answer, is done with. -/
def formed (id : Nat) (r : Option Rq) (s : State) : State :=
  match r with
  | none => s
  | some q =>
    let s := queueReq q s
    match q.who with
    | .seg _ _ => s
    | _ => { s with xfer := { s.xfer with segs := s.xfer.segs.filter (fun x => x.1 != id) } }

/-- Packets of a row channel join the send queue in line order, command by command (R130). -/
def flushRow (far c : Nat) : Nat → State → State
  | 0, s => s
  | k + 1, s =>
    match rowHead s far c with
    | none => s
    | some (id, g) =>
      match g.ready.find g.next with
      | none => s
      | some r =>
        let s := modSeg id (fun x => { x with next := x.next + 1 }) s
        flushRow far c k (formed id r s)

/-- A run's packet is formed, or will not be: on a counted channel it is queued at once. -/
def submit (id run : Nat) (r : Option Rq) (s : State) : State :=
  match getSeg s id with
  | none => s
  | some g =>
    match g.row with
    | none => formed id r s
    | some c =>
      let s := modSeg id (fun x => { x with ready := x.ready.set run r }) s
      flushRow g.far c (s.xfer.segs.foldl (fun n e => n + e.2.runs.length + 1) 1) s

/-- A write data packet of a run (R158, R323). -/
def writePkt (s : State) (id run : Nat) (g : Seg) (first : Nat) (ls : List Line) : Rq :=
  { pkt := mkPkt s g.plot g.far 0x10 0 g.row (areaOf [(16, 8, g.dst + 128 * first), (24, 2, g.tally), (32, 8, g.stamp)]) (flitsOfLines ls),
    who := .seg id run, plot := g.plot, ack := true }

/-- A read request of a run (R158, R323). -/
def readPkt (s : State) (id run : Nat) (g : Seg) (first n : Nat) : Rq :=
  { pkt := mkPkt s g.plot g.far 0x13 0 g.row (areaOf [(16, 8, g.src + 128 * first), (28, 1, n), (29, 1, g.vol.toNat)]) [],
    who := .seg id run, plot := g.plot, reply := 128 * n, epoch := curEpoch s g.plot, dstAddr := g.dst + 128 * first }

/-- The pattern of a FILL across a line (R92). -/
def patLine (p : DWord) : Line := lineOf ((List.replicate 16 (leBytes 8 p.toNat)).flatten)

/-- The line writes of consecutive lines. -/
def lineWrs (a : Nat) : List Line → List LineWr
  | [] => []
  | l :: r => { addr := a, data := l } :: lineWrs (a + 128) r

/-- The runs of lines of a GET segment that miss the cache, and the lines that hit (R169). -/
def missRuns (hits : List (Option Line)) (src : Nat) (lines : Nat) : List (Nat × Nat) :=
  let starts := (List.range lines).filter (fun i =>
    (hits.getD i none).isNone && (i == 0 || (hits.getD (i - 1) none).isSome))
  (starts.map (fun i =>
    let len := ((hits.drop i).takeWhile (fun h => h.isNone)).length
    cutRuns len src i len)).flatten

/-- A local access of a segment is refused. Both ends of a transfer within the block are a home's part; a copy job notes the
code with its answer (R180, R566). -/
def noteAccess (g : Seg) (code : Nat) (s : State) : State :=
  match g.owner with
  | .job _ => s
  | _ => if code ≠ 0x210 ∧ code ≠ 0x211 then s
         else if g.kind = .local ∨ g.kind = .localFill then selfRefusal code g.plot s
         else noteOwn code g.plot s

/-- A segment's engine begins it (R155-R157, R159, R169). -/
def activateSeg (id : Nat) (s : State) : State :=
  match getSeg s id with
  | none => s
  | some g =>
    let plot := g.plot
    let noLocal := match g.kind with
      | .put => !mappedRange s g.src (128 * g.lines)
      | .get | .localFill => !mappedRange s g.dst (128 * g.lines)
      | .local => !(mappedRange s g.src (128 * g.lines) && mappedRange s g.dst (128 * g.lines))
      | _ => false
    if noLocal then runDone id (some 0x210) false (noteAccess g 0x210
      (modSeg id (fun x => { x with active := true, left := 1 }) s))
    else match g.kind with
      | .put =>
        let runs := cutRuns g.lines g.dst 0 g.lines
        let s := modSeg id (fun x => { x with active := true, runs := runs, left := runs.length }) s
        (runs.zipIdx).foldl (fun s x => startRead plot (lineAddrs (g.src + 128 * x.1.1) x.1.2) (.segRead id x.2) s) s
      | .fill =>
        let runs := cutRuns g.lines g.dst 0 g.lines
        let s := modSeg id (fun x => { x with active := true, runs := runs, left := runs.length }) s
        (runs.zipIdx).foldl (fun s x =>
          submit id x.2 (some (writePkt s id x.2 g x.1.1 (List.replicate x.1.2 (patLine g.pattern)))) s) s
      | .get =>
        let hits := (List.range g.lines).map (fun i =>
          if g.vol then none else cacheHit s plot (rackAddr g.far (g.src + 128 * i)))
        let runs := missRuns hits g.src g.lines
        let hit := (hits.zipIdx).filterMap (fun h => h.1.map (fun l => (⟨g.dst + 128 * h.2, l, BitVec.allOnes 128, 128⟩ : LineWr)))
        let s := if g.vol then dropLines (rackAddr g.far g.src) g.lines s else s
        let s := modSeg id (fun x => { x with
          active := true, runs := runs, left := runs.length + (if hit.isEmpty then 0 else 1) }) s
        let s := if hit.isEmpty then s else startWrite plot (some g.tally) hit (.segWrite id 0) s
        (runs.zipIdx).foldl (fun s x => submit id x.2 (some (readPkt s id x.2 g x.1.1 x.1.2)) s) s
      | .local =>
        startRead plot (lineAddrs g.src g.lines) (.segRead id 0)
          (modSeg id (fun x => { x with active := true, runs := [(0, g.lines)], left := 1, next := 1 }) s)
      | .localFill =>
        startWrite plot (some g.tally) (lineWrs g.dst (List.replicate g.lines (patLine g.pattern))) (.segWrite id 0)
          (modSeg id (fun x => { x with active := true, runs := [(0, g.lines)], left := 1, next := 1 }) s)
      | .packet =>
        let r := (g.ready.find 0).getD none
        submit id 0 r (modSeg id (fun x => { x with active := true, left := 1 }) s)

/-- An engine takes a waiting segment when it has one of its 256 places, and a row-channel segment only after
every earlier one of its channel (R130, R155). -/
def mayActivate (s : State) (id : Nat) (g : Seg) : Bool :=
  !g.active
    && decide ((s.xfer.segs.filter (fun e => e.2.active && e.2.eng == g.eng && e.2.kind != .packet)).length < 256)
    && (g.row.isNone || !(s.xfer.segs.any (fun e => decide (e.1 < id) && e.2.row == g.row && e.2.far == g.far && !e.2.active)))

/-- Every segment that an engine can take begins. -/
def activateAll (s : State) : State :=
  s.xfer.segs.foldl (fun s e => if mayActivate s e.1 e.2 then activateSeg e.1 s else s) s

/-- Segments join the engines. -/
def pushSegs : List Seg → State → State
  | [], s => s
  | g :: r, s =>
    pushSegs r { s with xfer := { s.xfer with
      segs := s.xfer.segs ++ [(s.xfer.nextId, g)], nextId := s.xfer.nextId + 1 } }

/-- The transfer engines in service (R432). -/
def liveEngines (s : State) : List Nat := (List.range (engineCount s)).filter (fun e => !s.flt.fencedXfr.getLsbD e)

/-- The engine that the `i`th segment goes to, round-robin over the live engines from engine `first` (R156, R432). -/
def dealEngine (s : State) (first i : Nat) : Nat :=
  let es := liveEngines s
  es.getD (((es.filter (fun e => decide (e < first))).length + i) % es.length) first

/-- The segments of a transfer: 32 lines each, dealt round-robin from an engine (R156). -/
def dealSegs (s : State) (first : Nat) (g : Seg) : List Seg :=
  (List.range (ceilDiv g.lines 32)).map (fun i =>
    { g with
      eng := dealEngine s first i, src := g.src + 4096 * i, dst := g.dst + 4096 * i,
      lines := min 32 (g.lines - 32 * i) })

/-- A single packet of a command goes out as a segment of its own, in its row channel's order. -/
def packetSeg (owner : Owner) (plot far : Nat) (row : Option Nat) (mk : Nat → Rq) (s : State) : State :=
  let id := s.xfer.nextId
  activateAll (pushSegs [{ owner := owner, kind := .packet, far := far, plot := plot, row := row, runs := [(0, 1)],
                           left := 1, ready := [(0, some (mk id))] }] s)

/-- The lines of a segment's run have been read (R157, R181). -/
def segRead (id run : Nat) (err : Bool) (ls : List Line) (s : State) : State :=
  match getSeg s id with
  | none => s
  | some g =>
    if err then
      let s := noteAccess g g.rdErr s
      activateAll (runDone id (some g.rdErr) false (submit id run none s))
    else if g.kind = .local then startWrite g.plot (some g.tally) (lineWrs g.dst ls) (.segWrite id run) s
    else submit id run (some (writePkt s id run g (g.runs.getD run (0, 0)).1 ls)) s

/-- The local lines of a segment have been written (R118, R163). -/
def segWritten (id : Nat) (err : Bool) (s : State) : State :=
  match getSeg s id with
  | none => s
  | some g =>
    let s := if err then noteAccess g g.wrErr s else s
    activateAll (runDone id (if err then some g.wrErr else none) false s)

/-- A command's packets are abandoned: unsent ones vanish, sent ones keep their reservations until answered
(R167). -/
def Rq.owned (r : Rq) (f : Nat) : Bool :=
  match r.who with
  | .loadg g _ _ | .storeg g _ | .atom g _ _ _ | .tadd g _ => g == f
  | _ => false

/-- Engines drop segments, and the packets that go with them, at once: what has been sent keeps its reservation, under the
name `who`, until it is answered or its timer expires (R167). -/
def dropSegs (seg : Seg → Bool) (rq : Rq → Bool) (who : RqFor) (s : State) : State :=
  let ids := (s.xfer.segs.filter (fun e => seg e.2)).map (fun e => e.1)
  let mine := fun r : Rq => rq r || (match r.who with | .seg id _ => ids.contains id | _ => false)
  activateAll { s with xfer := { s.xfer with
    segs := s.xfer.segs.filter (fun e => !(ids.contains e.1)),
    rqs := (s.xfer.rqs.filter (fun e => !(mine e.2 && !e.2.sent))).map (fun e =>
      if mine e.2 then (e.1, { e.2 with dead := true, who := who }) else e) } }

/-- Engines drop the work of a furrow at once (R167). -/
def abandonXfer (f : Nat) (s : State) : State :=
  dropSegs (fun g => match g.owner with | .cmd h _ => h == f | _ => false) (fun r => r.owned f) (.storeg f 0) s

end Sys2Proof.Machine
end

