-- ==== Sys2Proof/Machine/Home.lean ====
section
/-! DEFINITION. The home side: the checks of an arriving packet, end-to-end windows, requests performed,
acknowledgements and the reply log (R110, R118, R136, R158-R181, R325, R368, R369, R434-R438, R566). -/

namespace Sys2Proof.Machine

/-- The plot that a key names at this block (R368, R380): an open plot with that key. -/
def plotOfKey (s : State) (key : Nat) : Option Nat :=
  (s.plots.find? (fun e => e.2.state != .free && e.2.key == key)).map (fun e => e.1)

/-- The permission entry of a link admits a plot, in the live bank or in either bank during a guard (R364,
R368). -/
def admits (s : State) (l plot : Nat) : Bool :=
  ((liveBank s).perm.getD l 0).getLsbD plot
    || (s.trl.guardEnd.isSome && ((s.trl.bankA.perm.getD l 0).getLsbD plot || (s.trl.bankB.perm.getD l 0).getLsbD plot))

/-- A packet is dropped by a plot check: counted and noted (R368, R375). -/
def plotDrop (l code : Nat) (plot : Option Nat) (s : State) : State :=
  let (w, wrapped) := wrapInc (getLink s l).plotDrop
  note code plot .port (linkPort s l) (modLink l (fun k => { k with
    plotDrop := w, dropWrap := k.dropWrap || wrapped, lastDrop := code }) s)

/-- The checks of R368 that fail: zero, or the code of the first failure, with the plot. -/
def plotChecks (s : State) (l : Nat) (p : Packet) : Nat × Nat :=
  match plotOfKey s p.key with
  | none => (0x601, 0)
  | some n => if !admits s l n then (0x602, n) else if p.row && !(getPlot s n).priv then (0x603, n) else (0, n)

/-- A stale packet is counted (R369, R375). -/
def staleDrop (l : Nat) (s : State) : State :=
  let (w, wrapped) := wrapInc (getLink s l).staleCnt
  modLink l (fun k => { k with staleCnt := w, staleWrap := k.staleWrap || wrapped }) s

/-- A packet whose crc fails is counted (R325). -/
def crcDrop (l : Nat) (s : State) : State :=
  let (w, wrapped) := wrapInc (getLink s l).pktCrc
  note 0x540 none .port (linkPort s l) (modLink l (fun k => { k with pktCrc := w, crcWrap := k.crcWrap || wrapped }) s)

/-- A packet at its destination: crc, plot checks and generation; `k` acts on what passes, with its plot.
`stale` acts on a packet of another generation (R325, R368, R369, R388). -/
def received (l : Nat) (p : Packet) (stale : State → State) (k : Nat → State → State) (s : State) : State :=
  if !Packet.crcOk p then crcDrop l s
  else
    let c := plotChecks s l p
    if c.1 ≠ 0 then plotDrop l c.1 (if c.1 = 0x601 then none else some c.2) s
    else if (getPlot s c.2).gen ≠ p.gen then stale (staleDrop l s)
    else k c.2 s

/-- A packet of a kind stands at the head of its buffer and is for this block: it leaves the buffer and goes
through `received`. One that R353 refuses is BOARD_FORWARD's. -/
def arrival (l : Nat) (p : Packet) (kind : Nat) (stale : State → State) (k : Nat → State → State) (s : State) : State :=
  if decide (l < linkCount s) && atHead s l p && p.kind == kind && p.dst == selfNode s && !s.flt.safe && !vn2Bad s l p then
    received l p stale k (takePkt l p s)
  else s

/-- A reply to a request: its plot key, generation, row channel and number are the request's (R158, R434). -/
def replyTo (s : State) (p : Packet) (kind : Nat) (area : BitVec 352) (payload : List (BitVec 512)) : Packet :=
  { kind := kind, vn := 1, pathVn := 1, row := p.row, flits := payload.length, rowCh := p.rowCh, key := p.key,
    gen := p.gen, src := selfNode s, dst := p.src, seq := p.seq, area := area, payload := payload }

/-- The home side changed. -/
def modHome (g : Home → Home) (s : State) : State := { s with home := g s.home }

/-- What a home's window says of a counted request, and the window after it (R436). -/
def winCheck (w : Window) (q : Nat) : Bool × Window :=
  if w.empty then (true, { empty := false, high := q, map := 1 })
  else
    let up := seqDist w.high q
    let down := seqDist q w.high
    if 1 ≤ up ∧ up < 2 ^ 31 then
      (true, { w with high := q, map := (if up < 4096 then w.map <<< up else 0) ||| 1 })
    else if down < 4096 ∧ !w.map.getLsbD down then (true, { w with map := setBit w.map down true })
    else (false, w)

/-- The bit of a request that performed nothing clears (R436). -/
def winClear (w : Window) (q : Nat) : Window :=
  let down := seqDist q w.high
  if down < 4096 then { w with map := setBit w.map down false } else w

/-- How a request stands to its channel (R436, R438). -/
inductive Dedup where
  | fresh | dup | ahead
  deriving DecidableEq, Repr

/-- The end-to-end window of a request (R436, R438). -/
def dedup (s : State) (p : Packet) : Dedup × State :=
  if p.row then
    let e := s.home.rowExp.getD (rowKey p.src p.rowCh) 0
    if p.seq = e then
      (.fresh, modHome (fun h => { h with rowExp := h.rowExp.set (rowKey p.src p.rowCh) ((e + 1) % 2 ^ 32) }) s)
    else if seqDist p.seq e < 2 ^ 31 then (.dup, s) else (.ahead, s)
  else
    let (ok, w) := winCheck (s.home.win.at p.src) p.seq
    if ok then (.fresh, modHome (fun h => { h with win := h.win.set p.src w }) s) else (.dup, s)

/-- A request that performed nothing: a counted one's bit clears; a row channel steps back for a busy answer
only (R436, R438). -/
def undo (p : Packet) (busy : Bool) (s : State) : State :=
  if p.row then (if busy then modHome (fun h => { h with rowExp := h.rowExp.set (rowKey p.src p.rowCh) p.seq }) s else s)
  else modHome (fun h => { h with win := h.win.set p.src (winClear (h.win.at p.src) p.seq) }) s

/-- The same request as a packet's. -/
def sameReq (a b : Packet) : Bool := a.src == b.src && a.seq == b.seq && a.row == b.row && a.rowCh == b.rowCh

/-- The request is still being performed (R437). -/
def inProgress (s : State) (p : Packet) : Bool :=
  s.home.jobs.any (fun j => j.2.self.isNone && j.2.bw.isNone && sameReq j.2.pkt p)

/-- An error reply: the home notes the code at L0 and performs nothing (R180, R181). -/
def refuse (p : Packet) (plot : Nat) (board : Bool) (code : Nat) (s : State) : State :=
  queueReply (replyTo s p 0x25 (areaOf [(16, 2, code)]) []) board
    (xferErr code p.src true plot (note code (some plot) .xfer 0 (undo p false s)))

/-- Held acknowledgements of a source go out in one flit (R162). -/
def flushAcks (node : Nat) (s : State) : State :=
  match s.home.acks.at node with
  | [] => s
  | h :: r =>
    let hs := h :: r
    let p : Packet := { kind := 0x22, vn := 1, pathVn := 1, row := h.row, rowCh := h.rowCh, key := h.key, gen := h.gen,
                        src := selfNode s, dst := node, seq := h.seq,
                        area := areaOf ((16, 1, hs.length) :: (hs.zipIdx).map (fun x => (28 + 4 * x.2, 4, x.1.seq))) }
    queueReply p h.board (modHome (fun g => { g with acks := g.acks.del node }) s)

/-- A request is acknowledged: at once, or held for coalescing with acknowledgements of its channel (R162). -/
def ackReq (p : Packet) (board : Bool) (s : State) : State :=
  let a : HeldAck := { seq := p.seq, row := p.row, rowCh := p.rowCh, key := p.key, gen := p.gen, board := board, since := s.clk }
  let same := match s.home.acks.at p.src with
    | [] => true
    | h :: _ => h.row == a.row && h.rowCh == a.rowCh && h.key == a.key && h.gen == a.gen && h.board == a.board
  let s := if same then s else flushAcks p.src s
  let s := modHome (fun g => { g with acks := g.acks.set p.src (g.acks.at p.src ++ [a]) }) s
  if !bitAt s.xfer.cfg 28 || decide (8 ≤ (s.home.acks.at p.src).length) then flushAcks p.src s else s

/-- A reply joins the reply log of its source, which keeps the last 64 (R437). -/
def logReply (p : Packet) (s : State) : State :=
  modHome (fun h => { h with log := h.log.set p.dst (((h.log.at p.dst) ++ [p]).drop ((h.log.at p.dst).length + 1 - 64)) }) s

/-- A job joins the home; its number is the state's `home.nextId`. -/
def pushJob (j : Job) (s : State) : State :=
  modHome (fun h => { h with jobs := h.jobs ++ [(h.nextId, j)], nextId := h.nextId + 1 }) s

/-- A job changed. -/
def modJob (id : Nat) (g : Job → Job) (s : State) : State :=
  modHome (fun h => { h with jobs := h.jobs.map (fun e => if e.1 = id then (e.1, g e.2) else e) }) s

/-- A job ends. -/
def dropJob (id : Nat) (s : State) : State := modHome (fun h => { h with jobs := h.jobs.filter (fun e => e.1 != id) }) s

/-- The local address of a request (R323). -/
def reqAddr (p : Packet) : Nat := p.ar 16 8 % 2 ^ 47

/-- The lines that a request touches at its home. -/
def reqLines (p : Packet) : Nat :=
  match p.kind with
  | 0x10 => p.flits / 2
  | 0x13 => p.ar 28 1 % 16
  | 0x15 => p.ar 28 2 % 1024
  | 0x17 => 0
  | 0x18 => ceilDiv (reqAddr p % 128 + 8 * p.ar 28 1) 128
  | _ => 1

/-- An atomic is in progress on one of the lines (R166). -/
def lineBusy (s : State) (p : Packet) : Bool :=
  let a := lineBase (reqAddr p)
  s.home.jobs.any (fun j => j.2.pkt.kind == 0x16
    && decide (a ≤ lineBase (reqAddr j.2.pkt) ∧ lineBase (reqAddr j.2.pkt) < a + 128 * reqLines p))

/-- The home has no room for another ATOM (R179). -/
def atomsFull (s : State) : Bool := decide (256 ≤ (s.home.jobs.filter (fun j => j.2.pkt.kind == 0x16)).length)

/-- The bytes of a job's write. -/
def jobWrites (p : Packet) : List LineWr :=
  match p.kind with
  | 0x10 => (List.range (p.flits / 2)).map (fun i => { addr := reqAddr p + 128 * i, data := p.line i, bytes := 0 })
  | 0x11 => [{ addr := lineBase (reqAddr p), data := p.line 0, be := BitVec.ofNat 128 (p.ar 32 16), bytes := 0 }]
  | 0x12 => (bytesWr (reqAddr p) (leBytes 8 (p.ar 32 8))).map (fun w => { w with bytes := 0 })
  | 0x17 => []
  | _ => (bytesWr (reqAddr p) ((p.bytes).take (8 * p.ar 28 1))).map (fun w => { w with bytes := 0 })

/-- The writes that a job issues next: all of them, or on a row channel those up to the next 4 KiB granule, so that its
lines become visible in order (R112, R131). `segs` of a write job counts the writes already made. -/
def nextWrites (j : Job) : List LineWr :=
  let ws := (jobWrites j.pkt).drop j.segs
  if j.pkt.row then ws.takeWhile (fun w => w.addr / 4096 == (ws.headD { addr := 0, data := 0 }).addr / 4096) else ws

/-- A copy job's segments are dealt: a PUT of the requester's plot, or a copy within this home (R170). -/
def beginCopy (id : Nat) (j : Job) (s : State) : State :=
  let p := j.pkt
  let dst := p.ar 32 8
  let far := dst / 2 ^ 47 % 512
  let own := decide (far = selfNode s)
  let g : Seg := { owner := .job id, kind := if own then .local else .put, src := reqAddr p, dst := dst % 2 ^ 47,
                   far := far, lines := reqLines p, tally := p.ar 24 2, plot := j.plot,
                   row := if p.row ∧ !own then some p.rowCh else none, rdErr := 0x211, wrErr := 0x211 }
  let segs := dealSegs s (p.src % engineCount s) g
  activateAll (pushSegs segs (modJob id (fun x => { x with segs := segs.length }) s))

/-- A job's accesses begin (R118, R136, R170, R178). A tally add has none. -/
def beginJob (id : Nat) (j : Job) (s : State) : State :=
  match j.pkt.kind with
  | 0x13 => startRead j.plot (lineAddrs (reqAddr j.pkt) (reqLines j.pkt)) (.home id) s
  | 0x14 => startRead j.plot [lineBase (reqAddr j.pkt)] (.home id) s
  | 0x15 => beginCopy id j s
  | 0x16 => startLock j.plot id (lineBase (reqAddr j.pkt)) s
  | 0x17 => pushFin (.wr (.home id) false) s
  | _ => startWrite j.plot none (nextWrites j) (.home id) s

/-- A board-window access of a (source, core) may go to the memory port: every earlier access of the pair still
awaiting its response lies in the same granule (R136). -/
def boardFree (s : State) (id : Nat) (j : Job) : Bool :=
  !(s.home.jobs.any (fun k => decide (k.1 < id) && k.2.board && k.2.pkt.src == j.pkt.src && k.2.pkt.hint == j.pkt.hint
    && (k.2.held || reqAddr k.2.pkt / 4096 != reqAddr j.pkt / 4096)))

/-- Two jobs are requests of one row channel (R129). -/
def rowMates (a b : Job) : Bool :=
  a.pkt.row && b.pkt.row && a.pkt.src == b.pkt.src && a.pkt.rowCh == b.pkt.rowCh && a.self.isNone && b.self.isNone

/-- A row-channel request may be served: every earlier request of its channel has been, a copy once it has left its
place in the order (R131, R132; log 96). -/
def rowFree (s : State) (id : Nat) (j : Job) : Bool :=
  !(s.home.jobs.any (fun k => decide (k.1 < id) && rowMates k.2 j && (k.2.held || k.2.pkt.kind != 0x15)))

/-- A job may begin (R132, R136). -/
def mayBegin (s : State) (id : Nat) (j : Job) : Bool := (!j.board || boardFree s id j) && (!j.pkt.row || rowFree s id j)

/-- A request starts at its home, or waits for board-window order or for its row channel (R132, R136). -/
def startJob (j : Job) (s : State) : State :=
  let id := s.home.nextId
  let free := mayBegin s id j
  let s := pushJob { j with held := !free } s
  if free then beginJob id j s else s

/-- A held job that may now begin does. -/
def releaseJob (id : Nat) (s : State) : State :=
  match s.home.jobs.lookup id with
  | none => s
  | some j => if j.held && mayBegin s id j then beginJob id j (modJob id (fun x => { x with held := false }) s) else s

/-- A job ends, and what waited behind it on its row channel is served (R132). -/
def endJob (id : Nat) (j : Job) (s : State) : State :=
  let s := dropJob id s
  if j.pkt.row then
    s.home.jobs.foldl (fun s k => if rowMates k.2 j then releaseJob k.1 s else s) s
  else s

/-- A request of a board window: a partial write, or a one-line counted read over the mesh (R136, R172-R174;
log 46). -/
def isBoard (s : State) (l : Nat) (p : Packet) : Bool :=
  isMesh s l && (p.kind == 0x11 || (p.kind == 0x13 && !p.row && p.ar 28 1 % 16 == 1))

/-- The codes of the checks of R566 after the window: the tally, then the mapping. -/
def homeChecks (s : State) (plot : Nat) (p : Packet) : Nat :=
  let t := p.ar 24 2
  let named := p.kind ∈ [0x10, 0x12, 0x17]
  if named ∧ !tallyOk s plot t (p.kind != 0x17) then 0x212
  else if p.kind ≠ 0x17 ∧ !mappedRange s (reqAddr p) (128 * max 1 (reqLines p)) then 0x210
  else 0

/-- A duplicate by kind (R437): a write is acknowledged again once performed, a read served again, a logged reply
sent again. -/
def duplicate (l : Nat) (p : Packet) (plot : Nat) (s : State) : State :=
  if p.kind = 0x13 ∨ p.kind = 0x14 then startJob { pkt := p, link := l, plot := plot, board := isBoard s l p } s
  else if inProgress s p then s
  else if p.kind = 0x15 ∨ p.kind = 0x16 then
    match (s.home.log.at p.src).find? (fun r => r.seq == p.seq && r.row == p.row && r.rowCh == p.rowCh) with
    | some r => queueReply r false s
    | none => s
  else ackReq p (p.kind == 0x11) s

/-- A request arrives at its home (R166, R179, R566): while an atomic holds its line, or for an ATOM while the
atomic unit is full, it stays in its buffer; at L3 it draws 0xF30 (R421); a request that passes is performed. -/
def homeRequest (l : Nat) (p : Packet) (kind : Nat) (k : Nat → State → State) (s : State) : State :=
  if lineBusy s p || (kind == 0x16 && atomsFull s) then s
  else arrival l p kind id (fun plot s =>
    if s.flt.l3 then queueReply (replyTo s p 0x25 (areaOf [(16, 2, 0xF30)]) []) (p.kind == 0x11) s
    else match dedup s p with
      | (.ahead, s) => s
      | (.dup, s) => duplicate l p plot s
      | (.fresh, s) =>
        let code := homeChecks s plot p
        if code ≠ 0 then refuse p plot (p.kind == 0x11) code s else k plot s) s

/-- The packet is of a DISPATCH: it names its bed, generation and step (R275, R323). -/
def ofDispatch (p : Packet) : Bool := (p.kind == 0x10 || p.kind == 0x18) && p.ar 35 1 == 1

/-- A DISPATCH packet of a bed that is closed here, or of another generation of it, is discarded (R189, R275). -/
def bedGone (s : State) (plot : Nat) (p : Packet) : Bool :=
  ofDispatch p && (match findBed s plot (p.ar 32 2) with
    | some c => (getBed s c).desc.gen != p.ar 34 1
    | none => true)

/-- A request performed by the memory accesses of its kind. -/
def memRequest (l : Nat) (p : Packet) (kind : Nat) (s : State) : State :=
  homeRequest l p kind (fun plot s =>
    if bedGone s plot p then collStale plot (p.ar 32 2) (undo p false s)
    else startJob { pkt := p, link := l, plot := plot, board := isBoard s l p } s) s

/-- Tally counts of a packet whose lines are all visible, or its tally add (R98, R118, R171, R181). -/
def countJob (j : Job) (s : State) : State :=
  let t := some (j.pkt.ar 24 2)
  match j.pkt.kind with
  | 0x10 => (List.range (j.pkt.flits / 2)).foldl (fun s _ => countLine j.plot t 128 s) s
  | 0x12 => countLine j.plot t 8 s
  | 0x17 => addTally j.plot (j.pkt.ar 24 2) (BitVec.ofNat 64 (j.pkt.ar 32 8)) s
  | _ => s

/-- A home's read has its lines: the answer goes out (R158). -/
def homeRead (id : Nat) (err : Bool) (ls : List Line) (s : State) : State :=
  match s.home.jobs.lookup id with
  | none => s
  | some j =>
    let s := endJob id j s
    let board := j.board && j.pkt.hint != 0
    match j.bw with
    | some a => pushFin (.bw a (if err then 0x211 else 0) (ls.headD 0)) (if err then selfRefusal 0x211 j.plot s else s)
    | none =>
    if err then refuse j.pkt j.plot board 0x211 s
    else if j.pkt.kind = 0x14 then
      let v := leNat (((linesBytes ls).drop (reqAddr j.pkt % 128)).take 8)
      queueReply (replyTo s j.pkt 0x21 (areaOf [(32, 8, v)]) []) false s
    else
      let s := takeFree s
      queueReply (replyTo s j.pkt 0x20 (areaOf [(16, 8, (Config.readDest s.free).toNat)]) (flitsOfLines ls)) board s

/-- A home's write is visible: its lines are counted and it is acknowledged (R118, R162, R174). -/
def homeWritten (id : Nat) (err : Bool) (s : State) : State :=
  match s.home.jobs.lookup id with
  | none => s
  | some j =>
    let made := j.segs + (nextWrites j).length
    if !err && decide (made < (jobWrites j.pkt).length) then
      let j := { j with segs := made }
      startWrite j.plot none (nextWrites j) (.home id) (modJob id (fun _ => j) s)
    else
    let s := endJob id j s
    match j.bw with
    | some a => pushFin (.bw a (if err then 0x211 else 0) 0) (if err then selfRefusal 0x211 j.plot s else s)
    | none =>
    if err then refuse j.pkt j.plot j.board 0x211 s
    else
      let s := if ofDispatch j.pkt then pushFin (.moe j.plot j.pkt) s else s
      ackReq j.pkt j.board (countJob j s)

/-- fp32 fields: sign, exponent and fraction. -/
def fp32Nan (b : BitVec 32) : Bool := fld b 23 8 == 255 && fld b 0 23 != 0
/-- fp32 infinity. -/
def fp32Inf (b : BitVec 32) : Bool := fld b 23 8 == 255 && fld b 0 23 == 0
/-- fp32 sign bit. -/
def fp32Neg (b : BitVec 32) : Bool := b.getLsbD 31

/-- A finite fp32 as an integer in units of 2^-149. -/
def fp32Int (b : BitVec 32) : Int :=
  let m : Nat := if fld b 23 8 = 0 then fld b 0 23 else (2 ^ 23 + fld b 0 23) * 2 ^ (fld b 23 8 - 1)
  if fp32Neg b then -(m : Int) else m

/-- Division by 2^k rounded to nearest, ties to even. -/
def rne (n k : Nat) : Nat :=
  let q := n / 2 ^ k
  let r := n % 2 ^ k
  if 2 * r > 2 ^ k ∨ (2 * r = 2 ^ k ∧ q % 2 = 1) then q + 1 else q

/-- The fp32 of a magnitude in units of 2^-149, rounded to nearest-even; infinity on overflow. -/
def fp32OfNat (m : Nat) : Nat :=
  if m < 2 ^ 24 then m
  else
    let e := Nat.log2 m - 23
    let v := rne m e + (e * 2 ^ 23)
    if 0x7F800000 ≤ v then 0x7F800000 else v

/-- fp32 addition, rounded to nearest-even (R177). -/
def fp32Add (a b : BitVec 32) : BitVec 32 :=
  if fp32Nan a || fp32Nan b || (fp32Inf a && fp32Inf b && fp32Neg a != fp32Neg b) then 0x7FC00000
  else if fp32Inf a then a
  else if fp32Inf b then b
  else
    let z := fp32Int a + fp32Int b
    if z = 0 then (if fp32Neg a && fp32Neg b then 0x80000000 else 0)
    else BitVec.ofNat 32 (fp32OfNat z.natAbs + (if z < 0 then 2 ^ 31 else 0))

/-- The order of fp32 numbers, -0 below +0 (R177). -/
def fp32Lt (a b : BitVec 32) : Bool :=
  if fp32Neg a != fp32Neg b then fp32Neg a
  else if fp32Neg a then decide (b.toNat < a.toNat) else decide (a.toNat < b.toNat)

/-- fp32 minimum or maximum (R177). -/
def fp32Min (max : Bool) (a b : BitVec 32) : BitVec 32 :=
  if fp32Nan a && fp32Nan b then 0x7FC00000
  else if fp32Nan a then b
  else if fp32Nan b then a
  else if fp32Lt a b then (if max then b else a) else (if max then a else b)

/-- The new value that an ATOM writes (R176, R177), on the format's width. -/
def atomResult (fmt op : Nat) (old operand compare : DWord) : DWord :=
  let o32 := old.setWidth 32
  let b32 := operand.setWidth 32
  let c32 := compare.setWidth 32
  if fmt = 0x07 then
    match op with
    | 0x10 => old + operand
    | 0x11 => if old.slt operand then old else operand
    | 0x12 => if old.slt operand then operand else old
    | 0x13 => operand
    | 0x14 => if old = compare then operand else old
    | 0x15 => old &&& operand
    | 0x16 => old ||| operand
    | _ => old ^^^ operand
  else
    let r : BitVec 32 := match op with
      | 0x10 => if fmt = 0x12 then fp32Add o32 b32 else o32 + b32
      | 0x11 => if fmt = 0x12 then fp32Min false o32 b32 else if o32.slt b32 then o32 else b32
      | 0x12 => if fmt = 0x12 then fp32Min true o32 b32 else if o32.slt b32 then b32 else o32
      | 0x13 => b32
      | 0x14 => if o32 = c32 then b32 else o32
      | 0x15 => o32 &&& b32
      | 0x16 => o32 ||| b32
      | _ => o32 ^^^ b32
    r.setWidth 64

/-- The bytes of an ATOM's format. -/
def atomSize (fmt : Nat) : Nat := if fmt = 0x07 then 8 else 4

/-- An ATOM ends at its home: the short reply goes out and is logged, or the command that issued it here takes its
old value (R151, R178, R437, R566). -/
def atomEnd (id : Nat) (err : Bool) (s : State) : State :=
  match s.home.jobs.lookup id with
  | none => s
  | some j =>
    let s := endJob id j s
    match j.self with
    | some (f, tid) =>
      if err then partDone f tid (some 0x211) false (selfRefusal 0x211 j.plot s)
      else
        let s := match j.ret with
          | some g => modFur f (fun x => if x.issued.any (fun i => i.tid == tid) then x.setReg g j.old else x) s
          | none => s
        partDone f tid none false s
    | none =>
      if err then refuse j.pkt j.plot false 0x211 s
      else
        let r := replyTo s j.pkt 0x21 (areaOf [(32, 8, j.old.toNat)]) []
        queueReply r false (logReply r s)

/-- The line with a value of `n` bytes put at an offset. -/
def putLine (l : Line) (off n v : Nat) : Line := setFld l (8 * off) (8 * n) v

/-- The lock data of an ATOM arrives: the new line goes back under the unlock write (R178, R527). On S512 the
read-modify-write of buffer SRAM is one step (R149); a port sends the unlock with its lock's tag. -/
def atomNewLine (s : State) (id : Nat) (l : Line) : Option (Line × DWord × Job) :=
  (s.home.jobs.lookup id).map (fun j =>
    let p := j.pkt
    let fmt := p.ar 28 1
    let off := reqAddr p % 128
    let old : DWord := BitVec.ofNat 64 (fld l (8 * off) (8 * atomSize fmt))
    let new := atomResult fmt (p.ar 29 1) old (BitVec.ofNat 64 (p.ar 32 8)) (BitVec.ofNat 64 (p.ar 40 8))
    (putLine l off (atomSize fmt) (new.toNat % 2 ^ (8 * atomSize fmt)), old, j))

/-- The lock of an ATOM on buffer SRAM is held: its line is rewritten in the same step (R149). -/
def atomLocked (id : Nat) (err : Bool) (l : Line) (s : State) : State :=
  if err then atomEnd id true s
  else match atomNewLine s id l with
    | none => s
    | some (l', old, j) =>
      let s := modJob id (fun x => { x with old := old }) s
      if e64 s then s
      else sramAccess { kind := .unlockWrite, addr := lineBase (reqAddr j.pkt), plot := j.plot, data := l',
                        be := BitVec.allOnes 128, what := .lock id } s

/-- Copy requests queued at this home (R165, R183). -/
def copyDepth (s : State) : Nat := (s.home.jobs.filter (fun j => j.2.pkt.kind == 0x15)).length

/-- A copy request arrives (R165, R170). -/
def copyRequest (l : Nat) (p : Packet) (s : State) : State :=
  homeRequest l p 0x15 (fun plot s =>
    if 64 ≤ copyDepth s then
      let (w, wrapped) := wrapInc s.xfer.busyCnt
      queueReply (replyTo s p 0x24 0 []) false
        (undo p true { s with xfer := { s.xfer with busyCnt := w, busyWrap := s.xfer.busyWrap || wrapped } })
    else
      let own := decide (p.ar 32 8 / 2 ^ 47 % 512 = selfNode s)
      if own ∧ !tallyOk s plot (p.ar 24 2) true then refuse p plot false 0x212 s
      else startJob { pkt := p, link := l, plot := plot } s) s

/-- A segment of a copy job ends; the last one answers the requester (R170). -/
def copyPart (id : Nat) (err : Option Nat) (s : State) : State :=
  match s.home.jobs.lookup id with
  | none => s
  | some j =>
    let e := if j.err.isSome then j.err else err
    if 1 < j.segs then modJob id (fun x => { x with segs := x.segs - 1, err := e }) s
    else
      let s := endJob id j s
      match e with
      | some code =>
        let r := replyTo s j.pkt 0x25 (areaOf [(16, 2, code)]) []
        queueReply r false (logReply r (xferErr code j.pkt.src true j.plot (note code (some j.plot) .xfer 0 (undo j.pkt false s))))
      | none =>
        let r := replyTo s j.pkt 0x23 0 []
        queueReply r false (logReply r s)

end Sys2Proof.Machine
end

