-- ==== Sys2Proof/Machine/Window.lean ====
section
/-! DEFINITION. Requests of accelerator cores on the memory ports: the board window, the tally aperture and the
doorbell aperture (R58, R62, R134-R144, R172-R175, R522-R531, R567). -/

namespace Sys2Proof.Machine

/-- The regions that an IQ address decodes into (R529). -/
inductive Region where
  | doorbell | tally | window | none
  deriving DecidableEq, Repr

/-- The region of an IQ address (R529). -/
def regionOf (s : State) (addr : BitVec 56) : Region :=
  if fld addr 24 32 = s.mp.dapBase then .doorbell
  else if fld addr 24 32 = s.mp.tapBase then .tally
  else if fld addr 50 6 = s.mp.bwBase then .window
  else .none

/-- MEM_ERR captures the first error since valid was cleared (R567). -/
def memErr (code port core : Nat) (s : State) : State :=
  if s.mp.errValid then s
  else { s with mp := { s.mp with errCode := code, errPort := port, errCore := core, errValid := true } }

/-- The memory-port error response of a request, with its code (R523). -/
def irError (port : Nat) (b : IqBeat) (code : Nat) (s : State) : State :=
  memErr code port b.core.toNat (emit (.ir port b.write b.tag.toNat true (BitVec.ofNat 1024 code)) s)

/-- A memory-port fault noted at L0. -/
def portFault (code : Nat) (plot : Option Nat) (port : Nat) (s : State) : State := note code plot .block port s

/-- A request refused with its fault and the error response. -/
def iqRefuse (port : Nat) (b : IqBeat) (code : Nat) (s : State) : State :=
  irError port b code (portFault code (some b.plot.toNat) port s)

/-- The bytes that a read asked for, at their places in the line, other bytes zero (R523). -/
def readBack (b : IqBeat) (l : Line) : Line :=
  let off := b.addr.toNat % 128
  let n := b.len.toNat + 1
  BitVec.ofNat 1024 (fld l (8 * off) (8 * n) * 2 ^ (8 * off))

/-- The codes of the checks 1 to 3 of R529: parity, port, shape. -/
def iqChecks (port : Nat) (b : IqBeat) : Nat :=
  if !iqParityOk b then 0x242
  else if b.core.toNat % 16 ≠ port then 0x241
  else if b.write then (if b.be = 0 ∨ b.addr.toNat % 128 ≠ 0 then 0x242 else 0)
  else if 128 < b.addr.toNat % 128 + b.len.toNat + 1 then 0x242 else 0

/-- IQ and ID credits that a port owes the fabric go out when nothing withholds them: inbound_en is set, and no drain and no
reset holds them back (R366, R524, R533, R540). -/
def payCredits (port : Nat) (s : State) : State :=
  let p := s.mp.ports.at port
  if s.glb.stopped || s.trl.drain || !bitAt s.mp.cfg 0 || !p.up || !e64 s then s
  else
    let s := modPort port (fun p => { p with owedIq := 0, owedId := 0 }) s
    { s with outbox := s.outbox ++ List.replicate p.owedIq (.iqCredit port) ++ List.replicate p.owedId (.idCredit port) }

/-- The beat leaves its input buffer: its credits are owed, and return at once unless they are withheld (R524). -/
def returnIq (port : Nat) (write : Bool) (s : State) : State :=
  payCredits port (modPort port (fun p => { p with owedIq := p.owedIq + 1, owedId := p.owedId + write.toNat }) s)

/-- The outstanding accesses of a core id. -/
def coreAccs (s : State) (core : Nat) : List (Nat × BwAcc) := s.rlc.acc.filter (fun a => a.2.beat.core.toNat == core)

/-- Source core ids with outstanding accesses (R138, R147). -/
def activeCores (s : State) : Nat := ((s.rlc.acc.map (fun a => a.2.beat.core.toNat)).eraseDups).length

/-- The tracker has room for an access of a core (R138). -/
def trackRoom (s : State) (core : Nat) : Bool :=
  let mine := (coreAccs s core).length
  decide (mine < 32) && decide (s.rlc.acc.length < 16384) && (decide (0 < mine) || decide (activeCores s < 2048))

/-- The home slot of a board-window access (R31). -/
def bwSlot (b : IqBeat) : Nat := fld b.addr 47 3
/-- The local address of a board-window access (R31). -/
def bwLocal (b : IqBeat) : Nat := fld b.addr 0 47
/-- The endpoint of a slot of this board. -/
def bwNode (s : State) (slot : Nat) : Nat := selfNode s / 8 * 8 + slot

/-- An access leaves the tracker. -/
def dropAcc (id : Nat) (s : State) : State := modRlc (fun c => { c with acc := c.acc.filter (fun a => a.1 != id) }) s

/-- An access ends: the core is answered (R173-R175, R181). -/
def bwEnd (id code : Nat) (l : Line) (s : State) : State :=
  match s.rlc.acc.lookup id with
  | none => s
  | some a =>
    let s := dropAcc id s
    if code ≠ 0 then irError a.port a.beat code s
    else emit (.ir a.port a.beat.write a.beat.tag.toNat false (if a.beat.write then 0 else readBack a.beat l)) s

/-- The packet of a board-window access to another slot (R158, R173, R174, R322). -/
def bwPkt (s : State) (a : BwAcc) : Packet :=
  let line := lineBase (bwLocal a.beat)
  let p := if a.beat.write then
      mkPkt s a.beat.plot.toNat (bwNode s a.slot) 0x11 0 none
        (areaOf [(16, 8, line), (24, 2, 0xFFFF), (32, 16, a.beat.be.toNat)]) (flitsOfLines [a.beat.data])
    else mkPkt s a.beat.plot.toNat (bwNode s a.slot) 0x13 0 none
        (areaOf [(16, 8, line), (28, 1, 1), (29, 1, a.beat.vol.toNat)]) []
  { p with hint := a.beat.core.toNat }

/-- The rack address of the line of an access. -/
def bwRack (s : State) (a : BwAcc) : Nat := rackAddr (bwNode s a.slot) (lineBase (bwLocal a.beat))

/-- An access goes to its home: over the mesh, or looped back (R33, R137, R173-R175). -/
def bwGo (id : Nat) (a : BwAcc) (s : State) : State :=
  let s := modRlc (fun c => { c with acc := c.acc.map (fun x => if x.1 = id then (id, { x.2 with state := .sent }) else x) }) s
  let plot := a.beat.plot.toNat
  if a.slot = mySlot s then
    if !mapped s (bwLocal a.beat) then bwEnd id 0x210 0 (selfRefusal 0x210 plot s)
    else startJob { pkt := { bwPkt s a with src := selfNode s }, plot := plot, board := true, bw := some id } s
  else if !meshUp s (bwNode s a.slot) then bwEnd id 0x232 0 (portFault 0x232 (some plot) a.port s)
  else
    let s := if a.beat.write || a.beat.vol then dropLines (bwRack s a) 1 s else s
    let p := bwPkt s a
    if a.beat.write then queueReq { pkt := p, who := .bwStore id, plot := plot, ack := true } s
    else queueReq { pkt := p, who := .bwLoad id, plot := plot, reply := 128, epoch := curEpoch s plot } s

/-- A load that the cache serves (R140). -/
def bwHit (s : State) (a : BwAcc) : Option Line :=
  if a.beat.write || a.beat.vol || a.slot == mySlot s then none
  else cacheHit s a.beat.plot.toNat (bwRack s a)

/-- Every other outstanding access of the core names this home slot (R135). -/
def bwOrdered (s : State) (id : Nat) (a : BwAcc) : Bool :=
  (coreAccs s a.beat.core.toNat).all (fun x => decide (id ≤ x.1) || x.2.slot == a.slot)

/-- No earlier access of the core is outstanding (R144). -/
def bwAlone (s : State) (id : Nat) (a : BwAcc) : Bool :=
  (coreAccs s a.beat.core.toNat).all (fun x => decide (id ≤ x.1))

/-- An earlier access of the core is still held: later ones stay behind it (R134). -/
def bwBehind (s : State) (id : Nat) (a : BwAcc) : Bool :=
  (coreAccs s a.beat.core.toNat).any (fun x => decide (x.1 < id) && x.2.state != .sent)

/-- An access goes on if its order allows: a hit binds once the core has nothing else out (R144), any other access
goes once the rest of the core's accesses name its home (R135). -/
def bwTry (id : Nat) (s : State) : State :=
  match s.rlc.acc.lookup id with
  | none => s
  | some a =>
    if a.state = .sent then s
    else match bwHit s a with
      | some l => if bwAlone s id a then bwEnd id 0 l s else s
      | none => if bwOrdered s id a && !bwBehind s id a then bwGo id a s else s

/-- A board-window access enters the tracker and goes on if it can (R134, R138). -/
def bwAccept (port : Nat) (b : IqBeat) (u : Upset) (s : State) : State :=
  let id := s.xfer.nextId
  let a : BwAcc := { port := port, beat := b, slot := bwSlot b, state := .held }
  let looked := !b.write && !b.vol && a.slot != mySlot s && s.rlc.enable
  let s := match bwHit s a with
    | some _ => countSrc 0xC b.plot.toNat 1 (if u = Upset.sram then cacheUpset b.plot.toNat (bwRack s a) s else s)
    | none => if looked then countSrc 0xD b.plot.toNat 1 s else s
  let s := { s with xfer := { s.xfer with nextId := id + 1 }, rlc := { s.rlc with acc := s.rlc.acc ++ [(id, a)] } }
  bwTry id (returnIq port b.write s)

/-- A board-window request that passed its checks: refused while its slot is out of reach (R175), withheld while the
tracker has no room (R138). -/
def bwRequest (port : Nat) (b : IqBeat) (u : Upset) (s : State) : State :=
  if bwSlot b ≠ mySlot s ∧ !meshUp s (bwNode s (bwSlot b)) then iqRefuse port b 0x232 (returnIq port b.write s)
  else if (s.mp.ports.at port).withheld || !trackRoom s b.core.toNat then
    modPort port (fun p => { p with withheld := true }) { s with rlc := { s.rlc with iqHeld := s.rlc.iqHeld ++ [(port, b)] } }
  else bwAccept port b u s

/-- A tally-aperture request (R62, R530). -/
def tapRequest (port : Nat) (b : IqBeat) (u : Upset) (s : State) : State :=
  let s := returnIq port b.write s
  let plot := b.plot.toNat
  let off := b.addr.toNat % 2 ^ 24
  if b.write then
    match (List.range 16).find? (fun k => b.be == BitVec.ofNat 128 (255 * 2 ^ (8 * k))) with
    | none => iqRefuse port b 0x230 s
    | some k =>
      let t := (off + 8 * k) / 8
      if (getPlot s plot).tallyQuota ≤ t then iqRefuse port b 0x243 s
      else emit (.ir port true b.tag.toNat false 0) (addTally plot t (BitVec.ofNat 64 (fld b.data (64 * k) 64)) s)
  else if b.len ≠ 7 ∨ off % 8 ≠ 0 then iqRefuse port b 0x230 s
  else if (getPlot s plot).tallyQuota ≤ off / 8 then iqRefuse port b 0x243 s
  else if u = Upset.tally then
    irError port b 0x261 (raiseEv { code := 0x261, level := .l2, plot := some plot } s)
  else
    let v := (getTally s plot (off / 8)).toNat
    emit (.ir port false b.tag.toNat false (BitVec.ofNat 1024 (v * 2 ^ (8 * (off % 128))))) s

/-- A doorbell-aperture request (R58, R531). -/
def dapRequest (port : Nat) (b : IqBeat) (s : State) : State :=
  let s := returnIq port b.write s
  let n := b.addr.toNat % 2 ^ 24 / 4096
  if !b.write || b.be != 0xFF || b.addr.toNat % 4096 != 0 || decide (furrowCount s ≤ n)
      || (getFur s n).plot != b.plot.toNat then iqRefuse port b 0x244 s
  else emit (.ir port true b.tag.toNat false 0) (doorbell n (BitVec.ofNat 32 (fld b.data 0 32)) s)

/-- The plot check of R385: a DRAINING plot's tally reads are served, else the plot must be ACTIVE. -/
def iqPlotOk (s : State) (b : IqBeat) (r : Region) : Bool :=
  match (getPlot s b.plot.toNat).state with
  | .active => true
  | .draining => r == .tally && !b.write
  | .free => false

/-- A request of a core on a port, for the event of one region: requests that decode into none, and reads of the doorbell
aperture, are taken with the board window's (R421, R528, R529, R531). -/
def iqRequest (region : Region) (write : Bool) (port : Nat) (b : IqBeat) (u : Upset) (s : State) : State :=
  let r := regionOf s b.addr
  let mine := r == region || (region == .window && (r == .none || (r == .doorbell && !write)))
  if !(e64 s && decide (port < 16) && (s.mp.ports.at port).up && !s.glb.stopped && mine && b.write == write && !s.flt.safe) then s
  else
    let code := iqChecks port b
    if code ≠ 0 then iqRefuse port b code (returnIq port b.write s)
    else if r = .none then iqRefuse port b 0x240 (returnIq port b.write s)
    else if s.flt.l3 then irError port b 0xF30 (returnIq port b.write s)
    else if !iqPlotOk s b r then iqRefuse port b 0x667 (returnIq port b.write s)
    else match r with
      | .doorbell => dapRequest port b s
      | .tally => tapRequest port b u s
      | _ => bwRequest port b u s

/-- Room has come free on a port whose credit is withheld: its oldest held request goes on (R138). -/
def releaseCredit (port : Nat) (s : State) : State :=
  match s.rlc.iqHeld.find? (fun x => x.1 == port) with
  | none => modPort port (fun p => { p with withheld := false }) s
  | some (_, b) =>
    if trackRoom s b.core.toNat then
      let rest := s.rlc.iqHeld.eraseIdx (s.rlc.iqHeld.findIdx (fun x => x.1 == port))
      let s := { s with rlc := { s.rlc with iqHeld := rest } }
      let s := bwAccept port b .none s
      if rest.any (fun x => x.1 == port) then s else modPort port (fun p => { p with withheld := false }) s
    else s

/-- A link to a slot went down: every board-window request outstanding on it is answered in error, each noted
(R175). -/
def bwLinkDown (slot : Nat) (s : State) : State :=
  let gone := s.rlc.acc.filter (fun a => a.2.slot == slot && a.2.state == .sent && slot != mySlot s)
  let s := { s with xfer := { s.xfer with rqs := s.xfer.rqs.filter (fun e =>
    match e.2.who with | .bwLoad i | .bwStore i => !(gone.any (fun a => a.1 == i)) | _ => true) } }
  gone.foldl (fun s a => bwEnd a.1 0x232 0 (portFault 0x232 (some a.2.beat.plot.toNat) a.2.port s)) s

end Sys2Proof.Machine
end

