-- ==== Sys2Proof/Machine/Requester.lean ====
section
/-! DEFINITION. The requester side: answers to outstanding packets, end-to-end timers, resends and pair state (R151,
R163-R169, R175, R180, R181, R388, R435-R440). -/

namespace Sys2Proof.Machine

/-- The outstanding request that a reply answers, by sender, channel and number (R435). -/
def matchRq (s : State) (p : Packet) (q : Nat) : Option (Nat × Rq) :=
  s.xfer.rqs.find? (fun e => e.2.sent && e.2.isReq && !e.2.landing && e.2.pkt.vn == 0 && e.2.pkt.dst == p.src
    && e.2.pkt.seq == q && e.2.pkt.row == p.row && e.2.pkt.rowCh == p.rowCh)

/-- A request ends in error with a code, or done: its owner hears of it unless the command was abandoned (R163,
R167, R180, R181). -/
def endRq (id : Nat) (r : Rq) (err : Option Nat) (conseq : Bool) (s : State) : State :=
  let s := dropRq id s
  if r.dead then s
  else match r.who with
    | .seg g _ => activateAll (runDone g err conseq s)
    | .loadg f tid _ | .storeg f tid | .atom f tid _ _ | .tadd f tid =>
      let s := match err with | some c => xferErr c r.pkt.dst false r.plot s | none => s
      partDone f tid err conseq s
    | .bwLoad a | .bwStore a => bwEnd a (err.getD 0) 0 s
    | .coll c n => if r.pkt.vn = 0 then pushFin (.seg c n none err conseq) s else s
    | _ => s

/-- A valid congestion hint sets the level of its (destination, plane) pair (R357, R358). -/
def takeHint (p : Packet) (s : State) : State :=
  if e64 s ∧ p.hint.testBit 8 then
    { s with trl := { s.trl with level := s.trl.level.set (pairKey p.src (p.hint % 32)) (p.hint / 32 % 8, s.clk) } }
  else s

/-- A stale reply frees the reservation that it names, and the request ends as if its timer had run out (R388). -/
def staleReply (p : Packet) (s : State) : State :=
  match matchRq s p p.seq with
  | some (id, r) => endRq id r (some 0x220) false s
  | none => s

/-- A reply of a kind arrives for an outstanding request; `k` acts on the request it answers (R435). -/
def reply (l : Nat) (p : Packet) (kind : Nat) (k : Nat → Rq → State → State) (s : State) : State :=
  arrival l p kind (staleReply p) (fun _ s =>
    let s := takeHint p s
    match matchRq s p p.seq with
    | some (id, r) => k id r s
    | none => s) s

/-- Read data arrives (R167-R169, R173). -/
def takeReadData (p : Packet) (id : Nat) (r : Rq) (s : State) : State :=
  let ls := (List.range (p.flits / 2)).map p.line
  if r.dead then dropRq id s
  else match r.who with
  | .bwLoad a =>
    let s := fillAnswer r ls (dropRq id s)
    bwEnd a 0 (ls.headD 0) s
  | .seg _ _ =>
    startWrite r.plot none ((lineWrs r.dstAddr ls).map (fun w => { w with bytes := 0 })) (.getDst id)
      (modRq id (fun x => { x with landing := true }) (fillAnswer r ls s))
  | _ => s

/-- The lines of a GET are visible at the requester: they are counted on its tally and the run ends (R93, R163). -/
def getWritten (id : Nat) (err : Bool) (s : State) : State :=
  match getRq s id with
  | none => s
  | some r =>
    if r.dead then dropRq id s
    else match r.who with
    | .seg g _ =>
      let tally := (getSeg s g).map (fun x => x.tally)
      let n := r.reply / 128
      let s := if err then s else (List.range n).foldl (fun s _ => countLine r.plot tally 128 s) s
      endRq id r (if err then some 0x221 else none) false s
    | _ => s

/-- A short reply arrives: the register takes the value (R96, R151). -/
def takeShort (p : Packet) (id : Nat) (r : Rq) (s : State) : State :=
  let v : DWord := BitVec.ofNat 64 (p.ar 32 8)
  let s := if r.dead then s else match r.who with
    | .loadg f _ g => modFur f (fun x => x.setReg g v) s
    | .atom f _ (some g) size => modFur f (fun x => x.setReg g (BitVec.ofNat 64 (v.toNat % 2 ^ (8 * size)))) s
    | _ => s
  endRq id r none false s

/-- The numbers that an acknowledgement names (R323). -/
def ackSeqs (p : Packet) : List Nat := (List.range (min 8 (p.ar 16 1))).map (fun i => p.ar (28 + 4 * i) 4)

/-- One acknowledged packet (R163). -/
def ackOne (p : Packet) (q : Nat) (s : State) : State :=
  match matchRq s p q with
  | some (id, r) => endRq id r none false s
  | none => s

/-- An acknowledgement arrives (R162, R163). -/
def takeAcks (l : Nat) (p : Packet) (s : State) : State :=
  arrival l p 0x22 (fun s => (ackSeqs p).foldl (fun s q => staleReply { p with seq := q } s) s)
    (fun _ s => (ackSeqs p).foldl (fun s q => ackOne p q s) (takeHint p s)) s

/-- A packet goes back to the send queue under its number (R164, R438, R440). -/
def requeue (id : Nat) (s : State) : State := modRq id (fun r => { r with sent := false, busy := false, again := true }) s

/-- Every unacknowledged packet of a row channel goes back to the send queue (R438). -/
def requeueRow (p : Packet) (s : State) : State :=
  s.xfer.rqs.foldl (fun s e =>
    if e.2.sent && e.2.isReq && e.2.pkt.vn == 0 && !e.2.landing && sameChannel e.2.pkt p then requeue e.1 s else s) s

/-- A request's end-to-end timer expires (R164, R167, R438). A collective packet is replayed in the same way (R200, R325);
its step ends by the step timers when no replay is answered (R444; log 64). -/
def e2eExpiry (id : Nat) (s : State) : State :=
  match getRq s id with
  | none => s
  | some r =>
    if !(r.sent && r.isReq && !r.landing && !r.busy && r.pkt.vn != 6 && passed s r.at1 (fld s.xfer.cfg 0 24 * 1000)) then s
    else if r.dead then dropRq id s
    else if (getPlot s r.plot).state = .draining then endRq id r (some 0x220) false s
    else if fld s.xfer.cfg 24 4 ≤ r.replays then (if r.pkt.vn = 0 then endRq id r (some 0x220) false s else s)
    else
      let s := modRq id (fun x => { x with replays := x.replays + 1 }) s
      if r.pkt.row then requeueRow r.pkt s else requeue id s

/-- One microsecond after a busy answer the request goes out again, on a row channel with everything behind it (R165,
R438). -/
def busyResend (id : Nat) (s : State) : State :=
  match getRq s id with
  | none => s
  | some r =>
    if !(r.busy && !r.deep && passed s r.at1 1000) then s
    else if r.pkt.row then requeueRow r.pkt (requeue id s) else requeue id s

/-- A path to a destination stands (R439). -/
def pathStands (s : State) (d : Nat) : Bool :=
  if e64 s then
    if d < 512 then meshUp s d || (reachEntry s d != 0 && upMask s != 0)
    else linkUp s (uplink (d - 512))
  else decide (d < 512) && linkUp s d

/-- The end-to-end state toward a node that no path joins is reset: windows clear, counters return to 0 and every packet
outstanding ends in error 0x223 as a consequence (R439). -/
def resetPair (d : Nat) (s : State) : State :=
  let gone := s.xfer.rqs.filter (fun e => e.2.isReq && e.2.pkt.dst == d && e.2.pkt.vn == 0)
  let chans := List.range 8
  let s := modHome (fun h => { h with
    win := h.win.del d, log := h.log.del d, rowExp := chans.foldl (fun t c => t.del (rowKey d c)) h.rowExp }) s
  let s := { s with xfer := { s.xfer with
    ctr := s.xfer.ctr.del d, rowCtr := chans.foldl (fun t c => t.del (rowKey d c)) s.xfer.rowCtr } }
  gone.foldl (fun s e => endRq e.1 e.2 (some 0x223) true s) s

/-- Every node that the block holds end-to-end state or packets toward. -/
def pairNodes (s : State) : List Nat :=
  (s.home.win.keys ++ s.home.rowExp.keys.map (fun k => k / 8) ++ s.xfer.ctr.keys ++ s.xfer.rowCtr.keys.map (fun k => k / 8)
    ++ s.xfer.rqs.map (fun e : Nat × Rq => e.2.pkt.dst)).eraseDups

/-- Pairs that no path joins any more are reset (R439). -/
def resetPairs (s : State) : State :=
  (pairNodes s).foldl (fun s d => if d == selfNode s || pathStands s d then s else resetPair d s) s

/-- Packets that were sent through a link, or through it to one destination, are resent on a path chosen afresh; these
resends do not count (R440). -/
def resendThrough (l : Nat) (dst : Option Nat) (s : State) : State :=
  s.xfer.rqs.foldl (fun s e =>
    if e.2.sent && e.2.isReq && !e.2.landing && e.2.link == l && (dst.isNone || dst == some e.2.pkt.dst)
    then requeue e.1 s else s) s

end Sys2Proof.Machine
end

