-- ==== Sys2Proof/Machine/ControlPort.lean ====
section
/-! DEFINITION. The control port: regions, domains, rights and answers (R7, R15, R18, R393, R394, R422, R514-R517,
R559-R561). -/

namespace Sys2Proof.Machine

/-- The regions of the address map: first and last offset (R559). -/
def cpRegions : List (Nat × Nat) :=
  [(0x000000, 0x000033), (0x010000, 0x01001F), (0x020000, 0x0203FF), (0x030000, 0x0307FF), (0x100000, 0x10FFFF),
   (0x110000, 0x110007), (0x200000, 0x207FFF), (0x280000, 0x281FFF), (0x2A0000, 0x2A7FFF), (0x2C0000, 0x2C0FFF),
   (0x2C1000, 0x2C1003), (0x3C0000, 0x3C000B), (0x3C0100, 0x3C017F), (0x3D0000, 0x3D0013), (0x400000, 0x401FFF),
   (0x440000, 0x447FFF), (0x450000, 0x45000B), (0x450100, 0x45011F), (0x460000, 0x460017), (0x470000, 0x470017),
   (0x480000, 0x48FFFF), (0x490000, 0x490023), (0x490100, 0x49010F), (0x491000, 0x49181F), (0x498000, 0x49FFFF),
   (0x4A0000, 0x4A003F), (0x4B0000, 0x4B001B), (0x4C0000, 0x4C04FF), (0x4D0000, 0x4D0037), (0x4D1000, 0x4D13FF),
   (0x4E0000, 0x4EFFFF), (0x4F0000, 0x4F010F)]

/-- The address lies in a region (R559, R560). -/
def inRegion (a : Nat) : Bool := cpRegions.any (fun r => decide (r.1 ≤ a ∧ a ≤ r.2))

/-- The address names a resource that the build lacks (R7, R563). -/
def cpAbsent (s : State) (a : Nat) : Bool :=
  if e64 s then
    decide (0x104000 ≤ a ∧ a ≤ 0x10FFFF) || decide (0x201000 ≤ a ∧ a ≤ 0x207FFF) || decide (0x280400 ≤ a ∧ a ≤ 0x281FFF)
      || decide (0x2A1000 ≤ a ∧ a ≤ 0x2A7FFF) || decide (0x2C0200 ≤ a ∧ a ≤ 0x2C0FFF)
  else decide (0x3C0000 ≤ a ∧ a ≤ 0x3C017F) || decide (0x491000 ≤ a ∧ a ≤ 0x49181F)

/-- The switched domain of the unit whose Silt ring DBG_SILT_SEL selects (R480, R546, R559); none for always-on. -/
def siltDom (s : State) : Option Nat :=
  let i := fld s.obs.siltSel 3 8
  match fld s.obs.siltSel 0 3 with
  | 0 => some i | 1 => some (portDom s i) | 2 => some (engDom s i) | 3 => some (furDom s (64 * i)) | 4 => some (sliceDom s (4 * i))
  | 5 => some (sieveDom s i) | 6 => some (bankDom s i)
  | _ => match i with
    | 0 => some (dibDom s) | 1 => if e64 s then none else some 95 | 3 => some (mgmtDom s) | 4 => some (marlDom s) | _ => none

/-- The switched domain that must be on for a register to answer (R559): none for always-on. A Silt-window read whose selected
unit's domain is off is served from bank group 0 (R561). -/
def cpDomain (s : State) (a : Nat) : Option Nat :=
  if 0x200000 ≤ a ∧ a ≤ 0x207FFF then some ((a - 0x200000) / 0x40 / 8)
  else if 0x280000 ≤ a ∧ a ≤ 0x281FFF then some (portDom s ((a - 0x280000) / 0x40))
  else if 0x2A0000 ≤ a ∧ a ≤ 0x2A7FFF then some (portDom s ((a - 0x2A0000) / 0x40 / 4))
  else if 0x2C0000 ≤ a ∧ a ≤ 0x2C0FFF then some ((a - 0x2C0000) / 0x40)
  else if 0x3C0000 ≤ a ∧ a ≤ 0x3C000B then some 13
  else if 0x3C0140 ≤ a ∧ a ≤ 0x3C017F then some (portDom s ((a - 0x3C0140) / 4))
  else if 0x3D0000 ≤ a ∧ a ≤ 0x3D0013 then some (engDom s 0)
  else if 0x4D1000 ≤ a ∧ a ≤ 0x4D13FF then
    (match siltDom s with | some d => if domOn s d then none else some (bankDom s 0) | none => none)
  else if 0x4E0000 ≤ a ∧ a ≤ 0x4EFFFF then some (bankDom s 0)
  else if !e64 s ∧ ((0x480000 ≤ a ∧ a ≤ 0x49010F) ∨ (0x498000 ≤ a ∧ a ≤ 0x49FFFF)) then some 95
  else none

/-- The control port's answer (R516). -/
def cpAnswer (sv status : Nat) (data : Word) (s : State) : State := emit (.cpRsp sv status data) s

/-- A supervisor's own mailbox window (R411). -/
def ownMailbox (sv a : Nat) : Bool := decide (0x020000 + 0x100 * sv ≤ a ∧ a < 0x020100 + 0x100 * sv)

/-- A supervisor may write a register: the owner, and everyone in SUP_CLAIM, SUP_EVENTS and its own mailbox window (R393).
In the Safe state only the supervisor registers, the own mailbox (log 47) and GLB_RESET_CTL, by every supervisor, keep
their rules (R422). -/
def mayWrite (s : State) (sv a : Nat) : Bool :=
  let all := a == 0x010004 || a == 0x010014 || ownMailbox sv a
  if s.flt.safe then
    all || a == 0x000010 || (s.sup.owner == some sv && decide (0x010000 ≤ a ∧ a ≤ 0x01001F))
  else all || s.sup.owner == some sv

/-- A write without the right is ignored and counted (R394). -/
def denied (sv : Nat) (s : State) : State :=
  let first := !bitAt s.sup.events 3
  noteIf first 0x671 { s with sup := { s.sup with
    denied := s.sup.denied.set sv (satInc 255 (s.sup.denied.at sv)), events := setBit s.sup.events 3 true } }

/-- The control port takes requests: its clock runs and no cold reset holds it (R517, R545). -/
def cpServes (s : State) (sv : Nat) : Bool := s.pwr.cpClk && s.glb.coldPin && decide (sv < 4)

/-- An access passes the checks that come before a register's own rules, or is answered at once (R18, R516, R560, R561). -/
def cpGate (sv addr : Nat) (k : State → State) (s : State) : State :=
  if addr % 4 ≠ 0 then cpAnswer sv 1 0 (raise 0x8F0 s)
  else if !inRegion addr then cpAnswer sv 0 0 (raise 0x8F3 s)
  else if cpAbsent s addr then cpAnswer sv 0 0 s
  else match cpDomain s addr with
    | some d => if domOn s d then k s else cpAnswer sv 2 0 s
    | none => k s

/-- A write of a register: `f` is the register's own rule (R516, R393, R394). -/
def cpWrite (sv addr : Nat) (f : State → State) (s : State) : State :=
  if cpServes s sv then
    cpGate sv addr (fun s => cpAnswer sv 0 0 (if mayWrite s sv addr then f s else denied sv s)) s
  else s

/-- A read of a register: `f` gives its value and what the read does (R19, R516). -/
def cpRead (sv addr : Nat) (f : State → Word × State) (s : State) : State :=
  if cpServes s sv then cpGate sv addr (fun s => let r := f s; cpAnswer sv 0 r.1 r.2) s else s

/-- The address of a furrow's register (R47). -/
def furAddr (n off : Nat) : Nat := 0x100000 + 0x100 * n + off

end Sys2Proof.Machine
end

