-- ==== Sys2Proof/Machine/Fetch.lean ====
section
/-! DEFINITION. Fetching commands and steps 1 to 8 of R74: rings, images, the loop buffer, prefetch, breaks and predicates
(R55-R61, R66, R74, R81, R84-R86, R107). -/

namespace Sys2Proof.Machine

/-- An installed image (R63). -/
def getImg (s : State) (slot : Nat) : Option Image := s.img.slots.find slot

/-- The place that FUR_PC shows: the next command that the furrow will issue (R53; log 48). -/
def furPlace (g : Furrow) : Place :=
  match g.cur with
  | some r => r.place
  | none => match g.prefetch with
    | x :: _ => x.place
    | [] => g.pc

/-- A furrow's FUR_PC or call stack names an image slot (R66). -/
def slotInUse (s : State) (slot : Nat) : Bool :=
  s.fur.any (fun e => e.2.state != .idle
    && (let p := furPlace e.2
        (p.inImage && p.slot == slot) || (e.2.pc.inImage && e.2.pc.slot == slot)
          || e.2.stack.any (fun q => q.inImage && q.slot == slot)))

/-- Skipped ring slots are consumed as far as FUR_PROD covers them (R84). -/
def consumeSkip (g : Furrow) : Furrow :=
  let n := min g.skip g.avail
  { g with cons := g.cons + BitVec.ofNat 32 n, skip := g.skip - n }

/-- Fetch moves `k` commands forward in a ring: prefetched commands go first, then one in flight, then slots (R84). -/
def ringForward (k : Nat) (g : Furrow) : Furrow :=
  let n := min k g.prefetch.length
  let left := k - n
  let fly := decide (0 < left) && g.fetching.isSome
  consumeSkip { g with prefetch := g.prefetch.drop n, skip := g.skip + (left - fly.toNat),
                       fetching := if fly then none else g.fetching }

/-- Fetch moves to a place of an image: prefetched commands of an image are dropped (R84, R86). -/
def goTo (p : Place) (g : Furrow) : Furrow := { g with pc := p, prefetch := [] }

/-- What a fetch gives at once. -/
inductive Got where
  | cmd (x : Fetched)
  | flying
  | nothing
  deriving DecidableEq, Repr

/-- The bytes of a command as its 256 bits. -/
def rawCmd (bs : List Byte) : BitVec 256 := BitVec.ofNat 256 (leNat bs)

/-- One command is read from the ring or the image. A ring slot is consumed by its fetch (R61); an unreadable one gives a
command that fails with 0x171 (R60), as does one whose address is not mapped. A place beyond an image gives one that fails
with 0x141 (R84). -/
def readCmd (f : Nat) (u : Upset) (s : State) : Got × State :=
  let g := getFur s f
  if g.pc.inImage then
    let cmds := ((getImg s g.pc.slot).map (fun i => i.cmds)).getD []
    match cmds[g.pc.idx]? with
    | none => (.cmd { place := g.pc, bad := 0x141 }, s)
    | some w => (.cmd { raw := w, place := g.pc, bad := if u = Upset.sram then 0x171 else 0 },
        modFur f (fun g => { g with pc := { g.pc with idx := g.pc.idx + 1 } }) s)
  else if g.avail = 0 ∨ g.fetching.isSome then (.nothing, s)
  else
    let slot := g.cons.toNat % g.ringSize
    let a := g.ringBase + 32 * slot
    let place : Place := { idx := slot }
    let s' := modFur f (fun g => { g with cons := g.cons + 1 }) s
    if g.ringSram then
      if u = Upset.sram ∨ sramSize s < a + 32 then (.cmd { place := place, bad := 0x171 }, s')
      else (.cmd { raw := rawCmd (sramRead s a 32), place := place }, s')
    else if !mapped s a then (.cmd { place := place, bad := 0x171 }, s')
    else
      let tok := s.mp.nextId
      (.flying, startRead g.plot [lineBase a] (.fetch f tok) (modFur f (fun g => { g with fetching := some (tok, place) }) s'))

/-- A command read through a memory port arrives in its furrow (R60, R81). -/
def fetched (f tok : Nat) (err : Bool) (ls : List Line) (s : State) : State :=
  let g := getFur s f
  match g.fetching with
  | some (t, place) =>
    if t = tok then
      let bs := ((linesBytes ls).drop (32 * place.idx % 128)).take 32
      let x : Fetched := { raw := rawCmd bs, place := place, bad := if err then 0x171 else 0 }
      modFur f (fun g => if g.pc.inImage then { g with fetching := none, held := g.held ++ [x] }
        else { g with fetching := none, prefetch := g.prefetch ++ [x] }) s
    else s
  | none => s

/-- A break stops the furrow before the command: its flag K, or its ids (R107). -/
def breakCause (g : Furrow) (c : Cmd) : StopCause :=
  let m := fld g.ctl 8 2
  let layer := c.layer == fld g.brkMatch 0 16
  let oper := c.oper == fld g.brkMatch 16 16
  if c.fK && bitAt g.ctl 10 then .breakFlag
  else if (m == 1 && layer) || (m == 2 && oper) || (m == 3 && layer && oper) then .breakMatch
  else .none

/-- Step 8 of R74: a command whose predicate is 0 retires at issue with no effect; any other stands at issue. -/
def atPredicate (f : Nat) (c : Cmd) (place : Place) (s : State) : State :=
  let g := getFur s f
  if c.fP && !g.preds.getLsbD c.pidx then
    if notifyBlocked g then
      waitOn f .notifyFull (modFur f (fun g => { g with cur := some { cmd := c, place := place, passed := true } }) s)
    else
      cntCommand f g.nextSeq
        (pushIssued f { tid := g.nextTid, cmd := c, outst := false, done := true, skipped := true } s)
  else modFur f (fun g => { g with cur := some { cmd := c, place := place },
                                   state := .running, wait := .none, waitSince := none }) s

/-- Steps 1 to 8 of R74 on a fetched command. -/
def considerCmd (f : Nat) (x : Fetched) (s : State) : State :=
  let c := decodeCmd x.raw
  if x.bad ≠ 0 then failCmd f {} x.bad s
  else if cmdCrc x.raw ≠ c.crc then failCmd f c 0x104 s
  else
    let code := staticCheck (!e64 s) c
    if code ≠ 0 then failCmd f c code s
    else
      let b := breakCause (getFur s f) c
      if b ≠ .none then
        stopFur f b (modFur f (fun g => { g with cur := some { cmd := c, place := x.place, passed := true } }) s)
      else atPredicate f c x.place s

/-- Control flow may not stand in a LOOP body (R85). -/
def bodyBad (x : Fetched) : Bool := decide (1 ≤ fld x.raw 0 8 ∧ fld x.raw 0 8 ≤ 7)

/-- A fetched command joins the loop body that is being fetched (R85). With no iterations the body is consumed and never
run. -/
def toBody (f : Nat) (x : Fetched) (s : State) : State :=
  let g := getFur s f
  let n := g.loop.need - 1
  if x.bad = 0 ∧ bodyBad x then
    failCmd f (decodeCmd x.raw) 0x142 (modFur f (fun g => { g with loop := {} }) s)
  else if g.loop.drop then
    if x.bad ≠ 0 then failCmd f {} x.bad (modFur f (fun g => { g with loop := {} }) s)
    else modFur f (fun g => { g with loop := if n = 0 then {} else { g.loop with need := n } }) s
  else modFur f (fun g => { g with loop := { g.loop with need := n, body := g.loop.body ++ [x] } }) s

/-- A command leaves the furrow's stream: to the loop body while one is being fetched, else to steps 1 to 8. -/
def takeCmd (f : Nat) (x : Fetched) (s : State) : State :=
  if 0 < (getFur s f).loop.need then toBody f x s else considerCmd f x s

/-- The next command of the running loop (R85): at the end of the body a pass is counted off, and the last pass ends the
loop. -/
def loopNext (l : LoopBuf) : Option (Fetched × LoopBuf) :=
  if 0 < l.need ∨ l.iters = 0 then none
  else if l.pos < l.body.length then (l.body[l.pos]?).map (fun x => (x, { l with pos := l.pos + 1 }))
  else if l.iters ≤ 1 then none
  else (l.body[0]?).map (fun x => (x, { l with pos := 1, iters := l.iters - 1 }))

/-- The furrow may fetch: it runs or waits, nothing stops it, and its group is powered. -/
def mayFetch (s : State) (f : Nat) : Bool :=
  let g := getFur s f
  mayIssue s && decide (f < furrowCount s) && domOn s (furDom s f) && g.active && !g.failing && !g.halting
    && g.resetting.isNone && !(g.stepping && g.stepTid.isSome)

/-- The furrow fetches its next command and checks it under steps 1 to 8 of R74; with a command at issue it prefetches one
more, up to 8 (R56, R81). -/
def fetchCmd (f : Nat) (u : Upset) (s : State) : State :=
  if !mayFetch s f then s
  else
    let s := modFur f consumeSkip s
    let g := getFur s f
    match g.cur with
    | some r =>
      if r.passed then atPredicate f r.cmd r.place s
      else if 8 ≤ g.prefetch.length ∨ g.skip ≠ 0 then s
      else match readCmd f u s with
        | (.cmd x, s') => if x.bad = 0x141 then s else modFur f (fun g => { g with prefetch := g.prefetch ++ [x] }) s'
        | (_, s') => s'
    | none =>
      match loopNext g.loop with
      | some (x, l) => considerCmd f x (modFur f (fun g => { g with loop := l }) s)
      | none =>
        let s := if g.loop.need = 0 then modFur f (fun g => { g with loop := {} }) s else s
        match g.prefetch with
        | x :: r => takeCmd f x (modFur f (fun g => { g with prefetch := r }) s)
        | [] =>
          if g.skip ≠ 0 then waitOn f .ringEmpty s
          else match readCmd f u s with
            | (.cmd x, s') => takeCmd f x s'
            | (.flying, s') => s'
            | (.nothing, s') => if g.fetching.isSome then s' else waitOn f .ringEmpty s'

end Sys2Proof.Machine
end

