-- ==== Sys2Proof/Machine/Direct.lean ====
section
/-! DEFINITION. LOADG, STOREG, ATOM and TADD where they run, MARK's trace records and DUMP's entries (R91, R95, R96, R98,
R105, R160, R483-R485, R566). -/

namespace Sys2Proof.Machine

/-- The name that the next command of a furrow takes. -/
def nextTid (s : State) (f : Nat) : Nat := (getFur s f).nextTid

/-- The remote operand lies in this block: its own endpoint, or a plane's own buffer SRAM (R159, R160). -/
def ownTarget (s : State) (a : DWord) : Bool := !e64 s || rackEp a == selfNode s

/-- The address form of a remote operand of LOADG, STOREG and ATOM (R30, R160). -/
def targetChecks (s : State) (a : DWord) : List (Bool × Nat) :=
  [(!rackOk a, 0x120), (!e64 s && !localOk a, 0x123)]

/-- The register of a LOADG takes its value; the command that set it busy is still out. -/
def loadReg (f tid g : Nat) (v : DWord) (s : State) : State :=
  modFur f (fun x => if x.issued.any (fun i => i.tid == tid) then x.setReg g v else x) s

/-- A LOADG of this block has its line (R91, R566). -/
def loadgRead (f tid off : Nat) (err : Bool) (ls : List Line) (s : State) : State :=
  match (getFur s f).issued.find? (fun i => i.tid == tid) with
  | none => s
  | some i =>
    if err then partDone f tid (some 0x211) false (selfRefusal 0x211 (getFur s f).plot s)
    else
      let v : DWord := BitVec.ofNat 64 (leNat (((linesBytes ls).drop off).take 8))
      partDone f tid none false (loadReg f tid i.cmd.d v s)

/-- A STOREG of this block is visible (R91, R566). -/
def storegWritten (f tid : Nat) (err : Bool) (s : State) : State :=
  if err then partDone f tid (some 0x211) false (selfRefusal 0x211 (getFur s f).plot s) else partDone f tid none false s

/-- The operand of a command performed here is not mapped: the command fails with the home's code (R566). -/
def ownUnmapped (f tid plot : Nat) (s : State) : State := failOut f tid 0x210 (selfRefusal 0x210 plot s)

/-- LOADG (R91, R140, R141, R160). -/
def doLoadg (f : Nat) (u : Upset) (s : State) : State :=
  withCmd f 0x14 true (fun c o _ s =>
    checked f c ([regCheck s c o, rowCheck s f c] ++ targetChecks s o.a ++ [(o.a.toNat % 8 != 0, 0x121)]) (fun s =>
      let plot := (getFur s f).plot
      let tid := nextTid s f
      let s := issueOut f c 1 (some c.d) s
      let off := o.a.toNat % 128
      if ownTarget s o.a then
        if !mapped s (rackLocal o.a) then ownUnmapped f tid plot s
        else startRead plot [lineBase (rackLocal o.a)] (.loadg f tid off) s
      else
        let line := lineBase (o.a.toNat)
        let hit := if c.fV then none else cacheHit s plot line
        let s := if c.fV then dropLines line 1 s else s
        let ask := packetSeg (.cmd f tid) plot (rackEp o.a) c.row (fun _ =>
          { pkt := mkPkt s plot (rackEp o.a) 0x14 0 c.row (areaOf [(16, 8, rackLocal o.a), (29, 1, c.fV.toNat)]) [],
            who := .loadg f tid c.d, plot := plot, reply := 64 })
        match hit with
        | some l =>
          if u = Upset.sram then ask (cacheUpset plot line s)
          else
            let v : DWord := BitVec.ofNat 64 (leNat (((lineBytes l).drop off).take 8))
            partDone f tid none false (loadReg f tid c.d v (countSrc 0xC plot 1 s))
        | none => ask (if c.fV then s else countSrc 0xD plot 1 s)) s) s

/-- STOREG (R91, R141, R160). -/
def doStoreg (f : Nat) (s : State) : State :=
  withCmd f 0x15 true (fun c o _ s =>
    let plot := (getFur s f).plot
    checked f c ([regCheck s c o, rowCheck s f c, (!tallyOk s plot c.id true, 0x130)] ++ targetChecks s o.a
        ++ [(o.a.toNat % 8 != 0, 0x121)]) (fun s =>
      let tid := nextTid s f
      let v := ((getFur s f).reg c.d).toNat
      let s := issueOut f c 1 none s
      if ownTarget s o.a then
        if !mapped s (rackLocal o.a) then ownUnmapped f tid plot s
        else startWrite plot (some c.id) (bytesWr (rackLocal o.a) (leBytes 8 v)) (.storeg f tid) s
      else
        packetSeg (.cmd f tid) plot (rackEp o.a) c.row (fun _ =>
          { pkt := mkPkt s plot (rackEp o.a) 0x12 0 c.row (areaOf [(16, 8, rackLocal o.a), (24, 2, c.id), (32, 8, v)]) [],
            who := .storeg f tid, plot := plot, ack := true }) (dropLines (lineBase o.a.toNat) 1 s)) s) s

/-- The return register of an ATOM (R96). -/
def atomRet (c : Cmd) : Option Nat := if c.len.testBit 4 then some (c.len % 16) else none

/-- The kind area of an atomic request (R176, R323). -/
def atomArea (g : Furrow) (c : Cmd) (o : Opnd) : BitVec 352 :=
  let n := atomSize c.d
  let cut := fun v : DWord => v.toNat % 2 ^ (8 * n)
  areaOf [(16, 8, rackLocal o.a), (28, 1, c.d), (29, 1, c.osel), (30, 1, (atomRet c).isSome.toNat), (32, 8, cut o.b),
    (40, 8, if c.osel = 0x14 then cut (g.reg 15) else 0)]

/-- ATOM (R95, R96, R141, R160, R178, R566). One that this block performs for itself waits, not issued, while its atomic
unit is full or holds its line (R166, R179). -/
def doAtom (f : Nat) (s : State) : State :=
  withCmd f 0x30 true (fun c o _ s =>
    let plot := (getFur s f).plot
    checked f c ([regCheck s c o] ++ targetChecks s o.a ++ [(o.a.toNat % atomSize c.d != 0, 0x121)]) (fun s =>
      let p := { mkPkt s plot (rackEp o.a) 0x16 0 none (atomArea (getFur s f) c o) [] with src := selfNode s }
      let own := ownTarget s o.a
      if own && mapped s (rackLocal o.a) && (lineBusy s p || atomsFull s) then s
      else
        let tid := nextTid s f
        let s := issueOut f c 1 (atomRet c) s
        if own then
          if !mapped s (rackLocal o.a) then ownUnmapped f tid plot s
          else startJob { pkt := p, plot := plot, self := some (f, tid), ret := atomRet c } s
        else
          packetSeg (.cmd f tid) plot (rackEp o.a) none (fun _ =>
            { pkt := p, who := .atom f tid (atomRet c) (atomSize c.d), plot := plot, reply := 64 })
            (dropLines (lineBase o.a.toNat) 1 s)) s) s

/-- A TADD at issue names another endpoint: it is outstanding (R76). -/
def taddOut (s : State) (f : Nat) : Bool :=
  match atIssue s f 0x41 with
  | some r => !(e64 s && decide ((operands (getFur s f) r.cmd).b.toNat = selfNode s))
  | none => false

/-- TADD (R98). -/
def doTadd (f : Nat) (s : State) : State :=
  withCmd f 0x41 (taddOut s f) (fun c o _ s =>
    let plot := (getFur s f).plot
    checked f c [regCheck s c o, rowCheck s f c, (!tallyOk s plot c.id false, 0x130)] (fun s =>
      if e64 s ∧ o.b.toNat = selfNode s then issueNow f c (addTally plot c.id o.a s)
      else
        let tid := nextTid s f
        packetSeg (.cmd f tid) plot (o.b.toNat % 512) c.row (fun _ =>
          { pkt := mkPkt s plot (o.b.toNat % 512) 0x17 0 c.row (areaOf [(24, 2, c.id), (32, 8, o.a.toNat)]) [],
            who := .tadd f tid, plot := plot, ack := true }) (issueOut f c 1 none s)) s) s

/-- The trace record of a MARK (R483). -/
def markRecord (s : State) (f : Nat) (c : Cmd) (a : DWord) : BitVec 256 :=
  let g := getFur s f
  BitVec.ofNat 256 (leNat (leBytes 8 s.sun.time ++ leBytes 2 c.layer ++ leBytes 2 c.oper ++ leBytes 8 a.toNat
    ++ leBytes 2 f ++ leBytes 1 g.plot ++ [0] ++ leBytes 4 (g.nextSeq % 2 ^ 24) ++ List.replicate 4 0))

/-- A record enters the trace ring (R483): one that overwrites a record that to_marl has still to flush is counted. -/
def pushTrace (w : BitVec 256) (s : State) : State :=
  let o := s.obs
  if !bitAt o.trcCtl 0 then s
  else
    let lost := bitAt o.trcCtl 1 && decide (2048 ≤ (o.trcProd - BitVec.ofNat 32 o.trcFlushed).toNat)
    { s with obs := { o with
        trc := o.trc.set (o.trcProd.toNat % 2048) w, trcProd := o.trcProd + 1,
        trcFlushed := if lost then (o.trcFlushed + 1) % 2 ^ 32 else if bitAt o.trcCtl 1 then o.trcFlushed else (o.trcProd.toNat + 1) % 2 ^ 32,
        trcLost := if lost then satInc 0xFFFFFFFF o.trcLost else o.trcLost } }

/-- MARK (R105, R483). -/
def doMark (f : Nat) (s : State) : State :=
  withCmd f 0x7E false (fun c o _ s => issueNow f c (pushTrace (markRecord s f c o.a) s)) s

/-- The header of a DUMP entry (R484). -/
def dumpHeader (s : State) (f : Nat) (c : Cmd) (o : Opnd) : List Byte :=
  let g := getFur s f
  takePad 128 (leBytes 8 o.b.toNat ++ leBytes 4 o.len ++ leBytes 1 c.d ++ [0] ++ leBytes 2 c.layer ++ leBytes 2 c.oper
    ++ leBytes 2 f ++ leBytes 1 g.plot ++ List.replicate 3 0 ++ leBytes 8 s.sun.time ++ leBytes 4 (g.nextSeq % 2 ^ 24))

/-- Where a DUMP's entry goes in the area (R484, R485): the place of the padding header, if any, the entry's place and
where the next begins; none when it does not fit. One line always stays free, so that a full area does not read as an empty
one (log 49). -/
def dumpPlace (s : State) (len : Nat) : Option (Option Nat × Nat × Nat) :=
  let o := s.obs
  let e := 128 + len
  if o.dumpSize = 0 then none
  else
    let wrap := decide (o.dumpSize < o.dumpRes + e)
    let pad := if wrap then o.dumpSize - o.dumpRes else 0
    let used := (o.dumpRes + o.dumpSize - o.dumpHead % o.dumpSize) % o.dumpSize
    if used + pad + e + 128 ≤ o.dumpSize then
      let start := if wrap then 0 else o.dumpRes
      some (if wrap then some o.dumpRes else none, start, (start + e) % o.dumpSize)
    else none

/-- The entry of a DUMP and the place that it reserves (R484). -/
def dumpEntry (s : State) (f : Nat) (c : Cmd) (o : Opnd) (pad : Option Nat) (start next : Nat) : DumpEnt :=
  { id := s.obs.dumpNext, f := f, tid := nextTid s f, pad := pad, start := start, next := next, header := dumpHeader s f c o,
    src := o.a.toNat, len := o.len, plot := (getFur s f).plot, err := if mappedRange s o.a.toNat o.len then none else some 0x210 }

/-- The place of a DUMP's entry is reserved (R484). -/
def dumpReserve (e : DumpEnt) (s : State) : State :=
  { s with obs := { s.obs with dumpRes := e.next, dumpNext := e.id + 1, dumpPend := s.obs.dumpPend ++ [e] } }

/-- A DUMP's source is read, when its lines are mapped (R180, R484). -/
def dumpFetch (e : DumpEnt) (s : State) : State :=
  if e.err = none then startRead e.plot (lineAddrs e.src (e.len / 128)) (.dump e.id) s
  else pushFin (.rd (.dump e.id) true []) (noteOwn 0x210 e.plot s)

/-- DUMP (R105, R484, R485). -/
def doDump (f : Nat) (s : State) : State :=
  withCmd f 0x7F true (fun c o _ s =>
    checked f c [regCheck s c o, (!localOk o.a, 0x123), (o.a.toNat % 128 != 0, 0x121),
        (decide (o.len < 128 ∨ 16777216 < o.len), 0x111), (o.len % 128 != 0, 0x122)] (fun s =>
      match dumpPlace s o.len with
      | none =>
        note 0x930 (some (getFur s f).plot) .furrow f { issueOut f c 0 none s with
          obs := { (issueOut f c 0 none s).obs with dumpLost := satInc 0xFFFFFFFF s.obs.dumpLost } }
      | some (pad, start, next) =>
        dumpFetch (dumpEntry s f c o pad start next) (dumpReserve (dumpEntry s f c o pad start next) (issueOut f c 1 none s))) s) s

/-- The padding header at the end of the area (R484). -/
def padHeader : List Byte := takePad 128 (leBytes 8 (2 ^ 64 - 1))

/-- A DUMP's source is read: its entry goes into the area. After a source read that failed the entry is its header alone
and the command ends in error (R180; log 49). -/
def dumpRead (id : Nat) (err : Bool) (ls : List Line) (s : State) : State :=
  match s.obs.dumpPend.find? (fun e => e.id == id) with
  | none => s
  | some e =>
    let code := match e.err with | some c => some c | none => if err then some 0x221 else none
    let s := { s with obs := { s.obs with dumpPend := s.obs.dumpPend.map (fun x => if x.id = id then { x with err := code } else x) } }
    let pads := match e.pad with
      | some a => lineWrs (s.obs.dumpBase + a) [lineOf padHeader]
      | none => []
    let ws := pads ++ lineWrs (s.obs.dumpBase + e.start) (lineOf e.header :: (if err then [] else ls))
    if mappedRange s s.obs.dumpBase s.obs.dumpSize then startWrite e.plot none ws (.dump id) s
    else pushFin (.wr (.dump id) true) s

/-- The tail passes the entries that are done, in order. -/
def advanceTail : List DumpEnt → Nat → List DumpEnt × Nat
  | [], t => ([], t)
  | e :: r, t => if e.done then advanceTail r e.next else (e :: r, t)

/-- A DUMP's entry is written: the tail passes it and the command ends (R484, R485). -/
def dumpWritten (id : Nat) (err : Bool) (s : State) : State :=
  match s.obs.dumpPend.find? (fun e => e.id == id) with
  | none => s
  | some e =>
    let pend := s.obs.dumpPend.map (fun x => if x.id = id then { x with done := true } else x)
    let (rest, tail) := advanceTail pend s.obs.dumpTail
    let code := match e.err with | some c => some c | none => if err then some 0x221 else none
    partDone e.f e.tid code false { s with obs := { s.obs with dumpPend := rest, dumpTail := tail } }

end Sys2Proof.Machine
end

