-- ==== Sys2Proof/Machine/Moves.lean ====
section
/-! DEFINITION. COPY, PUT, GET and FILL (R92-R94, R141, R155-R160, R169, R170, R566). -/

namespace Sys2Proof.Machine

/-- The operand checks that the four transfers share, after the address forms given (R74, R92). -/
def moveChecks (s : State) (f : Nat) (c : Cmd) (o : Opnd) (forms : List (Bool × Nat)) (aligned : List DWord) :
    List (Bool × Nat) :=
  [regCheck s c o, rowCheck s f c, (!tallyOk s (getFur s f).plot c.id true, 0x130)] ++ forms
    ++ [(aligned.any (fun a => a.toNat % 128 != 0), 0x121), lenCheck o, (o.len % 128 != 0, 0x122)]

/-- A transfer's segments are dealt to the engines and its command is outstanding until all have completed (R156). -/
def issueMove (f : Nat) (c : Cmd) (segs : List Seg) (s : State) : State :=
  activateAll (pushSegs segs (issueOut f c segs.length none s))

/-- The segment that a transfer's segments are cut from. -/
def moveSeg (s : State) (f : Nat) (c : Cmd) (o : Opnd) : Seg :=
  { owner := .cmd f (nextTid s f), kind := .put, lines := o.len / 128, tally := c.id, plot := (getFur s f).plot, vol := c.fV,
    row := c.row }

/-- A transfer from local memory to a rack address (R92, R159). -/
def putSegs (s : State) (f : Nat) (c : Cmd) (o : Opnd) : List Seg :=
  let g := { moveSeg s f c o with src := rackLocal o.a, dst := rackLocal o.b, far := rackEp o.b }
  dealSegs s (f % engineCount s)
    (if e64 s && rackEp o.b == selfNode s then { g with kind := .local, row := none, wrErr := 0x211 } else g)

/-- A transfer from a rack address to local memory (R92, R159). -/
def getSegs (s : State) (f : Nat) (c : Cmd) (o : Opnd) : List Seg :=
  let g := { moveSeg s f c o with src := rackLocal o.a, dst := rackLocal o.b, far := rackEp o.a }
  dealSegs s (f % engineCount s)
    (if e64 s && rackEp o.a == selfNode s then { g with kind := .local, row := none, rdErr := 0x211 }
     else { g with kind := .get })

/-- The block's copies of the lines that a write names are gone when it issues (R141). -/
def dropDest (o : Opnd) (s : State) : State := dropLines (lineBase o.b.toNat) (o.len / 128) s

/-- PUT (R92, R93). -/
def doPut (f : Nat) (s : State) : State :=
  withCmd f 0x21 true (fun c o _ s =>
    checked f c (moveChecks s f c o [(!rackOk o.b, 0x120), (!localOk o.a, 0x123)] [o.a, o.b]) (fun s =>
      issueMove f c (putSegs s f c o) (dropDest o s)) s) s

/-- The lines of a GET that the cache serves, and one that an upset spoils (R140, R146, R491). -/
def lookupLines (f : Nat) (c : Cmd) (o : Opnd) (u : Upset) (s : State) : State :=
  let plot := (getFur s f).plot
  if c.fV || !e64 s then s
  else
    let lines := lineAddrs o.a.toNat (o.len / 128)
    let hits := lines.filter (fun a => (cacheHit s plot a).isSome)
    let s := match hits, u with
      | a :: _, .sram => cacheUpset plot a s
      | _, _ => s
    countSrc 0xD plot (lines.length - hits.length) (countSrc 0xC plot hits.length s)

/-- GET (R92, R93, R169). -/
def doGet (f : Nat) (u : Upset) (s : State) : State :=
  withCmd f 0x22 true (fun c o _ s =>
    checked f c (moveChecks s f c o [(!rackOk o.a, 0x120), (!localOk o.b, 0x123)] [o.a, o.b]) (fun s =>
      issueMove f c (getSegs s f c o) (if rackEp o.a = selfNode s then s else lookupLines f c o u s)) s) s

/-- FILL (R92, R93). -/
def doFill (f : Nat) (s : State) : State :=
  withCmd f 0x23 true (fun c o _ s =>
    checked f c (moveChecks s f c o [(!rackOk o.b, 0x120)] [o.b]) (fun s =>
      let g := { moveSeg s f c o with kind := .fill, dst := rackLocal o.b, far := rackEp o.b, pattern := o.a }
      let own := e64 s && rackEp o.b == selfNode s
      issueMove f c (dealSegs s (f % engineCount s)
        (if own then { g with kind := .localFill, row := none, wrErr := 0x211 } else g)) (dropDest o s)) s) s

/-- The copy requests of a third-party COPY: first line and count of each (R170). -/
def copyCuts : Nat → Nat → Nat → Nat → List (Nat × Nat)
  | 0, _, _, _ => []
  | k + 1, dst, first, left =>
    if left = 0 then []
    else
      let n := min left (512 - (dst / 128 + first) % 512)
      (first, n) :: copyCuts k dst (first + n) (left - n)

/-- The segments of a third-party COPY: one copy request each (R156, R170). -/
def copySegs (s : State) (f : Nat) (c : Cmd) (o : Opnd) : List Seg :=
  let g := { moveSeg s f c o with kind := .packet, far := rackEp o.a, runs := [(0, 1)], left := 1 }
  let cuts := copyCuts (o.len / 128) (rackLocal o.b) 0 (o.len / 128)
  (cuts.zipIdx).map (fun x =>
    let id := s.xfer.nextId + x.2
    let area := areaOf [(16, 8, rackLocal o.a + 128 * x.1.1), (24, 2, c.id), (28, 2, x.1.2), (30, 1, c.fV.toNat),
      (32, 8, o.b.toNat + 128 * x.1.1)]
    { g with
      eng := dealEngine s (f % engineCount s) x.2, lines := x.1.2,
      ready := [(0, some { pkt := mkPkt s g.plot g.far 0x15 0 c.row area [], who := .seg id 0, plot := g.plot, reply := 64 })] })

/-- COPY, by where its operands point (R160, R170). -/
def doCopy (f : Nat) (u : Upset) (s : State) : State :=
  withCmd f 0x20 true (fun c o _ s =>
    checked f c (moveChecks s f c o [(!rackOk o.a || !rackOk o.b, 0x120), (!e64 s, 0x123)] [o.a, o.b]) (fun s =>
      let me := selfNode s
      if rackEp o.a = me ∧ rackEp o.b = me then
        let g := { moveSeg s f c o with kind := .local, src := rackLocal o.a, dst := rackLocal o.b, far := me, row := none,
                                        rdErr := 0x211, wrErr := 0x211 }
        issueMove f c (dealSegs s (f % engineCount s) g) s
      else if rackEp o.a = me then issueMove f c (putSegs s f c o) (dropDest o s)
      else if rackEp o.b = me then issueMove f c (getSegs s f c o) (lookupLines f c o u s)
      else issueMove f c (copySegs s f c o) s) s) s

end Sys2Proof.Machine
end

