-- ==== Sys2Proof/Machine/Flow.lean ====
section
/-! DEFINITION. Control flow, register, synchronisation and signal commands of a furrow (R84-R90, R97-R101, R145). -/

namespace Sys2Proof.Machine

/-- A command that completes when it issues and does nothing else. -/
def doNop (f : Nat) (s : State) : State := withCmd f 0x00 false (fun c _ _ s => issueNow f c s) s

/-- The number of commands of an image slot. -/
def imgCount (s : State) (slot : Nat) : Nat := ((getImg s slot).map (fun i => i.cmds.length)).getD 0

/-- The code of a bad target at a signed offset from a place: backward in a ring, outside an image (R84). -/
def targetBad (s : State) (p : Place) (off : Int) : Nat :=
  if p.inImage then
    let t := (p.idx : Int) + off
    if t < 0 ∨ (imgCount s p.slot : Int) ≤ t then 0x141 else 0
  else if off < 1 then 0x140 else 0

/-- Fetch moves to the command at an offset from a place (R84). -/
def jumpTo (f : Nat) (p : Place) (off : Int) (s : State) : State :=
  if p.inImage then modFur f (goTo { p with idx := ((p.idx : Int) + off).toNat }) s
  else modFur f (ringForward (off.toNat - 1)) s

/-- JUMP (R84). -/
def doJump (f : Nat) (s : State) : State :=
  withCmd f 0x01 false (fun c o p s =>
    let bad := targetBad s p o.a.toInt
    checked f c [regCheck s c o, (bad != 0, bad)] (fun s => jumpTo f p o.a.toInt (issueNow f c s)) s) s

/-- BRANCH: the target is checked whether or not it is taken (R84). -/
def doBranch (f : Nat) (s : State) : State :=
  withCmd f 0x02 false (fun c o p s =>
    let bad := targetBad s p o.a.toInt
    let taken := (getFur s f).preds.getLsbD (c.b.toNat % 8) != c.b.getLsbD 3
    checked f c [regCheck s c o, (bad != 0, bad)] (fun s =>
      let s := issueNow f c s
      if taken then jumpTo f p o.a.toInt s else s) s) s

/-- LOOP: the body is fetched next (R85). -/
def doLoop (f : Nat) (s : State) : State :=
  withCmd f 0x03 false (fun c o _ s =>
    checked f c [regCheck s c o, (decide (2 ^ 32 ≤ o.a.toNat), 0x111), (decide (o.b = 0 ∨ 16 < o.b.toNat), 0x143)] (fun s =>
      modFur f (fun g => { g with loop := { need := o.b.toNat, iters := o.a.toNat, drop := o.a == 0 } }) (issueNow f c s)) s) s

/-- An image slot may be called by a plot (R86). -/
def callable (s : State) (slot plot : Nat) : Bool :=
  match getImg s slot with
  | none => false
  | some i => i.shared || i.plot == plot

/-- CALL (R86). The ring's prefetched commands wait for the return. -/
def doCall (f : Nat) (s : State) : State :=
  withCmd f 0x04 false (fun c o p s =>
    let g := getFur s f
    let slot := fld o.a 0 6
    let entry := fld o.a 8 32
    checked f c [(decide (4 ≤ g.stack.length), 0x144), (!callable s slot g.plot, 0x145),
        (decide (imgCount s slot ≤ entry), 0x141)] (fun s =>
      let back : Place := if p.inImage then { p with idx := p.idx + 1 } else {}
      modFur f (fun g => { g with
        stack := g.stack ++ [back], held := if p.inImage then g.held else g.held ++ g.prefetch, prefetch := [],
        pc := { inImage := true, slot := slot, idx := entry } }) (issueNow f c s)) s) s

/-- RETURN (R86). -/
def doRet (f : Nat) (s : State) : State :=
  withCmd f 0x05 false (fun c _ _ s =>
    let g := getFur s f
    checked f c [(g.stack.isEmpty, 0x146)] (fun s =>
      let back := g.stack.getLastD {}
      modFur f (fun g => { g with
        stack := g.stack.dropLast, pc := back, prefetch := if back.inImage then [] else g.held,
        held := if back.inImage then g.held else [] }) (issueNow f c s)) s) s

/-- HALT: nothing more issues; the furrow enters Halted when it retires (R87). -/
def doHalt (f : Nat) (s : State) : State :=
  withCmd f 0x06 false (fun c _ _ s => modFur f (fun g => { g with halting := true }) (issueNow f c s)) s

/-- BREAK (R88). -/
def doBrk (f : Nat) (s : State) : State :=
  withCmd f 0x07 false (fun c o _ s =>
    modFur f (fun g => { g with faultSeq := setFld g.faultSeq 0 16 (o.a.toNat % 65536) })
      (stopFur f .brk (issueNow f c s))) s

/-- SETI (R89). -/
def doSeti (f : Nat) (s : State) : State :=
  withCmd f 0x10 false (fun c o _ s => modFur f (fun g => g.setReg c.d o.a) (issueNow f c s)) s

/-- ADDI (R89). -/
def doAddi (f : Nat) (s : State) : State :=
  withCmd f 0x11 false (fun c o _ s =>
    checked f c [regCheck s c o] (fun s => modFur f (fun g => g.setReg c.d (g.reg c.d + o.a)) (issueNow f c s)) s) s

/-- MOVG (R89). -/
def doMovg (f : Nat) (s : State) : State :=
  withCmd f 0x12 false (fun c _ _ s =>
    modFur f (fun g => g.setReg c.d (g.reg (c.a.toNat % 16))) (issueNow f c s)) s

/-- CMP (R89, R90). -/
def doCmp (f : Nat) (s : State) : State :=
  withCmd f 0x13 false (fun c o _ s =>
    checked f c [regCheck s c o] (fun s =>
      modFur f (fun g => { g with preds := setBit g.preds c.d (cmpHolds c.osel (g.reg (c.a.toNat % 16)) o.b) })
        (issueNow f c s)) s) s

/-- TWAIT issues once its tally has reached its target (R97, R122). A tally that cannot be read faults its plot (R154). -/
def doTwait (f : Nat) (u : Upset) (s : State) : State :=
  withCmd f 0x40 false (fun c o _ s =>
    let plot := (getFur s f).plot
    checked f c [regCheck s c o, (!tallyOk s plot c.id false, 0x130)] (fun s =>
      if u = Upset.tally then raiseEv { code := 0x261, level := .l2, plot := some plot, kind := .furrow, unit := f } s
      else if tallyReached (getTally s plot c.id) o.a then issueNow f c s else waitOn f .twait s) s) s

/-- A TWAIT that has waited for its limit fails (R97). -/
def twaitExpiry (f : Nat) (s : State) : State :=
  match atIssue s f 0x40 with
  | none => s
  | some r =>
    let g := getFur s f
    match g.waitSince with
    | some t =>
      if g.state = .waiting ∧ g.wait = .twait ∧ passed s t (g.twLimit * 1000)
          ∧ !tallyReached (getTally s g.plot r.cmd.id) (operands g r.cmd).a then failCmd f r.cmd 0x160 s
      else s
    | none => s

/-- TSET (R98). -/
def doTset (f : Nat) (s : State) : State :=
  withCmd f 0x42 false (fun c o _ s =>
    let plot := (getFur s f).plot
    checked f c [regCheck s c o, (!tallyOk s plot c.id false, 0x130)] (fun s =>
      setTally plot c.id o.a (issueNow f c s)) s) s

/-- FENCE issues once every earlier command has completed; on E64 it also gives up the plot's cached lines (R99, R145). -/
def doFence (f : Nat) (s : State) : State :=
  withCmd f 0x43 false (fun c _ _ s =>
    let g := getFur s f
    if g.issued.any (fun i => !i.done) then waitOn f .fence s
    else if e64 s then
      if mayAdvance s g.plot then advanceEpoch g.plot (issueNow f c s) else waitOn f .fence s
    else issueNow f c s) s

/-- SIGNAL of a kind. -/
def withSignal (f kind : Nat) (k : Cmd → Opnd → State → State) (s : State) : State :=
  withCmd f 0x44 false (fun c o _ s => if c.osel = kind then k c o s else s) s

/-- SIGNAL kind 0x00: a count joins another furrow's producer index (R58, R100). -/
def doSignal (f : Nat) (s : State) : State :=
  withSignal f 0 (fun c o s =>
    let n := fld o.a 0 9
    checked f c [regCheck s c o,
        (decide (furrowCount s ≤ n) || (getFur s n).plot != (getFur s f).plot, 0x151),
        (decide (o.b = 0 ∨ 65536 < o.b.toNat), 0x111)] (fun s =>
      signalFur n (o.b.setWidth 32) (issueNow f c s)) s) s

/-- SIGNAL kind 0x01: an event for the owner (R100, R401). -/
def doSignalPost (f : Nat) (s : State) : State :=
  withSignal f 1 (fun c o s =>
    checked f c [regCheck s c o] (fun s =>
      postEvent (o.a.toNat % 65536) f (getFur s f).plot (issueNow f c s)) s) s

/-- SUNWAIT issues once the Sundial reads its time (R101). -/
def doSunwait (f : Nat) (s : State) : State :=
  withCmd f 0x45 false (fun c o _ s =>
    checked f c [regCheck s c o, (decide (s.sun.time + 10000000000 < o.a.toNat), 0x161)] (fun s =>
      if o.a.toNat ≤ s.sun.time then issueNow f c s else waitOn f .sunwait s) s) s

end Sys2Proof.Machine
end

