-- ==== Sys2Proof/Machine/Beds.lean ====
section
/-! DEFINITION. Beds: descriptors, ranks, routes, the cutting of a step into chunks, stripes and parts (R184-R193, R202,
R206, R220, R257, R267, R272, R281). -/

namespace Sys2Proof.Machine

/-- The numbers of the set bits of a mask, ascending. -/
def bitsOf (n m : Nat) : List Nat := (List.range n).filter (fun i => m.testBit i)

/-- The members of a bed in rank order (R187). -/
def Desc.ranks (d : Desc) : List Nat := bitsOf 512 d.members.toNat
/-- The number of members. -/
def Desc.n (d : Desc) : Nat := d.ranks.length
/-- The rank of an endpoint. -/
def Desc.rankOf (d : Desc) (e : Nat) : Nat := (d.ranks.filter (fun x => decide (x < e))).length
/-- The endpoint of a rank. -/
def Desc.member (d : Desc) (r : Nat) : Nat := d.ranks.getD r 0
/-- The planes of a bed, ascending (R192). -/
def Desc.planeList (d : Desc) : List Nat := bitsOf 32 d.planes
/-- The node of entry `i mod k` of the bed's planes (R192). -/
def Desc.planeAt (d : Desc) (i : Nat) : Nat := 512 + d.planeList.getD (i % d.planeList.length) 0
/-- The ranks of the members on a board. -/
def Desc.onBoard (d : Desc) (b : Nat) : List Nat := (List.range d.n).filter (fun r => boardOf (d.member r) == b)
/-- All members lie on one board (R190). -/
def Desc.oneBoard (d : Desc) : Bool := (d.ranks.map boardOf).eraseDups.length == 1
/-- The members form whole boards (R190). -/
def Desc.wholeBoards (d : Desc) : Bool :=
  ((d.ranks.map boardOf).eraseDups).all (fun b => (d.onBoard b).length == 8)

/-- This endpoint's rank in a bed. -/
def myRank (s : State) (d : Desc) : Nat := d.rankOf (selfNode s)

/-- The three routes (R190). -/
inductive Route where
  | board | boardFirst | direct
  deriving DecidableEq, Repr

/-- The number of a route in HRW_BED_STATE (R220). -/
def Route.code (r : Route) : Nat := match r with | .board => 0 | .boardFirst => 1 | .direct => 2

/-- A dense reduction: REDUCE, ALLRED or REDSCAT. -/
def isReduce (op : Nat) : Bool := op == 0x52 || op == 0x53 || op == 0x54
/-- A data-movement command: ALLGATH, BCAST, SHIFT or PERMUTE. -/
def isMove (op : Nat) : Bool := decide (0x55 ≤ op ∧ op ≤ 0x58)
/-- A command whose data is cut into chunks and stripes. -/
def isDense (op : Nat) : Bool := isReduce op || isMove op
/-- SREDUCE or TOPK. -/
def isSparse (op : Nat) : Bool := op == 0x60 || op == 0x61

/-- The route of a command on a bed (R190, R257, R267, R272, R281). -/
def routeOf (d : Desc) (c : CCmd) : Route :=
  if d.oneBoard then .board
  else if isReduce c.op && !d.direct && d.wholeBoards && c.fmt ∈ [0x05, 0x06, 0x10, 0x11, 0x12] then .boardFirst
  else .direct

/-- The bytes of a full stripe (R191, R225). -/
def stripeBytes (c : CCmd) : Nat :=
  if isMove c.op then 32768
  else if isMx c.fmt then 4 * tileBytes c.fmt
  else if fmtBits c.fmt = 4 then 8192
  else if fmtBits c.fmt = 8 then 16384
  else 32768

/-- The bytes of a route's data: the members' buffers end to end in rank order for ALLGATH, SHIFT and PERMUTE, one buffer
for the rest (R191, R194; log 52). -/
def streamBytes (d : Desc) (c : CCmd) : Nat :=
  if c.op = 0x55 ∨ c.op = 0x57 ∨ c.op = 0x58 then d.n * c.len else c.len

/-- The stripes of a step, of all chunks (R191). -/
def stripeCount (d : Desc) (c : CCmd) : Nat := ceilDiv (streamBytes d c) (stripeBytes c)

/-- The chunk numbers that a step takes (R192, R258, R267): one for every command that is not cut into chunks (log 53). -/
def chunkCount (d : Desc) (c : CCmd) : Nat := if isDense c.op then ceilDiv (stripeCount d c) 32 else 1

/-- A half-open range of bytes. -/
structure Span where
  lo : Nat
  hi : Nat
  deriving DecidableEq, Repr

/-- The bytes of a range. -/
def Span.len (x : Span) : Nat := x.hi - x.lo
/-- The common part of two ranges. -/
def Span.cap (x y : Span) : Span := { lo := max x.lo y.lo, hi := min x.hi y.hi }

/-- The bytes of a stripe of a chunk, in the step's data. -/
def stripeSpan (d : Desc) (c : CCmd) (k stripe : Nat) : Span :=
  let lo := (32 * k + stripe) * stripeBytes c
  { lo := lo, hi := min (streamBytes d c) (lo + stripeBytes c) }

/-- Part `j` of `b` of a stripe on the board route: equal parts of whole units, the remainder to the last (R193; log 54
for an MX format). -/
def equalPart (c : CCmd) (x : Span) (j b : Nat) : Span :=
  let u := if isMove c.op then 128 else unitBytes c.fmt
  let each := x.len / u / b * u
  { lo := x.lo + j * each, hi := if j + 1 = b then x.hi else x.lo + (j + 1) * each }

/-- The eighth `j` of a stripe (R193). -/
def eighth (c : CCmd) (x : Span) (j : Nat) : Span :=
  x.cap { lo := x.lo + j * (stripeBytes c / 8), hi := x.lo + (j + 1) * (stripeBytes c / 8) }

/-- The receiver of rank `q`'s buffer under SHIFT (R203). -/
def shiftTo (d : Desc) (p q : Nat) : Nat :=
  if p.testBit 9 then (q + d.n - p % 512) % d.n else (q + p % 512) % d.n

/-- The part of the step's data that a rank's buffer holds. -/
def ownSpan (c : CCmd) (r : Nat) : Span :=
  if c.op = 0x55 ∨ c.op = 0x57 ∨ c.op = 0x58 then { lo := r * c.len, hi := (r + 1) * c.len }
  else if c.op = 0x56 then (if r = c.p % 512 then { lo := 0, hi := c.len } else { lo := 0, hi := 0 })
  else { lo := 0, hi := c.len }

/-- The rank that receives rank `q`'s buffer under SHIFT or PERMUTE, when this block knows it: PERMUTE's from the step-ready
flit of `q` or from the own command (R203, R206). -/
def targetOf (s : State) (b : Bed) (st : CStep) (q : Nat) : Option Nat :=
  if st.cmd.op = 0x57 then some (shiftTo b.desc st.cmd.p q)
  else if e64 s && q == myRank s b.desc then some (st.cmd.p % 512)
  else (b.ready.lookup (st.num, q)).map (fun r => r.cmd.p % 512)

/-- The ranges of a stripe that a node serves (R192, R193, R207): at a plane the whole stripe, at an owner its part, at the
receiver of a board-route SHIFT or PERMUTE its senders' bytes. `first` names the board phase of the board-first route. -/
def servedSpans (s : State) (b : Bed) (st : CStep) (node k stripe : Nat) : List Span :=
  let d := b.desc
  let x := stripeSpan d st.cmd k stripe
  if x.hi ≤ x.lo then []
  else
    let one := fun y : Span => if y.hi ≤ y.lo then [] else [y]
    match routeOf d st.cmd with
    | .board =>
      if 512 ≤ node then []
      else if st.cmd.op = 0x57 ∨ st.cmd.op = 0x58 then
        ((List.range d.n).filter (fun q => targetOf s b st q == some (d.rankOf node))).flatMap (fun q =>
          one (x.cap (ownSpan st.cmd q)))
      else one (equalPart st.cmd x (d.rankOf node) d.n)
    | .boardFirst =>
      if 512 ≤ node then (if d.planeAt (stripe + (st.c0 + k) % 2 ^ 32) = node then [x] else [])
      else one (eighth st.cmd x (node % 8))
    | .direct => if 512 ≤ node ∧ d.planeAt (stripe + (st.c0 + k) % 2 ^ 32) = node then [x] else []

/-- The ranks whose raw bytes go to a node in this step: its own board's in a board phase, everyone's else. -/
def rawRanks (d : Desc) (c : CCmd) (node : Nat) : List Nat :=
  match routeOf d c with
  | .boardFirst => if 512 ≤ node then [] else d.onBoard (boardOf node)
  | _ => List.range d.n

/-- What rank `r` has to send to a node for a stripe: the range in the step's data, within the range that the node serves
(R198, R203). At a plane of the board-first route each owner sends its part. -/
def sendSpans (s : State) (b : Bed) (st : CStep) (node k stripe r : Nat) : List (Span × Span) :=
  let d := b.desc
  (servedSpans s b st node k stripe).filterMap (fun x =>
    let y := if routeOf d st.cmd = .boardFirst ∧ 512 ≤ node then eighth st.cmd x (d.member r % 8)
      else if r ∈ rawRanks d st.cmd node then x.cap (ownSpan st.cmd r) else { lo := 0, hi := 0 }
    if y.hi ≤ y.lo then none else some (x, y))

/-- The stripes of a slot: one at a plane, eight at an E64 (R193). -/
def groupStripes (node group : Nat) : List Nat :=
  if 512 ≤ node then [group] else (List.range 8).map (fun i => 8 * group + i)

/-- The entries of a list of planes or ranks that serve: node of index `i` among the servers of a step (R192, R257, R267,
R272, R281). -/
def serverAt (d : Desc) (i : Nat) : Nat := if d.oneBoard then d.member (i % d.n) else d.planeAt i

/-- The parts of a COMBINE row (R281). -/
def rowParts (c : CCmd) (rowBytes : Nat) : Nat := ceilDiv rowBytes (stripeBytes c)

/-- The tokens of a COMBINE, from its length (R280). -/
def combTokens (st : CStep) : Nat :=
  let w := outFmt st.cmd.fmt st.cmd.sel
  let rowOut := if w = st.cmd.fmt then st.moe.rowBytes else elemsOf st.cmd.fmt st.moe.rowBytes * 4
  st.cmd.len / max 1 rowOut

/-- The items of a node in the order of R281: token, source rank, part. -/
def itemsOf (d : Desc) (st : CStep) (node : Nat) : List (Nat × Nat × Nat) :=
  (List.range (combTokens st)).flatMap (fun t =>
    ((List.range d.n).filter (fun r => serverAt d (r + t) == node)).flatMap (fun r =>
      (List.range (rowParts st.cmd st.moe.rowBytes)).map (fun q => (t, r, q))))

/-- The experts that a node serves, ascending (R272): on the board route an expert's own home. -/
def expertsOf (d : Desc) (m : Moe) (node : Nat) : List Nat :=
  (List.range m.experts).filter (fun e => (if d.oneBoard then d.member (e % d.n) else d.planeAt e) == node)

/-- The slots that a node allocates for a step, in order, each by chunk and group (R193, R196, R258, R267, R272, R281). -/
def stepSlots (s : State) (b : Bed) (st : CStep) (node : Nat) : List (Nat × Nat) :=
  let d := b.desc
  if isDense st.cmd.op then
    (List.range st.nc).flatMap (fun k =>
      ((List.range (if 512 ≤ node then 32 else 4)).filter (fun g =>
        (groupStripes node g).any (fun x => !(servedSpans s b st node k x).isEmpty))).map (fun g => (k, g)))
  else if isSparse st.cmd.op then
    ((List.range 32).filter (fun j => serverAt d j == node)).map (fun j => (0, j))
  else if st.cmd.op = 0x59 then (if serverAt d st.c0 = node then [(0, 0)] else [])
  else if st.cmd.op = 0x62 then (if st.moeKnown && !(expertsOf d st.moe node).isEmpty then [(0, 0)] else [])
  else if st.moeKnown then (itemsOf d st node).zipIdx.map (fun x => (0, x.2)) else []

/-- Every node that serves a step of the bed: planes, or members. -/
def serversOf (d : Desc) (c : CCmd) (me : Nat) : List Nat :=
  match routeOf d c with
  | .board => d.ranks
  | .boardFirst => ((d.onBoard (boardOf me)).map d.member) ++ d.planeList.map (fun p => 512 + p)
  | .direct => d.planeList.map (fun p => 512 + p)

/-- The bytes that bytes of input become under an op (R226). -/
def outBytes (c : CCmd) (n : Nat) : Nat :=
  if isMove c.op ∨ outFmt c.fmt c.sel = c.fmt then n else elemsOf c.fmt n * 4

/-- Section size q of an index space (R257). -/
def sectQ (space : Nat) : Nat := 32 * ceilDiv space 1024

/-- The bytes Z of a result section (R260). -/
def sectZ (c : CCmd) (space : Nat) : Nat :=
  ceilDiv (128 + sectQ space * max (fmtBits (outFmt c.fmt c.sel) / 8) 2) 128 * 128

/-- The bytes that land on a member for a step (R203, R204, R261, R264, R265, R280); `rank` is the member's. -/
def dueBytes (d : Desc) (st : CStep) (rank : Nat) : Nat :=
  let c := st.cmd
  match c.op with
  | 0x52 => if rank = c.p % 512 then outBytes c c.len else 0
  | 0x54 => outBytes c c.len / d.n
  | 0x55 => d.n * c.len
  | 0x60 => 32 * sectZ c st.space
  | 0x61 => ceilDiv (128 + 8 * (c.p % 8192)) 128 * 128
  | 0x62 => 0
  | 0x63 => c.len
  | 0x56 | 0x57 | 0x58 => c.len
  | _ => outBytes c c.len

/-- The step of a bed by its number. -/
def findStep (b : Bed) (num : Nat) : Option CStep := b.steps.find? (fun st => st.num == num)

/-- A step of a bed changed. -/
def modStep (c num : Nat) (g : CStep → CStep) (s : State) : State :=
  modBed c (fun b => { b with steps := b.steps.map (fun st => if st.num = num then g st else st) }) s

/-- `a` is at or behind `b` in a 32-bit wrapping order. -/
def atOrBefore (a b : Nat) : Bool := decide (seqDist a b < 2 ^ 31)

/-- The horizon that this block knows for a serving node exceeds a chunk (R197). -/
def granted (s : State) (b : Bed) (node chunk : Nat) : Bool :=
  let h := if node = selfNode s then b.granted else b.horizon.getD node 0
  h != chunk % 2 ^ 32 && atOrBefore chunk h

/-- The aborted step at or before a step, with its code (R216, R217). -/
def abortedAt (a : Option (Nat × Nat × Bool)) (num : Nat) : Option (Nat × Bool) :=
  match a with
  | some (n, code, outside) => if atOrBefore n num then some (code, outside) else none
  | none => none

end Sys2Proof.Machine
end

