-- ==== Sys2Proof/Machine/CollOps.lean ====
section
/-! DEFINITION. What every collective step shares: its packets, its pieces of work, landings, aborts and completion
(R189, R195-R203, R214-R217, R324, R352). -/

namespace Sys2Proof.Machine

/-- The flags of byte 19 of the collective area (R324). -/
structure AreaFlags where
  last : Bool := false
  result : Bool := false
  loam : Bool := false
  deriving DecidableEq, Repr

/-- The collective area (R324) and the kind's own fields behind it. -/
def collArea (b : Bed) (step chunk stripe rank idx first : Nat) (fl : AreaFlags) (rest : List (Nat × Nat × Nat)) :
    BitVec 352 :=
  areaOf ([(16, 2, b.desc.bed), (18, 1, b.desc.gen),
    (19, 1, stripe % 32 + fl.last.toNat * 32 + fl.result.toNat * 64 + fl.loam.toNat * 128), (20, 4, step), (24, 4, chunk),
    (28, 2, rank % 512 + idx % 128 * 512), (30, 2, first)] ++ rest)

/-- A packet of a bed (R322): its sequence number is zero (R434). -/
def collPkt (s : State) (b : Bed) (kind vn dst : Nat) (area : BitVec 352) (payload : List Byte) : Packet :=
  mkPkt s b.plot dst kind vn none area (flitsOfBytes payload)

/-- A packet to another block joins the send queue; one to this block is delivered inside it. -/
def sendColl (who : RqFor) (plot : Nat) (p : Packet) (s : State) : State :=
  if p.dst = selfNode s then modColl (fun c => { c with inbox := c.inbox ++ [p] }) s
  else pushRq { pkt := p, who := who, plot := plot } s

/-- A flit that every receiver absorbs: it is not acknowledged (R195, R197). -/
def sendFlit (plot : Nat) (p : Packet) (s : State) : State := sendColl .once plot p s

/-- The acknowledgement of a slot-admitted packet, or its busy answer (R198, R234, R323). A packet of this block's own is
acknowledged by being taken; when it is busy it waits for its resend like any other. -/
def collAck (p : Packet) (busy : Bool) (s : State) : State :=
  if p.src = selfNode s then
    if busy then pushRq { pkt := p, who := .once, sent := true, busy := true, deep := true, at1 := s.clk } s else s
  else
    pushRq { pkt := { kind := 0x27, vn := 1, pathVn := 1, key := p.key, gen := p.gen, src := selfNode s, dst := p.src,
                      area := areaOf [(16, 16, fld p.area 0 128), (32, 1, busy.toNat)] }, who := .reply } s

/-- The unsent packets of an owner vanish and the sent ones are forgotten when answered (R167). -/
def dropRqsOf (mine : RqFor → Bool) (s : State) : State :=
  { s with xfer := { s.xfer with
      rqs := (s.xfer.rqs.filter (fun e => !(mine e.2.who && !e.2.sent))).map (fun e =>
        if mine e.2.who then (e.1, { e.2 with dead := true }) else e) } }

/-- A step-ready flit's own fields (R195, R323). -/
def readyFields (b : Bed) (c : CCmd) (m : Moe) : List (Nat × Nat × Nat) :=
  [(32, 1, c.op), (33, 1, c.fmt), (34, 1, c.sel), (36, 4, c.len), (40, 3, c.p), (44, 2, b.desc.crc), (46, 2, m.experts),
   (48, 1, m.choices), (49, 1, m.policy), (50, 2, m.cap), (52, 4, m.rowBytes), (56, 2, m.crc)]

/-- The member's step-ready flit goes to every serving block of the step (R195). -/
def sendReady (ctx : Nat) (st : CStep) (s : State) : State :=
  let b := getBed s ctx
  (serversOf b.desc st.cmd (selfNode s)).foldl (fun s node =>
    sendFlit b.plot (collPkt s b 0x30 3 node (collArea b st.num st.c0 0 (myRank s b.desc) 0 0 {}
      (readyFields b st.cmd st.moe)) []) s) s

/-- The grant of this block's horizon goes to ranks of the bed (R197). A grant that holds for its step alone, of a rank
window or of items, has the last flag set (R267, R272, R281; log 58). -/
def sendGrant (ctx step horizon : Nat) (alone : Bool) (ranks : List Nat) (s : State) : State :=
  let b := getBed s ctx
  ranks.foldl (fun s r =>
    if b.desc.member r = selfNode s then s
    else sendFlit b.plot (collPkt s b 0x31 3 (b.desc.member r) (collArea b step horizon 0 0 0 0 { last := alone } []) []) s) s

/-- A grant that holds for one step is absorbed; it never falls (R197, R263, R267, R281). -/
def stepGrant (b : Bed) (num node v : Nat) : Bed :=
  if (findStep b num).isSome || atOrBefore b.nextStep num then
    { b with stepHz := ((num, node), max v ((b.stepHz.lookup (num, node)).getD 0))
                         :: b.stepHz.filter (fun e => e.1 != (num, node)) }
  else b

/-- Work that a step will send once granted. -/
def addPieces (ctx num : Nat) (ps : List Piece) (s : State) : State :=
  modStep ctx num (fun st => { st with
    out := st.out ++ (ps.zipIdx).map (fun x => (st.nextPiece + x.2, x.1)), nextPiece := st.nextPiece + ps.length }) s

/-- A slot. -/
def getSlot (s : State) (id : Nat) : Option Slot := s.coll.slots.lookup id
/-- A slot changed. -/
def modSlot (id : Nat) (g : Slot → Slot) (s : State) : State :=
  modColl (fun c => { c with slots := c.slots.map (fun e => if e.1 = id then (id, g e.2) else e) }) s

/-- The slot of a bed's chunk and group, with its number. -/
def findSlot (s : State) (ctx step chunk group : Nat) : Option (Nat × Slot) :=
  s.coll.slots.find? (fun e => e.2.ctx == ctx && e.2.step == step && e.2.chunk == chunk && e.2.group == group)

/-- Slots leave the pool with their deep entries (R200, R234). -/
def freeSlots (gone : Slot → Bool) (s : State) : State :=
  let ids := (s.coll.slots.filter (fun e => gone e.2)).map (fun e => e.1)
  let s := dropRqsOf (fun w => match w with | .slot i => ids.contains i | _ => false) s
  modColl (fun c => { c with
    slots := c.slots.filter (fun e => !gone e.2),
    landings := c.landings.map (fun e => (e.1, { e.2 with slot := e.2.slot.filter (fun i => !ids.contains i) })),
    reserveHolder := c.reserveHolder.filter (fun i => !ids.contains i) }) s

/-- A step sends nothing more: its packets, and the payload segments of a DISPATCH, go (R167, R214). -/
def dropStep (ctx num : Nat) (s : State) : State :=
  dropSegs (fun g => g.owner == .disp ctx num) (fun r => r.who == .coll ctx num) (.coll ctx num) s

/-- A step's command ends here, in error or done; it sends nothing more once it has failed (R203, R214, R216). -/
def endStep (ctx num : Nat) (err : Option Nat) (outside : Bool) (s : State) : State :=
  match findStep (getBed s ctx) num with
  | none => s
  | some st =>
    let s := modStep ctx num (fun x => { x with live := false, stopped := x.stopped || err.isSome,
                                                out := if err.isSome then [] else x.out,
                                                busyWork := if err.isSome then 0 else x.busyWork }) s
    let s := if err.isSome then dropStep ctx num s else s
    if st.live then partDone st.f st.tid err outside s else s

/-- A bed's abort is on record (R216, R220). -/
def markAbort (ctx num code : Nat) (outside : Bool) (s : State) : State :=
  modBed ctx (fun b => { b with
    abort := match b.abort with
      | some (n, c, o) => if atOrBefore n num then some (n, c, o) else some (num, code, outside)
      | none => some (num, code, outside),
    aborted := true, abortCode := code }) s

/-- Steps from `num` on end with a code, and their slots go (R216, R217). -/
def endStepsFrom (ctx num code : Nat) (outside : Bool) (s : State) : State :=
  let nums := ((getBed s ctx).steps.filter (fun st => atOrBefore num st.num)).map (fun st => st.num)
  let s := nums.foldl (fun s n => endStep ctx n (some code) outside s) s
  freeSlots (fun x => x.ctx == ctx && atOrBefore num x.step) s

/-- The ranks missing from a slot (R213, R215): those that must send and have not been received whole. -/
def missingOf (must : List Nat) (x : Slot) : List Nat := must.filter (fun r => !x.mask.getLsbD r)

/-- A mask of ranks. -/
def rankMask (rs : List Nat) : BitVec 512 := rs.foldl (fun m r => setBit m r true) 0

/-- The ranks that must send into a slot. -/
def mustSend (s : State) (b : Bed) (st : CStep) (x : Slot) : List Nat :=
  let me := selfNode s
  let all := List.range b.desc.n
  if isDense st.cmd.op then
    let k := seqDist st.c0 x.chunk
    all.filter (fun r => (groupStripes me x.group).any (fun q => !(sendSpans s b st me k q r).isEmpty))
  else if st.cmd.op = 0x63 then []
  else all

/-- A serving block abandons a step (R215): its slots go, the Marl keeps a record, every member that was ready hears of it
and its own command fails. A code that the fault tables put at L0 is noted; one at L1 is raised by the own command's furrow;
`quiet` says that the code has been raised already (R420, R421). Work lost in a domain reset or a fence makes the own
command's fault a consequence (R415). -/
def abandonStep (ctx num code : Nat) (quiet : Bool) (s : State) : State :=
  let b := getBed s ctx
  if (abortedAt b.abort num).isSome || !b.isOpen then s
  else
    let slot := (s.coll.slots.find? (fun e => e.2.ctx == ctx && e.2.step == num)).map (fun e => e.2)
    let miss := match slot, findStep b num with
      | some x, some st => rankMask (missingOf (mustSend s b st x) x)
      | _, _ => 0
    let chunk := (slot.map (fun x => x.chunk)).getD 0
    let s := if !quiet && faultLevel code == .l0 then note code (some b.plot) .block ctx s else s
    let s := queueRec { kind := 3, time := 0, code := code, plot := some b.plot,
                        body := .stepAbort b.desc.bed b.desc.gen num chunk code miss } s
    let told := b.ready.filter (fun r => atOrBefore num r.1.1 && b.desc.member r.1.2 != selfNode s)
    let s := told.foldl (fun s r =>
      sendFlit b.plot (collPkt s b 0x26 1 (b.desc.member r.1.2)
        (collArea b r.1.1 chunk 0 r.1.2 0 0 {} [(32, 2, code)]) []) s) s
    let lost := code == 0x852 || code == 0xF13 || (quiet && code == 0x3C1)
    endStepsFrom ctx num code lost (markAbort ctx num code lost s)

/-- A duplicate is counted and acknowledged again (R198, R442). -/
def collDup (ctx : Nat) (p : Packet) (s : State) : State :=
  collAck p false (modBed ctx (fun b => { b with dup := b.dup + 1, dupWrap := b.dupWrap || b.dup == 0xFFFFFFFF }) s)

/-- The bed of an arriving packet; a packet without one is discarded (R189). -/
def onBed (plot : Nat) (p : Packet) (k : Nat → Bed → State → State) (s : State) : State :=
  match findBed s plot p.bedId with
  | none => collStale plot p.bedId s
  | some c => if (getBed s c).desc.gen = p.bedGen then k c (getBed s c) s else collStale plot p.bedId s

/-- A collective packet arrives (R421): under L3 it is discarded; its checks are those of every packet. -/
def collArrival (l : Nat) (p : Packet) (kind : Nat) (k : Nat → Packet → State → State) (s : State) : State :=
  arrival l p kind id (fun plot s => if s.flt.l3 then s else k plot p s) s

/-- Bytes of a step have landed and been counted (R200, R203). -/
def addLanded (ctx num n : Nat) (s : State) : State := modStep ctx num (fun st => { st with landed := st.landed + n }) s

/-- Result bytes go to the destination buffer; `x` is what follows once they are visible (R118, R200). -/
def land (x : Landing) (addr : Nat) (bs : List Byte) (s : State) : State :=
  let b := getBed s x.ctx
  let id := s.coll.nextId
  let s := modColl (fun c => { c with nextId := id + 1, landings := c.landings ++ [(id, x)] }) s
  if mappedRange s addr (max 1 bs.length) then
    startWrite b.plot none ((bytesWr addr bs).map (fun w => { w with bytes := 0 })) (.coll 1 id 0 0) s
  else endStep x.ctx x.step (some 0x210) false (noteOwn 0x210 b.plot
    (modColl (fun c => { c with landings := c.landings.filter (fun e => e.1 != id) }) s))

/-- The lines of a counted byte range, one count each (R152). -/
def countBytes (plot tally : Nat) : Nat → Nat → State → State
  | 0, _, s => s
  | k + 1, n, s => if n = 0 then s else countBytes plot tally k (n - 128) (countLine plot (some tally) (min 128 n) s)

/-- A section of an SREDUCE result gains bytes; when every announced byte is there, the unwritten remainder is counted in one
increment (R261). -/
def sectLand (ctx num j n : Nat) (want : Option Nat) (s : State) : State :=
  let b := getBed s ctx
  match findStep b num with
  | none => s
  | some st =>
    let x := st.sects.at j
    let y : Section := { x with got := x.got + n, want := if x.want.isSome then x.want else want }
    let full := y.want == some y.got && !x.closed
    let z := sectZ st.cmd st.space
    let s := modStep ctx num (fun st => { st with
      sects := st.sects.set j { y with closed := x.closed || full },
      landed := if full then st.landed + (z - y.got) else st.landed }) s
    if full ∧ y.got < z then addTally b.plot b.desc.landing (BitVec.ofNat 64 (z - y.got)) s else s

/-- Result bytes are visible at this block: they are counted on the landing tally, unless their step has ended in error
meanwhile, and acknowledged (R118, R152, R200, R217). -/
def landed (id : Nat) (err : Bool) (s : State) : State :=
  match s.coll.landings.lookup id with
  | none => s
  | some x =>
    let s := modColl (fun c => { c with landings := c.landings.filter (fun e => e.1 != id) }) s
    let b := getBed s x.ctx
    let s := match x.slot with
      | some i => modSlot i (fun y => { y with ownLines := y.ownLines - 1 }) s
      | none => s
    match findStep b x.step with
    | none => s
    | some st =>
      if st.stopped || !b.isOpen then s
      else if err then endStep x.ctx x.step (some 0x221) false s
      else
        let s := countBytes b.plot b.desc.landing (x.bytes + 1) x.bytes (addLanded x.ctx x.step x.bytes s)
        let s := match x.sect with
          | some (j, want) => sectLand x.ctx x.step j x.bytes want s
          | none => s
        match x.ack with
        | some p => collAck p false s
        | none => s

/-- The slot has released everything: its results are acknowledged and landed (R200). -/
def slotEmpty (s : State) (id : Nat) (x : Slot) : Bool :=
  x.done && x.wait.isEmpty && x.ownLines == 0 && !(s.xfer.rqs.any (fun e => e.2.who == .slot id && !e.2.dead))
    && !((getBed s x.ctx).steps.any (fun st => st.out.any (fun q => q.2.slot == some id)))

/-- Slots that have released everything leave the pool (R200). -/
def releaseSlots (s : State) : State :=
  let ids := (s.coll.slots.filter (fun e => slotEmpty s e.1 e.2)).map (fun e => e.1)
  if ids.isEmpty then s
  else modColl (fun c => { c with
    slots := c.slots.filter (fun e => !ids.contains e.1), reserveHolder := c.reserveHolder.filter (fun i => !ids.contains i) }) s

/-- The dispatch context of a bed (R279). -/
def findDisp (s : State) (ctx : Nat) : Option DispCtx := s.coll.disp.find? (fun d => d.ctx == ctx)
/-- A dispatch context changed. -/
def modDisp (ctx : Nat) (g : DispCtx → DispCtx) (s : State) : State :=
  modColl (fun c => { c with disp := c.disp.map (fun d => if d.ctx = ctx then g d else d) }) s

/-- The local experts of a rank (R269). -/
def localExperts (d : Desc) (m : Moe) (r : Nat) : List Nat :=
  (List.range (ceilDiv m.experts (max 1 d.n))).filter (fun j => decide (r + j * d.n < m.experts))

/-- Everything due to this member's local experts has arrived and been written (R277). -/
def dispatchHome (s : State) (ctx : Nat) (b : Bed) (st : CStep) : Bool :=
  match findDisp s ctx with
  | none => false
  | some x =>
    let js := localExperts b.desc st.moe (myRank s b.desc)
    let total := (js.map (fun j => x.filled.getD j 0)).sum
    js.all (fun j => (x.filled.find j).isSome) && (js.isEmpty || x.line0) && x.placed && x.tableDone
      && decide (x.lines = total * (st.moe.rowBytes / 128)) && decide (x.entries = total)

/-- The step's command has nothing left to do here (R203, R277, R285). -/
def stepOver (s : State) (ctx : Nat) (b : Bed) (st : CStep) : Bool :=
  st.live && !st.stopped &&
    (if e64 s then
      st.out.all (fun q => q.2.slot.isSome) && st.busyWork == 0
        && !(s.xfer.rqs.any (fun e => e.2.who == .coll ctx st.num && !e.2.dead))
        && (if st.cmd.op = 0x62 then dispatchHome s ctx b st else decide (st.landed = st.due))
    else
      (st.moeKnown || !(st.cmd.op == 0x62 || st.cmd.op == 0x63)) && st.alloc == (stepSlots s b st (selfNode s)).length
        && !(s.coll.slots.any (fun e => e.2.ctx == ctx && e.2.step == st.num)))

/-- Steps whose commands are over complete; COMBINE frees its context (R203, R279, R285). -/
def completeSteps (s : State) : State :=
  s.coll.beds.foldl (fun s e =>
    e.2.steps.foldl (fun s st0 =>
      match findStep (getBed s e.1) st0.num with
      | none => s
      | some st =>
        if stepOver s e.1 (getBed s e.1) st then
          let s := endStep e.1 st.num none false s
          if st.cmd.op = 0x63 then modColl (fun c => { c with disp := c.disp.filter (fun d => d.ctx != e.1) }) s else s
        else s) s) s

/-- The ranks whose step-ready flits come to this block for a step (R195). -/
def readyRanks (s : State) (b : Bed) (st : CStep) : List Nat :=
  if (serversOf b.desc st.cmd (selfNode s)).contains (selfNode s) then
    (if e64 s && !b.desc.oneBoard then b.desc.onBoard (boardOf (selfNode s)) else List.range b.desc.n)
  else []

/-- Steps that are over and hold nothing leave the books, once every step-ready flit has been compared (R206). -/
def dropSteps (s : State) : State :=
  s.coll.beds.foldl (fun s e =>
    let gone := fun st : CStep => !st.live && st.out.isEmpty && st.busyWork == 0
      && !(s.coll.slots.any (fun x => x.2.ctx == e.1 && x.2.step == st.num))
      && !(s.coll.landings.any (fun x => x.2.ctx == e.1 && x.2.step == st.num))
      && (st.stopped || (st.alloc == (stepSlots s e.2 st (selfNode s)).length
          && (readyRanks s e.2 st).all (fun r => (e.2.ready.lookup (st.num, r)).isSome)))
    if e.2.steps.any gone then
      modBed e.1 (fun b => { b with
        steps := b.steps.filter (fun st => !gone st),
        ready := b.ready.filter (fun r => !(b.steps.any (fun st => gone st && st.num == r.1.1))),
        stepHz := b.stepHz.filter (fun r => !(b.steps.any (fun st => gone st && st.num == r.1.1))) }) s
    else s) s

end Sys2Proof.Machine
end

