-- ==== Sys2Proof/Machine/Slots.lean ====
section
/-! DEFINITION. Slots at a serving block: receipts, accumulation, the deep pool, residue checks, completion, results and
admission (R194-R201, R206-R213, R230-R246, R250, R267, R272, R433). -/

namespace Sys2Proof.Machine

/-- The slots of the build (R194, R221). -/
def poolMax (s : State) : Nat := if e64 s then 32 else 1152

/-- The bank groups that hold slots, and the slots of each (R433). -/
def slotBanks (s : State) : List (Nat × Nat) := if e64 s then [(1, 32)] else [(1, 384), (2, 384), (3, 384)]

/-- A slot bank group serves: it is not fenced, and the owner has not switched it off (R432, R549). -/
def bankLive (s : State) (b : Nat) : Bool := !s.flt.fencedBank.getLsbD b && !(getDom s (bankDom s b)).ownerOff

/-- The slots in the pool: HRW_POOL_CFG, less the groups that do not serve (R221, R432, R549). -/
def poolSlots (s : State) : Nat :=
  min (s.coll.poolCfg.getD (poolMax s)) (((slotBanks s).filter (fun b => bankLive s b.1)).map (fun b => b.2)).sum

/-- Slots that a bed holds. -/
def slotsHeld (s : State) (ctx : Nat) : Nat := (s.coll.slots.filter (fun e => e.2.ctx == ctx)).length

/-- Slots neither reserved nor held (R221). -/
def poolFree (s : State) : Nat :=
  poolSlots s - (s.coll.beds.map (fun e => if e.2.isOpen then max e.2.resv (slotsHeld s e.1) else 0)).sum

/-- A live bank group with room for one more slot. -/
def freeBank (s : State) : Option Nat :=
  ((slotBanks s).find? (fun b => bankLive s b.1
    && decide ((s.coll.slots.filter (fun e => e.2.bank == b.1)).length < b.2))).map (fun b => b.1)

/-- The deep entries of the build (R234); 512 of them are the reserve. -/
def deepTotal (s : State) : Nat := if e64 s then 768 else 2048

/-- Deep entries held (R248). -/
def deepUsed (s : State) : Nat := (s.coll.slots.map (fun e => e.2.deep)).sum

/-- Deep entries held that are not the reserve's. -/
def deepPlain (s : State) : Nat := (s.coll.slots.map (fun e => e.2.deep - e.2.deepRes)).sum

/-- A slot takes `m` deep entries: how many of them from the reserve, or none when the block cannot give them (R234). The
reserve goes to the earliest slot that has waited. -/
def deepTake (s : State) (id : Nat) (x : Slot) (m : Nat) : Option Nat :=
  let room := deepTotal s - 512 - deepPlain s
  if m ≤ room then some 0
  else
    let mine : Bool := match s.coll.reserveHolder with
      | some h => h == id
      | none => s.coll.slots.all (fun e => !e.2.deepWait || decide (id ≤ e.1))
    if mine && decide (x.deepRes + (m - room) ≤ 512) then some (m - room) else none

/-- HRW_ERR captures the first error (R248). -/
def hrwErr (code slice ctx : Nat) (s : State) : State :=
  if s.coll.hrwErr.valid then s
  else modColl (fun c => { c with hrwErr := { code := code, unit := slice, ctx := ctx, valid := true } }) s

/-- SIV_ERR captures the first error (R288). -/
def sivErr (code unit ctx rank : Nat) (s : State) : State :=
  if s.coll.sivErr.valid then s
  else modColl (fun c => { c with sivErr := { code := code, unit := unit, ctx := ctx, rank := rank, valid := true } }) s

/-- The slices of the build (R222). -/
def sliceCount (s : State) : Nat := if e64 s then 4 else 32

/-- Unfenced slices, ascending. -/
def liveSlices (s : State) : List Nat := (List.range (sliceCount s)).filter (fun i => !s.coll.sliceFence.getLsbD i)

/-- The residue checks of a contribution (R244): a retry that passes is counted and noted; a third mismatch fences the
slice and its operands move; without a live slice the step is abandoned. `k` goes on with the contribution. -/
def residue (ctx num : Nat) (u : Upset) (k : State → State) (s : State) : State :=
  let s := match u with
    | .residue slice fails =>
      if fails = 0 ∨ !(liveSlices s).contains slice then s
      else
        let n := min fails 2
        let s := if fails < 3 then
            note 0x401 none .slice slice (modColl (fun c => { c with
              resRetry := c.resRetry + BitVec.ofNat 32 n,
              retryWrap := c.retryWrap || decide (2 ^ 32 ≤ c.resRetry.toNat + n) }) s)
          else note 0x402 none .slice slice (modColl (fun c => { c with sliceFence := setBit c.sliceFence slice true }) s)
        hrwErr (if fails < 3 then 0x401 else 0x402) slice ctx s
    | _ => s
  if (liveSlices s).isEmpty then abandonStep ctx num 0x403 false (hrwErr 0x403 0 ctx s) else k s

/-- A bank group is fenced (R432, R433): steps that hold slots there are abandoned, and beds retake their reservations, in
ascending context, from the live groups; the steps of a bed for which there is no room abort. -/
def fenceBank (b : Nat) (s : State) : State :=
  let s := { s with flt := { s.flt with fencedBank := setBit s.flt.fencedBank b true } }
  let s := (s.coll.slots.filter (fun e => e.2.bank == b)).foldl (fun s e => abandonStep e.2.ctx e.2.step 0xF13 true s) s
  (s.coll.beds.foldl (fun (a : Nat × State) e =>
    let need := max e.2.resv (slotsHeld a.2 e.1)
    if !e.2.isOpen || decide (a.1 + need ≤ poolSlots a.2) then (a.1 + need, a.2)
    else (a.1, e.2.steps.foldl (fun s x => abandonStep e.1 x.num 0xF13 true s) (modBed e.1 (fun y => { y with resv := 0 }) a.2)))
    (0, s)).2

/-- A bank group fails for the fourth time within a second (R432). -/
def bankError (b : Nat) (s : State) : State :=
  let ts := s.clk :: (s.flt.bankErrs.getD b []).filter (fun t => decide (s.clk < t + 1000000000))
  let s := { s with flt := { s.flt with bankErrs := s.flt.bankErrs.set b ts } }
  if 4 ≤ ts.length ∧ !s.flt.fencedBank.getLsbD b then fenceBank b (note 0xF13 none .bank b s) else s

/-- A word of a slot is uncorrectable: its step is abandoned and its bank group counts the error (R246, R432). -/
def slotUpset (ctx num bank : Nat) (s : State) : State := bankError bank (abandonStep ctx num 0x410 false (hrwErr 0x410 0 ctx s))

/-- Elements join groups: (group, element, value, code). -/
def foldVals (op : Nat) (wide : Bool) : List (Nat × Nat × HVal × Nat) → Tbl HGroup → Tbl HGroup
  | [], t => t
  | (g, e, v, c) :: r, t => foldVals op wide r (t.set g ((t.at g).add op wide e v c))

/-- How many groups a table has in deep loam. -/
def escCount (t : Tbl HGroup) : Nat := t.count (fun g => g.esc)

/-- A contribution that needs deep entries gets them, or is answered busy (R234). `k` goes on with what it accumulates. -/
def withDeep (id : Nat) (x : Slot) (groups : Tbl HGroup) (busy k : State → State) (s : State) : State :=
  let m := escCount groups - escCount x.groups
  if m = 0 then k (modSlot id (fun y => { y with groups := groups }) s)
  else match deepTake s id x m with
    | none =>
      busy (modSlot id (fun y => { y with deepWait := true }) s)
    | some res =>
      let s := modSlot id (fun y => { y with groups := groups, deep := y.deep + m, deepRes := y.deepRes + res, deepWait := false }) s
      let s := modColl (fun c => { c with
        escCnt := c.escCnt + BitVec.ofNat 32 m, escWrap := c.escWrap || decide (2 ^ 32 ≤ c.escCnt.toNat + m),
        reserveHolder := if 0 < res then some id else c.reserveHolder, deepPeak := max c.deepPeak (deepUsed s) }) s
      k s

/-- The Harrow is busy for a number of contributions to groups, each of `quarters` quarter lanes (R242, R491): 64 times as long in an
escalated group, twice as long under scaled-sum. The manual lets any unfenced slice serve; the cluster of the lowest one counts
(log 95). -/
def lanesBusy (op quarters : Nat) (keys : List Nat) (groups : Tbl HGroup) (s : State) : State :=
  let esc := (keys.filter (fun g => (groups.at g).esc)).length
  let cycles := fun (n : Nat) => ceilDiv (n * quarters) 4 * (if op = 4 ∨ op = 5 then 2 else 1)
  let c := (liveSlices s).headD 0 / 4
  countSrc 7 c (cycles (keys.length - esc) + 64 * cycles esc) (countSrc 8 c (64 * cycles esc) s)

/-- Elements of a contribution join a slot's groups (R230, R234). -/
def foldIn (id : Nat) (x : Slot) (op fmt : Nat) (vals : List (Nat × Nat × HVal × Nat)) (busy k : State → State) (s : State) : State :=
  withDeep id x (foldVals op (wideFmt fmt) vals x.groups) busy
    (fun s => k (lanesBusy op (fmtBits fmt / 4) (vals.map (fun v => v.1)) ((getSlot s id).elim [] (fun y => y.groups)) s)) s

/-- A packet is answered with a busy acknowledgement (R234). -/
def busyAck (p : Packet) (s : State) : State :=
  collAck p true (modColl (fun c => { c with
    deepBusy := c.deepBusy + 1, busyWrap := c.busyWrap || c.deepBusy == 0xFFFFFFFF }) s)

/-- The values of bytes at an element of a stripe, with their groups (R230). -/
def placeVals (fmt stripe e0 : Nat) (bs : List Byte) : List (Nat × Nat × HVal × Nat) :=
  let codes := if isMx fmt then [] else codesOf (fmtBits fmt) bs
  ((valsOf fmt bs).zipIdx).map (fun v =>
    (stripe * 1024 + (e0 + v.2) / 32, (e0 + v.2) % 32, v.1, codes.getD v.2 0))

/-- The bytes that a packet of rank `r` with an index carries: the cell of the served range that it names, as far as the
rank's own bytes reach (R198). -/
def cellSpan (s : State) (b : Bed) (st : CStep) (node k stripe r idx : Nat) : Option (Span × Span) :=
  ((sendSpans s b st node k stripe r).map (fun y =>
    (y.1, y.2.cap { lo := y.1.lo + 1024 * idx, hi := y.1.lo + 1024 * (idx + 1) }))).find? (fun y => decide (y.2.lo < y.2.hi))

/-- Every packet index of a rank's stripe has come, up to the last one (R198). -/
def stripeWhole (x : Slot) (r stripe first : Nat) : Bool :=
  match x.lasts.lookup (r, stripe) with
  | none => false
  | some n => (List.range (n + 1 - first)).all (fun i => x.got.contains (r, stripe, first + i))

/-- A packet is on the receipt map (R198). -/
def stampSlot (s : State) (p : Packet) (x : Slot) : Slot :=
  { x with
    got := (p.rank, p.stripe, p.pidx) :: x.got,
    lasts := if p.lastFlag then ((p.rank, p.stripe), p.pidx) :: x.lasts else x.lasts,
    first := if x.first.isSome then x.first else some s.sun.time,
    since := if x.first.isSome then x.since else s.clk }

/-- A rank's contribution is whole (R198, R213). -/
def markRank (s : State) (r : Nat) (x : Slot) : Slot :=
  if x.mask.getLsbD r then x else { x with mask := setBit x.mask r true, order := x.order ++ [(r, s.sun.time)] }

/-- The laggard registers take a completed slot (R213, R220). -/
def takeLag (ctx : Nat) (x : Slot) (s : State) : State :=
  match x.order.getLast?, x.first with
  | some (r, t), some t0 =>
    let d := min (t - t0) 0xFFFFFFFF
    modBed ctx (fun b =>
      let g := b.lag
      let worse := !g.valid || decide (g.worstNs < d)
      { b with lag := { last := r, lastNs := d, worst := if worse then r else g.worst,
                        worstNs := if worse then d else g.worstNs, valid := true } }) s
  | _, _ => s

/-- A result for a rank: its offset, stripe, index, last flag and bytes. -/
structure ResPart where
  rank : Nat
  offset : Nat
  stripe : Nat
  idx : Nat
  last : Bool
  bytes : List Byte
  deriving DecidableEq, Repr

/-- Result bytes for a rank cut into packets of up to 1 KiB (R200); `cell` is their place in the served piece's result. -/
def cutResult (rank offset stripe cell : Nat) : Nat → List Byte → List ResPart
  | 0, _ => []
  | k + 1, bs =>
    if bs.isEmpty then []
    else
      let n := 1024 - cell % 1024
      let rest := bs.drop n
      { rank := rank, offset := offset, stripe := stripe, idx := cell / 1024 % 96, last := rest.isEmpty, bytes := bs.take n }
        :: cutResult rank (offset + n) stripe (cell + n) k rest

/-- The bytes that the header line of an SREDUCE section announces, its own among them (R260). -/
def sectWant (c : CCmd) (head : List Byte) : Nat :=
  let g := fun i n => leNat ((head.drop i).take n)
  let w := fmtBits (outFmt c.fmt c.sel) / 8
  let body := if (g 1 1).testBit 0 then min (sectQ (g 8 4)) (g 8 4 - g 16 4) * w else g 4 4 * 8
  128 + ceilDiv body 128 * 128

/-- What a result packet of an SREDUCE means to its section: its header line is the packet with the last flag (R260). -/
def sectOf (c : CCmd) (stripe : Nat) (last : Bool) (bs : List Byte) : Option (Nat × Option Nat) :=
  if c.op = 0x60 then some (stripe, if last then some (sectWant c bs) else none) else none

/-- Results leave a slot (R200, R201): own lines land here, the others go out, or wait for their receiver's step-ready. -/
def sendResults (id : Nat) (x : Slot) (st : CStep) (kind : Nat) (rs : List ResPart) (s : State) : State :=
  rs.foldl (fun s r =>
    let b := getBed s x.ctx
    if b.desc.member r.rank = selfNode s ∧ e64 s then
      land { ctx := x.ctx, step := x.step, bytes := r.bytes.length, slot := some id,
             sect := sectOf st.cmd r.stripe r.last r.bytes } (st.b + r.offset) r.bytes
        (modSlot id (fun y => { y with ownLines := y.ownLines + 1 }) s)
    else
      let rank := if e64 s then myRank s b.desc else 0
      let p := collPkt s b kind 3 (b.desc.member r.rank)
        (collArea b x.step x.chunk r.stripe rank r.idx 0 { last := r.last, result := true } [(32, 8, r.offset)]) r.bytes
      if (b.ready.lookup (x.step, r.rank)).isSome then sendColl (.slot id) b.plot p s
      else modSlot id (fun y => { y with wait := y.wait ++ [(r.rank, p)] }) s) s

/-- The ranges of a piece's result that ranks receive, each with its offset there (R203). -/
def receivers (s : State) (b : Bed) (st : CStep) (x : Span) : List (Nat × Nat × Span) :=
  let d := b.desc
  let all := List.range d.n
  match st.cmd.op with
  | 0x52 => [(st.cmd.p % 512, x.lo, x)]
  | 0x54 =>
    let z := outBytes st.cmd st.cmd.len / d.n
    all.filterMap (fun r =>
      let y := x.cap { lo := r * z, hi := (r + 1) * z }
      if y.hi ≤ y.lo then none else some (r, y.lo - r * z, y))
  | 0x57 | 0x58 =>
    all.filterMap (fun q =>
      let y := x.cap (ownSpan st.cmd q)
      if y.hi ≤ y.lo then none else (targetOf s b st q).map (fun r => (r, y.lo - q * st.cmd.len, y)))
  | _ => all.map (fun r => (r, x.lo, x))

/-- The elements of a stripe from element `e0` on, valued (R236, R238, R239). -/
def valuesAt (x : Slot) (op fmt stripe e0 n : Nat) : List HVal :=
  (List.range n).map (fun i => (x.groups.at (stripe * 1024 + (e0 + i) / 32)).value op fmt ((e0 + i) % 32))

/-- The result bytes of a served range of a dense slot: reduced and rounded once, or the staged bytes (R199, R203). -/
def pieceResult (x : Slot) (st : CStep) (stripe : Nat) (full y : Span) : List Byte :=
  if isMove st.cmd.op then
    let cells := (x.staged.filter (fun e => e.1.2.1 == stripe)).map (fun e => (e.1.2.2 * 1024 * 1024 + e.1.1, e.2))
    ((cells.foldl (fun (t : Tbl (List Byte)) c => t.set c.1 c.2) []).map (fun e => e.2)).flatten
  else
    let e0 := elemsOf st.cmd.fmt (y.lo - full.lo)
    encodeVals (outFmt st.cmd.fmt st.cmd.sel) st.cmd.sel
      (valuesAt x st.cmd.sel st.cmd.fmt stripe e0 (elemsOf st.cmd.fmt y.len))

/-- The results of a complete dense slot. -/
def denseResults (s : State) (b : Bed) (st : CStep) (x : Slot) : List ResPart :=
  let me := selfNode s
  let k := seqDist st.c0 x.chunk
  (groupStripes me x.group).flatMap (fun q =>
    (servedSpans s b st me k q).flatMap (fun y =>
      let full := stripeSpan b.desc st.cmd k q
      let bs := pieceResult x st q full y
      let lo := outBytes st.cmd y.lo
      (receivers s b st { lo := lo, hi := lo + bs.length }).flatMap (fun r =>
        cutResult r.1 r.2.1 q (r.2.2.lo - lo) (r.2.2.len / 1024 + 2) ((bs.drop (r.2.2.lo - lo)).take r.2.2.len))))

/-- A complete part-group of the board-first route goes on to the planes in loam form (R235). -/
def loamPieces (s : State) (b : Bed) (st : CStep) (id : Nat) (x : Slot) : List Piece :=
  let me := selfNode s
  let k := seqDist st.c0 x.chunk
  let op := st.cmd.sel
  let wide := wideFmt st.cmd.fmt
  (groupStripes me x.group).flatMap (fun q =>
    (servedSpans s b st me k q).flatMap (fun y =>
      let full := stripeSpan b.desc st.cmd k q
      let e0 := elemsOf st.cmd.fmt (y.lo - full.lo)
      let e1 := e0 + elemsOf st.cmd.fmt y.len
      let node := b.desc.planeAt (q + x.chunk)
      let grp := fun g => (x.groups.at (q * 1024 + g)).asSums op st.cmd.fmt
      let ps := loamPackets wide grp e1 (e1 - e0 + 1) e0
      (ps.zipIdx).map (fun p =>
        let recs := (p.1.2.1.zipIdx).map (fun r => (32 + 7 * r.2, 7, r.1))
        { server := node, chunk := x.chunk, stripe := q, slot := some id,
          pkt := some (collPkt s b 0x33 3 node
            (collArea b x.step x.chunk q (myRank s b.desc) p.2 p.1.1 { last := p.2 + 1 == ps.length, loam := true } recs)
            p.1.2.2) })))

/-- A slot whose member mask is full rounds once and sends its results (R199, R213). -/
def completeSlot (id : Nat) (s : State) : State :=
  match getSlot s id with
  | none => s
  | some x =>
    let b := getBed s x.ctx
    match findStep b x.step with
    | none => s
    | some st =>
      if x.done || !isDense st.cmd.op || !((mustSend s b st x).all (fun r => x.mask.getLsbD r)) then s
      else
        let s := takeLag x.ctx x (modSlot id (fun y => { y with done := true }) s)
        if routeOf b.desc st.cmd = .boardFirst ∧ e64 s then addPieces x.ctx x.step (loamPieces s b st id x) s
        else sendResults id x st 0x34 (denseResults s b st x) s

/-- The ranks of the stripes of a slot that are now whole (R198). -/
def rankWhole (s : State) (b : Bed) (st : CStep) (x : Slot) (r : Nat) : Bool :=
  let me := selfNode s
  let k := seqDist st.c0 x.chunk
  (groupStripes me x.group).all (fun q =>
    (sendSpans s b st me k q r).all (fun y =>
      stripeWhole x r q (if routeOf b.desc st.cmd = .boardFirst ∧ !e64 s then 0 else (y.2.lo - y.1.lo) / 1024)))

/-- The receipt of a packet is complete: it is acknowledged and may complete its rank and its slot (R198, R199). -/
def receipt (id : Nat) (p : Packet) (s : State) : State :=
  let s := modSlot id (stampSlot s p) s
  match getSlot s id with
  | none => s
  | some x =>
    let b := getBed s x.ctx
    match findStep b x.step with
    | none => s
    | some st =>
      let s := if rankWhole s b st x p.rank then modSlot id (markRank s p.rank) s else s
      completeSlot id (collAck p false s)

/-- The number of a step's slot that a packet goes to. -/
def slotGroup (s : State) (st : CStep) (p : Packet) : Nat :=
  if isDense st.cmd.op then (if e64 s then p.stripe / 8 else p.stripe)
  else if isSparse st.cmd.op then p.stripe
  else if st.cmd.op = 0x63 then p.chunkNo else 0

/-- The chunk number of a slot, as packets name it: the item number under COMBINE (R281; log 53). -/
def slotOf (s : State) (ctx : Nat) (st : CStep) (p : Packet) : Option (Nat × Slot) :=
  findSlot s ctx st.num (if st.cmd.op = 0x63 then st.c0 else p.chunkNo) (slotGroup s st p)

/-- A slot-admitted packet at its serving block (R189, R198, R217): a packet of a slot that is gone or that has its receipt is
a duplicate; `k` takes a fresh one. -/
def admitted (plot : Nat) (p : Packet) (k : Nat → CStep → Nat → Slot → State → State) (s : State) : State :=
  onBed plot p (fun ctx b s =>
    if (abortedAt b.abort p.stepNo).isSome then s
    else
      let gone := fun s => if atOrBefore p.chunkNo b.granted ∧ p.chunkNo ≠ b.granted then collDup ctx p s else s
      match findStep b p.stepNo with
      | none => gone s
      | some st =>
        match slotOf s ctx st p with
        | none => if st.cmd.op = 0x63 then (if p.chunkNo < st.alloc then collDup ctx p s else s) else gone s
        | some (id, x) => if x.got.contains (p.rank, p.stripe, p.pidx) then collDup ctx p s else k ctx st id x s) s

/-- A contribution at its serving block: it is staged, or joins the accumulators, and is acknowledged (R198, R203, R237). -/
def takeContribution (plot : Nat) (p : Packet) (u : Upset) (s : State) : State :=
  admitted plot p (fun ctx st id x s =>
    let b := getBed s ctx
    let me := selfNode s
    if u = Upset.sram then slotUpset ctx st.num x.bank s
    else if st.cmd.op = 0x59 then
      let y := stampSlot s p { x with staged := ((p.rank, 0, p.pidx), (p.bytes).take (st.cmd.len - 1024 * p.pidx)) :: x.staged }
      collAck p false (modSlot id (fun _ => if stripeWhole y p.rank 0 0 then markRank s p.rank y else y) s)
    else if !isDense st.cmd.op then s
    else
      let k := seqDist st.c0 x.chunk
      match cellSpan s b st me k p.stripe p.rank p.pidx with
      | none => s
      | some (piece, cell) =>
        let bs := (p.bytes).take cell.len
        let key := (p.rank, p.stripe, p.pidx)
        let stage := modSlot id (fun y => { y with staged := (key, bs) :: y.staged })
        if isMove st.cmd.op then receipt id p (stage s)
        else residue ctx st.num u (fun s =>
          let full := stripeSpan b.desc st.cmd k p.stripe
          let fold := fun (lo : Nat) (bs : List Byte) s =>
            foldIn id x st.cmd.sel st.cmd.fmt (placeVals st.cmd.fmt p.stripe (elemsOf st.cmd.fmt (lo - full.lo)) bs)
              (busyAck p) (receipt id p) s
          if isMx st.cmd.fmt then
            let y := stampSlot s p x
            if stripeWhole y p.rank p.stripe 0 then
              let mine := (x.staged.filter (fun e => e.1.1 == p.rank && e.1.2.1 == p.stripe)).foldl
                (fun (t : Tbl (List Byte)) e => t.set e.1.2.2 e.2) [(p.pidx, bs)]
              fold piece.lo (mine.map (fun e => e.2)).flatten s
            else receipt id p (stage s)
          else fold cell.lo bs s) s) s

/-- The words of a loam-form partial join a plane's groups (R235, R246), with the bytes left over and the element after the
last: none when a word lies outside its record. -/
def foldLoam (op fmt : Nat) (wide : Bool) (stripe first stop : Nat) (recs : List HGroup) :
    Nat → Nat → List Byte → Tbl HGroup → Option (Tbl HGroup × Nat × Nat)
  | 0, e, bs, t => some (t, bs.length, e)
  | k + 1, e, bs, t =>
    if stop ≤ e ∨ first / 32 + 4 ≤ e / 32 then some (t, bs.length, e)
    else
      let g := recs.getD (e / 32 - first / 32) {}
      let n := wordBytes wide g
      if bs.length < n then some (t, bs.length, e)
      else
        let (w, cls, ok) := loamRead wide g (bs.take n)
        if !ok then none
        else
          let key := stripe * 1024 + e / 32
          foldLoam op fmt wide stripe first stop recs k (e + 1) (bs.drop n)
            (t.set key ((t.at key).merge op fmt wide g (e % 32) w cls))

/-- A loam-form partial at its plane (R235, R246). -/
def takePartial (plot : Nat) (p : Packet) (u : Upset) (s : State) : State :=
  admitted plot p (fun ctx st id x s =>
    let b := getBed s ctx
    if u = Upset.sram then slotUpset ctx st.num x.bank s
    else residue ctx st.num u (fun s =>
      let k := seqDist st.c0 x.chunk
      let full := stripeSpan b.desc st.cmd k p.stripe
      let part := eighth st.cmd full (b.desc.member p.rank % 8)
      let stop := elemsOf st.cmd.fmt (part.hi - full.lo)
      let first := p.ar 30 2 % 2 ^ 14
      let recs := (List.range 4).map (fun i => recordOf (p.ar (32 + 7 * i) 7))
      match foldLoam st.cmd.sel st.cmd.fmt (wideFmt st.cmd.fmt) p.stripe first stop recs 97 first ((p.bytes).take 960) x.groups with
      | some (gs, left, past) =>
        let wide := wideFmt st.cmd.fmt
        let keys := (List.range (past - first)).map (fun i => p.stripe * 1024 + (first + i) / 32)
        if left < 64 then withDeep id x gs (busyAck p) (fun s =>
          receipt id p (lanesBusy st.cmd.sel (if wide then 40 else 20) keys gs s)) s
        else abandonStep ctx st.num 0x420 false (hrwErr 0x420 0 ctx s)
      | none => abandonStep ctx st.num 0x420 false (hrwErr 0x420 0 ctx s)) s) s

/-- A step-ready flit is compared with the block's own command, or with the first one's dispatch fields (R206, R278): zero, or
the code. -/
def readyMismatch (b : Bed) (st : CStep) (r : ReadyInfo) : Nat :=
  let c := st.cmd
  let sameP := c.op == 0x58 || r.cmd.p == c.p
  if r.cmd.op ≠ c.op ∨ r.cmd.fmt ≠ c.fmt ∨ r.cmd.sel ≠ c.sel ∨ r.cmd.len ≠ c.len % 2 ^ 32 ∨ !sameP then 0x312
  else if r.crc ≠ b.desc.crc % 65536 then 0x313
  else if st.moeKnown && (c.op == 0x62 || c.op == 0x63) then
    (if ({ r.moe with crc := st.moe.crc } : Moe) ≠ st.moe then 0x312 else if r.moe.crc ≠ st.moe.crc then 0x313 else 0)
  else 0

/-- Two senders of a PERMUTE name one receiver (R206). -/
def permClash (s : State) (b : Bed) (st : CStep) : Bool :=
  st.cmd.op == 0x58 &&
    (let ts := (List.range b.desc.n).filterMap (targetOf s b st)
     ts.length != ts.eraseDups.length)

/-- The flits of a step that this block holds are checked against its command (R206, R278). -/
def checkReady (ctx num : Nat) (s : State) : State :=
  let b := getBed s ctx
  match findStep b num with
  | none => s
  | some st =>
    let mine := b.ready.filter (fun r => r.1.1 == num)
    let s := match mine with
      | r :: _ =>
        if !st.moeKnown && (st.cmd.op == 0x62 || st.cmd.op == 0x63) && !e64 s then
          modStep ctx num (fun x => { x with moe := r.2.moe, moeKnown := true }) s
        else s
      | [] => s
    let b := getBed s ctx
    match findStep b num with
    | none => s
    | some st =>
      match (mine.map (fun r => readyMismatch b st r.2)).find? (fun c => c != 0) with
      | some code => abandonStep ctx num code false s
      | none => if permClash s b st then abandonStep ctx num 0x314 false s else s

/-- Results that waited for a rank's step-ready go out (R201). -/
def releaseWaiting (ctx num rank : Nat) (s : State) : State :=
  (s.coll.slots.filter (fun e => e.2.ctx == ctx && e.2.step == num)).foldl (fun s e =>
    let plot := (getBed s ctx).plot
    let go := e.2.wait.filter (fun w => w.1 == rank)
    let s := modSlot e.1 (fun y => { y with wait := y.wait.filter (fun w => w.1 != rank) }) s
    go.foldl (fun s w => sendColl (.slot e.1) plot w.2 s) s) s

/-- The content of a step-ready flit (R206): the command, the descriptor's CRC and the dispatch settings. -/
def readyInfo (p : Packet) : ReadyInfo :=
  { cmd := { op := p.ar 32 1, fmt := p.ar 33 1, sel := p.ar 34 1, len := p.ar 36 4, p := p.ar 40 3 % 2 ^ 17 },
    crc := p.ar 44 2,
    moe := { experts := p.ar 46 2, choices := p.ar 48 1, policy := p.ar 49 1, cap := p.ar 50 2,
             rowBytes := p.ar 52 4, crc := p.ar 56 2 } }

/-- A step-ready flit is absorbed into its bed context and compared (R195, R201, R206). A flit for a step that has aborted is
answered with the notice again. -/
def takeReady (plot : Nat) (p : Packet) (s : State) : State :=
  onBed plot p (fun ctx b s =>
    if (b.ready.lookup (p.stepNo, p.rank)).isSome then s
    else
      let s := modBed ctx (fun b => { b with ready := b.ready ++ [((p.stepNo, p.rank), readyInfo p)] }) s
      match abortedAt b.abort p.stepNo with
      | some (code, false) =>
        if p.src = selfNode s then s
        else sendFlit b.plot (collPkt s b 0x26 1 p.src
          (collArea b p.stepNo p.chunkNo 0 p.rank 0 0 {} [(32, 2, code)]) []) s
      | _ => releaseWaiting ctx p.stepNo p.rank (checkReady ctx p.stepNo s)) s

/-- A grant flit is absorbed; it never lowers a horizon (R197, R442). One with the last or the result flag holds for its
step alone (R263, R267, R272, R281; log 58). -/
def takeGrant (plot : Nat) (p : Packet) (s : State) : State :=
  onBed plot p (fun ctx _ s =>
    modBed ctx (fun b =>
      if p.lastFlag || (p.ar 19 1).testBit 6 then stepGrant b p.stepNo p.src p.chunkNo
      else if atOrBefore (b.horizon.getD p.src 0) p.chunkNo then { b with horizon := b.horizon.set p.src p.chunkNo }
      else b) s) s

/-- Sieve units of the build (R249). -/
def unitCount (s : State) : Nat := if e64 s then 1 else 4
/-- Unfenced Sieve units, ascending. -/
def liveUnits (s : State) : List Nat := (List.range (unitCount s)).filter (fun u => !s.coll.sivFence.getLsbD u)

/-- A command that needs a Sieve unit (R250). -/
def usesSieve (op : Nat) : Bool := decide (0x59 ≤ op ∧ op ≤ 0x63)

/-- The unit of a step (R250); a unit that the owner switched off serves none (R549). -/
def unitFor (s : State) (num : Nat) : Option Nat :=
  match (liveUnits s)[num % (liveUnits s).length]? with
  | some u => if (getDom s (sieveDom s u)).ownerOff then none else some u
  | none => none

/-- The domains that the allocation of a slot for a step needs (R548): every Harrow cluster, and the step's Sieve unit. -/
def allocDoms (s : State) (st : CStep) : List Nat :=
  (if e64 s then [11] else (List.range 8).map (fun c => 76 + c))
    ++ (if usesSieve st.cmd.op then (match unitFor s st.num with | some u => [sieveDom s u] | none => []) else [])

/-- The owner has switched a Harrow cluster off: no slots (R549). -/
def harrowOff (s : State) : Bool :=
  (if e64 s then [11] else (List.range 8).map (fun c => 76 + c)).any (fun d => (getDom s d).ownerOff)

/-- A step still needs its Sieve unit here. -/
def unitHeld (s : State) (ctx : Nat) (b : Bed) (st : CStep) : Bool :=
  st.unit.isSome && !st.stopped && (st.alloc != (stepSlots s b st (selfNode s)).length
    || s.coll.slots.any (fun e => e.2.ctx == ctx && e.2.step == st.num && !e.2.done))

/-- The units that are serving a step (R288). -/
def busyUnits (s : State) : List Nat :=
  (s.coll.beds.flatMap (fun e => e.2.steps.filterMap (fun st => if unitHeld s e.1 e.2 st then st.unit else none))).eraseDups

/-- The step of a bed whose slots are next, with its list (R196): every earlier one has all of its slots. -/
def nextAlloc (s : State) (b : Bed) : Option (CStep × List (Nat × Nat)) :=
  (b.steps.map (fun st => (st, stepSlots s b st (selfNode s)))).find? (fun x =>
    x.1.alloc < x.2.length || (!x.1.moeKnown && (x.1.cmd.op == 0x62 || x.1.cmd.op == 0x63)))

/-- A step's slots may be allocated: nothing of it is still to be learned and its Sieve unit is free (R250). -/
def allocReady (s : State) (b : Bed) (st : CStep) : Bool :=
  !st.stopped && (st.moeKnown || !(st.cmd.op == 0x62 || st.cmd.op == 0x63))
    && (st.cmd.op != 0x58 || !b.desc.oneBoard || (List.range b.desc.n).all (fun q => (targetOf s b st q).isSome))
    && (!usesSieve st.cmd.op || st.unit.isSome
        || (match unitFor s st.num with | some u => !(busyUnits s).contains u | none => true))

/-- The most slots that the bed may hold here (R184). -/
def slotLimit (s : State) (b : Bed) : Nat := if e64 s then b.desc.boardMax else b.desc.slotsMax

/-- A bed waits for a slot, from its reservation or from the shared pool. -/
def wantsSlot (s : State) (ctx : Nat) (b : Bed) (shared : Bool) : Bool :=
  b.isOpen && (match nextAlloc s b with
    | none => false
    | some (st, _) => allocReady s b st && decide (slotsHeld s ctx < slotLimit s b)
        && (if shared then decide (b.resv ≤ slotsHeld s ctx) && decide (0 < poolFree s) else decide (slotsHeld s ctx < b.resv)))

/-- The bed that the shared pool serves next: round-robin after the one served last (R196). -/
def sharedTurn (s : State) : Option Nat :=
  let ws := (s.coll.beds.filter (fun e => wantsSlot s e.1 e.2 true)).map (fun e => e.1)
  match ws.find? (fun c => decide (s.coll.turn < c)) with
  | some c => some c
  | none => ws.head?

/-- The rank window of SCAN and of the tag counts (R267, R272). -/
def rankWindow (s : State) (b : Bed) (st : CStep) : Nat :=
  65536 / max 1 (if st.cmd.op = 0x59 then st.cmd.len else 2 * (expertsOf b.desc st.moe (selfNode s)).length)

/-- The ranks that a grant of a step's slots goes to (R197, R267, R281). -/
def grantRanks (s : State) (b : Bed) (st : CStep) (k : Nat) : List Nat :=
  let all := List.range b.desc.n
  if st.cmd.op = 0x59 ∨ st.cmd.op = 0x62 then all.filter (fun r => decide (r < rankWindow s b st))
  else if isDense st.cmd.op then
    all.filter (fun r => (List.range 32).any (fun q => !(sendSpans s b st (selfNode s) k q r).isEmpty))
  else all

/-- After a slot, the grants that it completes go out (R197). -/
def grantAfter (ctx num : Nat) (s : State) : State :=
  let b := getBed s ctx
  match findStep b num with
  | none => s
  | some st =>
    let slots := stepSlots s b st (selfNode s)
    if st.cmd.op = 0x63 then sendGrant ctx num st.alloc true (List.range b.desc.n) s
    else
      let k := (slots.getD (st.alloc - 1) (0, 0)).1
      let alone := st.cmd.op == 0x59 || st.cmd.op == 0x62
      match slots[st.alloc]? with
      | some (k', _) =>
        if k' = k then s
        else
          let h := (st.c0 + k') % 2 ^ 32
          sendGrant ctx num (if alone then 1 else h) alone (grantRanks s b st k) (modBed ctx (fun b => { b with granted := h }) s)
      | none =>
        let h := (st.c0 + st.nc) % 2 ^ 32
        sendGrant ctx num (if alone then 1 else h) alone (grantRanks s b st k) (modBed ctx (fun b => { b with granted := h }) s)

/-- A block allocates the next slot of a bed and sends the grant that it completes (R196, R197, R250); a domain that Lulen gated
is woken first (R549). -/
def allocSlot (ctx : Nat) (s : State) : State :=
  let b := getBed s ctx
  let fromResv := wantsSlot s ctx b false
  if stopped s || !inRun s || harrowOff s || !(fromResv || sharedTurn s == some ctx) then s
  else match nextAlloc s b, freeBank s with
    | some (st, slots), some bank =>
      if usesSieve st.cmd.op && st.unit.isNone && (unitFor s st.num).isNone then
        abandonStep ctx st.num 0x3C2 false (sivErr 0x3C2 0 ctx 0 s)
      else if (allocDoms s st).any (fun d => !domOn s d) then (allocDoms s st).foldl (fun s d => wakeDom d s) s
      else
        match slots[st.alloc]? with
        | none => s
        | some (k, g) =>
          let id := s.coll.nextId
          let x : Slot := { ctx := ctx, step := st.num, chunk := (st.c0 + k) % 2 ^ 32, group := g, bank := bank }
          let s := modColl (fun c => { c with
            slots := c.slots ++ [(id, x)], nextId := id + 1, turn := if fromResv then c.turn else ctx,
            peak := max c.peak (c.slots.length + 1) }) s
          let s := modStep ctx st.num (fun y => { y with
            alloc := y.alloc + 1, unit := if y.unit.isNone && usesSieve y.cmd.op then unitFor s y.num else y.unit }) s
          grantAfter ctx st.num s
    | _, _ => s

end Sys2Proof.Machine
end

