-- ==== Sys2Proof/Machine/Sieve.lean ====
section
/-! DEFINITION. SCAN, SREDUCE and TOPK: prefixes in rank order, sparse lists, streams, the merge and its results (R249-R267). -/

namespace Sys2Proof.Machine

/-- The identity of an exclusive scan (R266). -/
def identityVal (op fmt : Nat) : HVal :=
  if op = 2 ∨ op = 3 then
    let neg := op == 2
    match fpFmt fmt with
    | some x => if x.inf.isSome then .inf neg else (match fpDecode x x.maxFin with | .fin _ m q => .fin neg m q | v => v)
    | none => let v := if op = 2 then (intRange fmt).1 else (intRange fmt).2
              .fin (decide (v < 0)) v.natAbs 0
  else .fin false 0 0

/-- The bytes that a rank has staged in a slot, in index order. -/
def stagedOf (x : Slot) (r stripe : Nat) : List Byte :=
  (((x.staged.filter (fun e => e.1.1 == r && e.1.2.1 == stripe)).foldl
    (fun (t : Tbl (List Byte)) e => t.set e.1.2.2 e.2) []).map (fun e => e.2)).flatten

/-- The window of a rank-ordered step moves: the rank that it newly takes in is granted (R267, R272). -/
def moveWindow (ctx : Nat) (st : CStep) (next : Nat) (s : State) : State :=
  let b := getBed s ctx
  let r := next + rankWindow s b st - 1
  if r < b.desc.n then sendGrant ctx st.num 1 true [r] s else s

/-- A SCAN slot adds the next rank in rank order and sends it its prefix (R265-R267). -/
def scanNext (id : Nat) (x : Slot) (s : State) : State :=
  let b := getBed s x.ctx
  match findStep b x.step with
  | none => s
  | some st =>
    let r := x.next
    let fmt := st.cmd.fmt
    let op := st.cmd.sel
    residue x.ctx x.step .none (fun s =>
      foldIn id x op fmt (placeVals fmt 0 0 (stagedOf x r 0)) (fun s => s) (fun s =>
        match getSlot s id with
        | none => s
        | some y =>
          let n := elemsOf fmt st.cmd.len
          let vs := if st.cmd.p.testBit 0 then valuesAt y op fmt 0 0 n
            else if r = 0 then List.replicate n (identityVal op fmt) else valuesAt x op fmt 0 0 n
          let bs := encodeVals (outFmt fmt op) op vs
          let s := modSlot id (fun y => { y with next := r + 1, done := r + 1 == b.desc.n }) s
          let s := if r + 1 = b.desc.n then takeLag x.ctx x s else s
          sendResults id x st 0x34 (cutResult r 0 0 0 (bs.length / 1024 + 2) bs) (moveWindow x.ctx st (r + 1) s)) s) s

/-- The width of a sparse value in bytes (R253). -/
def valWidth (fmt : Nat) : Nat := fmtBits fmt / 8

/-- A list's header (R252). -/
structure ListHead where
  kind : Nat
  flags : Nat
  count : Nat
  space : Nat
  sect : Nat
  first : Nat
  deriving DecidableEq, Repr

/-- The header line of a list. -/
def headOf (bs : List Byte) : ListHead :=
  let at4 := fun i => leNat ((bs.drop i).take 4)
  { kind := leNat (bs.take 1), flags := leNat ((bs.drop 1).take 1), count := at4 4, space := at4 8, sect := at4 12, first := at4 16 }

/-- The 128 bytes of a header (R252). -/
def headBytes (h : ListHead) : List Byte :=
  takePad 128 (leBytes 1 h.kind ++ leBytes 1 h.flags ++ [0, 0] ++ leBytes 4 h.count ++ leBytes 4 h.space ++ leBytes 4 h.sect
    ++ leBytes 4 h.first)

/-- The bytes of an entry of a kind (R253). -/
def entrySize (kind fmt : Nat) : Nat := if kind = 1 then 8 else 8 + 32 * valWidth fmt

/-- The entries of a list of a kind, as byte strings. -/
def entryBytes (kind fmt count : Nat) (bs : List Byte) : List (List Byte) :=
  (List.range count).map (fun i => (bs.drop (entrySize kind fmt * i)).take (entrySize kind fmt))

/-- The index of an entry: an element's or a block's (R253). -/
def entryIndex (e : List Byte) : Nat := leNat (e.take 4)

/-- The (index, code) pairs that an entry holds (R253). -/
def entryPairs (kind fmt : Nat) (e : List Byte) : List (Nat × Nat) :=
  let w := valWidth fmt
  if kind = 1 then [(entryIndex e, leNat ((e.drop 4).take w))]
  else
    let map := leNat ((e.drop 4).take 4)
    ((List.range 32).filter (fun i => map.testBit i)).map (fun i => (32 * entryIndex e + i, leNat ((e.drop (8 + w * i)).take w)))

/-- An entry breaks R253 or R255 in its form. -/
def entryBad (kind fmt space : Nat) (e : List Byte) : Bool :=
  let w := valWidth fmt
  if kind = 1 then decide (space ≤ entryIndex e) || leNat (e.drop (4 + w)) != 0
  else
    let map := leNat ((e.drop 4).take 4)
    map == 0 || (List.range 32).any (fun i =>
      if map.testBit i then decide (space ≤ 32 * entryIndex e + i) else leNat ((e.drop (8 + w * i)).take w) != 0)

/-- The first fault of a list's entries (R255; log 56). -/
def entriesFault (kind fmt space : Nat) : Option Nat → List (List Byte) → Nat
  | _, [] => 0
  | prev, e :: r =>
    if (match prev with | some i => decide (entryIndex e ≤ i) | none => false) then 0x3A0
    else if entryBad kind fmt space e then 0x3A1
    else entriesFault kind fmt space (some (entryIndex e)) r

/-- What is wrong with a member's list: zero, or the code (R252, R255). -/
def listFault (fmt len : Nat) (bs : List Byte) : Nat :=
  let h := headOf bs
  if !(h.kind == 1 || h.kind == 2) || h.flags != 0 || leNat ((bs.drop 2).take 2) != 0 || h.sect != 0 || h.first != 0
      || leNat ((bs.drop 20).take 108) != 0 || decide (h.space = 0 ∨ 2 ^ 30 < h.space)
      || decide (len < 128 + h.count * entrySize h.kind fmt) then 0x3A1
  else entriesFault h.kind fmt h.space none (entryBytes h.kind fmt h.count (bs.drop 128))

/-- Byte strings in packets of at most a number of bytes. -/
def fillPackets (room : Nat) : Nat → List (List Byte) → List (List Byte)
  | 0, _ => []
  | k + 1, es =>
    match es with
    | [] => []
    | e :: r =>
      let n := max 1 (room / max 1 e.length)
      (((e :: r).take n).flatten) :: fillPackets room k ((e :: r).drop n)

/-- The packets of a section's stream: the header line with the section's own count leads the first one (R258; log 57). -/
def streamPackets (fmt : Nat) (h : ListHead) (j : Nat) (es : List (List Byte)) : List (List Byte) :=
  let mine := es.filter (fun e => (if h.kind = 1 then entryIndex e else 32 * entryIndex e) / sectQ h.space == j)
  let head := headBytes { h with count := mine.length, sect := j, first := j * sectQ h.space }
  let n := 896 / entrySize h.kind fmt
  (head ++ (mine.take n).flatten) :: fillPackets 1024 mine.length (mine.drop n)

/-- The pieces of a member's streams (R257, R258). -/
def streamPieces (s : State) (b : Bed) (st : CStep) (bs : List Byte) : List Piece :=
  let h := headOf bs
  let es := entryBytes h.kind st.cmd.fmt h.count (bs.drop 128)
  (List.range 32).flatMap (fun j =>
    let node := serverAt b.desc j
    let ps := streamPackets st.cmd.fmt h j es
    (ps.zipIdx).map (fun x =>
      { server := node, chunk := st.c0, stripe := j, stream := some j,
        pkt := some (collPkt s b 0x35 3 node
          (collArea b st.num st.c0 j (myRank s b.desc) (x.2 % 96) 0 { last := x.2 + 1 == ps.length } [(32, 4, x.2)]) x.1) }))

/-- Refusal flits go to every serving block of the step, and the command fails (R255, R270). -/
def refuseStep (ctx num code : Nat) (s : State) : State :=
  let b := getBed s ctx
  match findStep b num with
  | none => s
  | some st =>
    let s := sivErr code 0 ctx (myRank s b.desc) s
    let s := (serversOf b.desc st.cmd (selfNode s)).foldl (fun s node =>
      sendFlit b.plot (collPkt s b 0x3B 3 node
        (collArea b num st.c0 0 (myRank s b.desc) 0 0 {} [(32, 2, code)]) []) s) s
    endStep ctx num (some code) false s

/-- A member's list has been read: it is checked and streamed out, or refused (R255, R258). -/
def listRead (ctx num : Nat) (bs : List Byte) (s : State) : State :=
  let b := getBed s ctx
  match findStep b num with
  | none => s
  | some st =>
    let code := listFault st.cmd.fmt st.cmd.len bs
    if code ≠ 0 then refuseStep ctx num code s
    else
      let st' := { st with space := (headOf bs).space }
      let s := modStep ctx num (fun x => { x with space := st'.space, due := dueBytes b.desc st' (myRank s b.desc) }) s
      addPieces ctx num (streamPieces s b st' bs) s

/-- A refusal flit: the step is abandoned with its code (R255). -/
def takeRefusal (plot : Nat) (p : Packet) (s : State) : State :=
  onBed plot p (fun ctx _ s => abandonStep ctx p.stepNo (p.ar 32 2 % 4096) false s) s

/-- A comparator pair of the unit that serves a step disagrees (R251). -/
def lockstep (ctx num unit : Nat) (s : State) : State :=
  abandonStep ctx num 0x3C1 false (sivErr 0x3C1 unit ctx 0
    (modColl (fun c => { c with sivFence := setBit c.sivFence unit true }) s))

/-- All packets of a stream have come. -/
def streamWhole (t : Stream) : Bool :=
  match t.last with
  | none => false
  | some n => (List.range (n + 1)).all (fun i => (t.pkts.find i).isSome)

/-- The entries of a whole stream as (index, code) pairs (R253, R258). -/
def streamPairs (fmt : Nat) (t : Stream) : List (Nat × Nat) :=
  let h := headOf (t.pkts.getD 0 [])
  let sz := entrySize h.kind fmt
  let n0 := 896 / sz
  let n := 1024 / sz
  let es := (t.pkts.map (fun e =>
    if e.1 = 0 then entryBytes h.kind fmt (min n0 h.count) (e.2.drop 128)
    else entryBytes h.kind fmt (min n (h.count - n0 - (e.1 - 1) * n)) e.2)).flatten
  es.flatMap (entryPairs h.kind fmt)

/-- The union of the members' entries: every index with the codes present there, ascending (R259). -/
def unionOf (fmt : Nat) (x : Slot) : Tbl (List Nat) :=
  x.streams.foldl (fun t e => (streamPairs fmt e.2).foldl (fun (t : Tbl (List Nat)) p =>
    t.set p.1 (t.getD p.1 [] ++ [p.2])) t) []

/-- The reduction of the codes at one index (R256). -/
def reduceCodes (fmt op : Nat) (cs : List Nat) : HVal :=
  (cs.foldl (fun (g : HGroup) c => g.add op (wideFmt fmt) 0 (elemDecode fmt c) c) {}).value op fmt 0

/-- A section of an SREDUCE result: its lines behind the header, and the header (R260). -/
def sectResult (st : CStep) (space j : Nat) (u : Tbl (List Nat)) : List Byte × List Byte × Bool :=
  let fmt := st.cmd.fmt
  let op := st.cmd.sel
  let o := outFmt fmt op
  let w := valWidth o
  let q := sectQ space
  let first := j * q
  let vals : Tbl (List Byte) := u.map (fun e => (e.1, encodeVals o op [reduceCodes fmt op e.2]))
  let dense := decide (q < 4 * u.length)
  let head := headBytes { kind := 1, flags := dense.toNat, count := u.length, space := space, sect := j, first := first }
  let body := if dense then
      ((List.range (min q (space - first))).map (fun i => Tbl.getD vals (first + i) (List.replicate w 0))).flatten
    else (vals.map (fun v => leBytes 4 v.1 ++ takePad 4 v.2)).flatten
  (takePad (ceilDiv body.length 128 * 128) body, head, dense)

/-- Entry `a` ranks before entry `b` in a TOPK (R263). -/
def ranksBefore (op : Nat) (a b : Nat × HVal) : Bool :=
  match a.2, b.2 with
  | .nan, .nan => decide (a.1 < b.1)
  | .nan, _ => true
  | _, .nan => false
  | x, y =>
    if (if op = 2 then y.lt x else x.lt y) then true
    else if (if op = 2 then x.lt y else y.lt x) then false
    else decide (a.1 < b.1)

/-- An entry joins a ranked list. -/
def rankInsert (op : Nat) (e : Nat × HVal) : List (Nat × HVal) → List (Nat × HVal)
  | [] => [e]
  | x :: r => if ranksBefore op e x then e :: x :: r else x :: rankInsert op e r

/-- Entries in ranking order (R263). -/
def rankAll (op : Nat) (es : List (Nat × HVal)) : List (Nat × HVal) := es.foldl (fun a e => rankInsert op e a) []

/-- The bytes of ranked entries: index and value (R253, R264). -/
def rankBytes (fmt : Nat) (es : List (Nat × HVal)) : List Byte :=
  (es.map (fun e => leBytes 4 e.1 ++ takePad 4 (encodeVals fmt 0 [e.2]))).flatten

/-- The candidate list of a section: a coordinate list of the first k of its ranking (R263). -/
def candidates (st : CStep) (space j : Nat) (u : Tbl (List Nat)) : List Byte :=
  let op := st.cmd.sel
  let es := (rankAll op (u.map (fun e => (e.1, reduceCodes st.cmd.fmt op e.2)))).take (st.cmd.p % 8192)
  headBytes { kind := 1, flags := 0, count := es.length, space := space, sect := j, first := j * sectQ space }
    ++ rankBytes st.cmd.fmt es

/-- A candidate list's packets to every member (R263). -/
def candPieces (s : State) (b : Bed) (st : CStep) (id j : Nat) (bs : List Byte) : List Piece :=
  let n := ceilDiv bs.length 1024
  let rank := if e64 s then myRank s b.desc else 0
  (List.range b.desc.n).flatMap (fun r =>
    (List.range n).map (fun i =>
      { server := b.desc.member r, chunk := st.c0, stripe := j, slot := some id, kind := 0x3C,
        pkt := some (collPkt s b 0x3C 3 (b.desc.member r)
          (collArea b st.num st.c0 j rank i 0 { last := i + 1 == n } []) ((bs.drop (1024 * i)).take 1024)) }))

/-- A section whose streams have all ended is merged and its result leaves (R256-R263). -/
def mergeSection (id : Nat) (s : State) : State :=
  match getSlot s id with
  | none => s
  | some x =>
    let b := getBed s x.ctx
    match findStep b x.step with
    | none => s
    | some st =>
      if x.done || !((List.range b.desc.n).all (fun r => streamWhole (x.streams.at r))) then s
      else
        let space := (((x.streams.at 0).space).getD 1)
        let u := unionOf st.cmd.fmt x
        let entries := (x.streams.map (fun e => (streamPairs st.cmd.fmt e.2).length)).sum
        let s := countSrc 9 0 entries (takeLag x.ctx x (modSlot id (fun y => { y with done := true }) s))
        if st.cmd.op = 0x61 then addPieces x.ctx x.step (candPieces s b st id x.group (candidates st space x.group u)) s
        else residue x.ctx x.step .none (fun s =>
          let (body, head, dense) := sectResult st space x.group u
          let s := if dense then modColl (fun c => { c with
              dense := c.dense + 1, denseWrap := c.denseWrap || c.dense == 0xFFFFFFFF }) s else s
          let z := x.group * sectZ st.cmd space
          let parts := (List.range b.desc.n).flatMap (fun r =>
            (cutResult r (z + 128) x.group 128 (body.length / 1024 + 2) body).map (fun p => { p with last := false })
              ++ [{ rank := r, offset := z, stripe := x.group, idx := 0, last := true, bytes := head }])
          sendResults id x st 0x34 parts s) s

/-- A sparse stream packet at its serving block (R258): one inside the window joins its stream. -/
def takeStream (plot : Nat) (p : Packet) (u : Upset) (s : State) : State :=
  onBed plot p (fun ctx b s =>
    if (abortedAt b.abort p.stepNo).isSome then s
    else match findStep b p.stepNo with
      | none => if atOrBefore p.chunkNo b.granted ∧ p.chunkNo ≠ b.granted then collDup ctx p s else s
      | some st =>
        match findSlot s ctx st.num p.chunkNo p.stripe with
        | none => if atOrBefore p.chunkNo b.granted ∧ p.chunkNo ≠ b.granted then collDup ctx p s else s
        | some (id, x) =>
          let t := x.streams.at p.rank
          let q := p.ar 32 4
          let base := ((List.range (t.pkts.length + 1)).find? (fun i => (t.pkts.find i).isNone)).getD 0
          if u = Upset.lockstep then lockstep ctx st.num (st.unit.getD 0) s
          else if !isSparse st.cmd.op ∨ x.done then (if x.done then collDup ctx p s else s)
          else if (t.pkts.find q).isSome then collDup ctx p s
          else if base + 4 ≤ q then s
          else
            let space := if q = 0 then some (headOf p.bytes).space else t.space
            let clash := x.streams.any (fun e => e.2.space.isSome && space.isSome && e.2.space != space)
            if clash then abandonStep ctx st.num 0x3A2 false (sivErr 0x3A2 (st.unit.getD 0) ctx p.rank s)
            else
              let t' : Stream := { pkts := t.pkts.set q p.bytes, last := if p.lastFlag then some q else t.last, space := space }
              let s := modSlot id (fun y => { y with
                streams := y.streams.set p.rank t', first := if y.first.isSome then y.first else some s.sun.time,
                since := if y.first.isSome then y.since else s.clk }) s
              let s := if streamWhole t' then modSlot id (markRank s p.rank) s else s
              mergeSection id (collAck p false s)) s

/-- The candidate lists of all sections have come: they are merged and the result lands (R263, R264). -/
def topkDone (ctx num : Nat) (s : State) : State :=
  let b := getBed s ctx
  match findStep b num with
  | none => s
  | some st =>
    let whole := fun (x : Tbl (List Byte) × Option Nat) => match x.2 with
      | none => false
      | some n => (List.range (n + 1)).all (fun i => (x.1.find i).isSome)
    if !((List.range 32).all (fun j => whole (st.cands.at j))) || st.sects.length != 0 then s
    else
      let fmt := st.cmd.fmt
      let k := st.cmd.p % 8192
      let lists := (List.range 32).map (fun j => ((st.cands.at j).1.map (fun e => e.2)).flatten)
      let es := lists.flatMap (fun bs => (entryBytes 1 fmt (headOf bs).count (bs.drop 128)).flatMap (fun e =>
        (entryPairs 1 fmt e).map (fun p => (p.1, elemDecode fmt p.2))))
      let top := (rankAll st.cmd.sel es).take k
      let head := headBytes { kind := 1, flags := 0, count := top.length, space := (headOf (lists.getD 0 [])).space, sect := 0, first := 0 }
      let none8 : List Byte := List.replicate 4 255 ++ List.replicate 4 0
      let bs := head ++ rankBytes fmt top ++ (List.replicate (k - top.length) none8).flatten
      let bs := takePad (ceilDiv bs.length 128 * 128) bs
      land { ctx := ctx, step := num, bytes := bs.length } st.b bs
        (modStep ctx num (fun x => { x with sects := [(0, {})] }) s)

/-- A candidate list packet at a member (R263). -/
def takeCandidates (plot : Nat) (p : Packet) (s : State) : State :=
  onBed plot p (fun ctx b s =>
    match findStep b p.stepNo with
    | none => collDup ctx p s
    | some st =>
      let x := st.cands.at p.stripe
      if !st.live || (x.1.find p.pidx).isSome then collDup ctx p s
      else
        let s := modStep ctx st.num (fun y => { y with
          cands := y.cands.set p.stripe (x.1.set p.pidx p.bytes, if p.lastFlag then some p.pidx else x.2) }) s
        topkDone ctx st.num (collAck p false s)) s

/-- A member grants the candidate lists of its oldest TOPK step (R263): the grant flit has the result flag set (log 58). -/
def grantCands (s : State) : State :=
  let all := s.coll.beds.flatMap (fun e => (e.2.steps.filter (fun st => st.cmd.op == 0x61 && st.live)).map (fun st => (e.1, st)))
  let oldest := all.foldl (fun (a : Option (Nat × CStep)) x => match a with
    | none => some x
    | some y => if x.2.since < y.2.since then some x else some y) none
  match oldest with
  | none => s
  | some (ctx, st) =>
    if st.noted || !e64 s then s
    else
      let b := getBed s ctx
      let s := modStep ctx st.num (fun x => { x with noted := true }) s
      (serversOf b.desc st.cmd (selfNode s)).foldl (fun s node =>
        if node = selfNode s then s
        else sendFlit b.plot (collPkt s b 0x31 3 node
          (collArea b st.num ((st.c0 + 1) % 2 ^ 32) 0 (myRank s b.desc) 0 0 { result := true } []) []) s) s

end Sys2Proof.Machine
end

