-- ==== Sys2Proof/Machine/Experts.lean ====
section
/-! DEFINITION. DISPATCH and COMBINE: descriptors, tags, admission, payloads, manifests and items (R268-R285). -/

namespace Sys2Proof.Machine

/-- What a DISPATCH descriptor gives (R268). `policy` keeps flag bits [2:0], the int8 flag among them (log 59). -/
def moeOf (bs : List Byte) : Moe :=
  let g := fun i n => leNat ((bs.drop i).take n)
  { experts := g 4 2, choices := g 6 1, policy := g 7 1, cap := g 8 2, rowBytes := g 12 4, crc := g 124 2 }

/-- What is wrong with a DISPATCH descriptor and the length of its tag list: zero, or the code (R268, R270). -/
def moeFault (d : Desc) (len : Nat) (bs : List Byte) : Nat :=
  let g := fun i n => leNat ((bs.drop i).take n)
  let m := moeOf bs
  let addrs := [g 16 8, g 24 8, g 32 8, g 40 8]
  firstFail [
    (g 0 4 != 0x31505344 || decide (m.experts = 0 ∨ 4096 < m.experts ∨ 3 * d.n < m.experts)
      || decide (m.choices = 0 ∨ 16 < m.choices) || m.policy % 4 == 3 || decide (8 ≤ m.policy)
      || decide (m.cap = 0 ∨ 4096 < m.cap) || g 10 2 == 0xFFFF
      || decide (m.rowBytes < 128 ∨ 262144 < m.rowBytes) || m.rowBytes % 128 != 0
      || addrs.any (fun a => decide (2 ^ 47 ≤ a)) || g 48 76 != 0
      || g 124 4 != (crc32 (bs.take 124)).toNat, 0x3B1),
    (addrs.any (fun a => a % 128 != 0), 0x121),
    (len % (8 * max 1 m.choices) != 0, 0x122),
    (decide (65535 < len / 8), 0x3B2)]

/-- A payload or manifest packet of a DISPATCH has been written here: its lines or entries count toward the context of its
step (R276, R277). -/
def moeCount (ctx : Nat) (p : Packet) (s : State) : State :=
  let addr := p.ar 16 8 % 2 ^ 47
  modDisp ctx (fun d =>
    if p.kind = 0x10 then { d with lines := d.lines + p.flits / 2 }
    else
      let n := p.ar 28 1
      let g := fun i k => leNat ((p.bytes.drop i).take k)
      { d with
        entries := d.entries + n,
        man := (List.range n).foldl (fun (t : Tbl ManEnt) i =>
          t.set ((addr - d.manifest - 128) / 8 + i)
            { src := g (8 * i) 2, token := g (8 * i + 2) 2, weight := g (8 * i + 4) 2, rowScale := g (8 * i + 6) 2 }) d.man }) s

/-- A DISPATCH packet of another member: counted now, or when this block's DISPATCH of the step has its context. -/
def moeArrived (plot : Nat) (p : Packet) (s : State) : State :=
  match findBed s plot (p.ar 32 2) with
  | none => s
  | some ctx =>
    match findDisp s ctx with
    | some d => if d.step = p.ar 36 4 ∧ d.manifest ≠ 0 then moeCount ctx p s
                else modBed ctx (fun b => { b with early := b.early ++ [p] }) s
    | none => modBed ctx (fun b => { b with early := b.early ++ [p] }) s

/-- A member's descriptor has been read: it is checked, the step-ready flits go out and the tag list is read (R268, R276,
R278). -/
def moeRead (ctx num : Nat) (bs : List Byte) (s : State) : State :=
  let b := getBed s ctx
  match findStep b num with
  | none => s
  | some st =>
    let code := moeFault b.desc st.cmd.len bs
    if code ≠ 0 then
      modColl (fun c => { c with disp := c.disp.filter (fun d => d.ctx != ctx) })
        (endStep ctx num (some code) false (sivErr code 0 ctx (myRank s b.desc) s))
    else
      let g := fun i n => leNat ((bs.drop i).take n)
      let m := moeOf bs
      let s := modStep ctx num (fun x => { x with moe := m, moeKnown := true, busyWork := x.busyWork + 1 }) s
      let s := modDisp ctx (fun d => { d with
        moe := m, int8 := m.policy.testBit 2, tally := g 10 2, tokenBase := g 16 8, inputBase := g 24 8, slotTable := g 32 8,
        manifest := g 40 8, tokens := st.cmd.len / (8 * m.choices) }) s
      let early := (getBed s ctx).early.filter (fun p => p.ar 36 4 == num)
      let s := modBed ctx (fun b => { b with early := b.early.filter (fun p => p.ar 36 4 != num) }) s
      let s := early.foldl (fun s p => moeCount ctx p s) s
      let s := match findStep (getBed s ctx) num with
        | some x => sendReady ctx x s
        | none => s
      startRead b.plot (lineAddrs st.a (ceilDiv st.cmd.len 128)) (.coll 3 ctx num 0) (checkReady ctx num s)

/-- A tag (R270). -/
def tagOf (bs : List Byte) : Tag8 :=
  let g := fun i n => leNat ((bs.drop i).take n)
  { expert := g 0 2, token := g 2 2, weight := g 4 2, rowScale := g 6 2 }

/-- The tags of a list. -/
def tagsOf (n : Nat) (bs : List Byte) : List Tag8 := (List.range n).map (fun i => tagOf ((bs.drop (8 * i)).take 8))

/-- What is wrong with a tag list: zero, or the code of the first tag at fault, its order first (R270; log 56). -/
def tagsFault (m : Moe) : Nat → Option Tag8 → List Tag8 → Nat
  | _, _, [] => 0
  | i, prev, t :: r =>
    let first := i % m.choices == 0
    let disorder := match prev with
      | some q => !first && (if t.expert = 0xFFFF then false else decide (t.expert ≤ q.expert))
      | none => false
    let scale := match prev with
      | some q => !first && q.rowScale != t.rowScale
      | none => false
    if disorder then 0x3A0
    else if (t.expert != 0xFFFF && decide (m.experts ≤ t.expert)) || t.token != i / m.choices
        || (if m.policy.testBit 2 then decide (256 ≤ t.weight) || scale else t.rowScale != 0) then 0x3A1
    else tagsFault m (i + 1) (some t) r

/-- Bytes cut into packets of a kind for a server, as pieces of a step. -/
def bytePieces (s : State) (b : Bed) (st : CStep) (kind node : Nat) (bs : List Byte) : List Piece :=
  let n := ceilDiv bs.length 1024
  (List.range n).map (fun i =>
    { server := node, chunk := st.c0, kind := kind,
      pkt := some (collPkt s b kind 3 node
        (collArea b st.num st.c0 0 (myRank s b.desc) i 0 { last := i + 1 == n } []) ((bs.drop (1024 * i)).take 1024)) })

/-- A member's tag list has been read: it is refused, or its counts go to the serving blocks (R270, R272). -/
def tagsRead (ctx num : Nat) (bs : List Byte) (s : State) : State :=
  let b := getBed s ctx
  match findStep b num, findDisp s ctx with
  | some st, some _ =>
    let tags := tagsOf (st.cmd.len / 8) bs
    let code := tagsFault st.moe 0 none tags
    if code ≠ 0 then refuseStep ctx num code s
    else
      let s := modDisp ctx (fun d => { d with tags := tags, haveTags := true }) s
      let counts := fun e => (tags.filter (fun t => t.expert == e)).length
      addPieces ctx num ((serversOf b.desc st.cmd (selfNode s)).flatMap (fun node =>
        bytePieces s b st 0x36 node ((expertsOf b.desc st.moe node).flatMap (fun e => leBytes 2 (counts e))))) s
  | _, _ => s

/-- A rank's tag counts in their slot, as far as the experts that the block serves (R272). -/
def tagSlot (ctx : Nat) (st : CStep) (p : Packet) (x : Slot) (s : State) : Slot :=
  let total := 2 * (expertsOf (getBed s ctx).desc st.moe (selfNode s)).length
  let y := stampSlot s p { x with staged := ((p.rank, 0, p.pidx), (p.bytes).take (total - 1024 * p.pidx)) :: x.staged }
  if stripeWhole y p.rank 0 0 then markRank s p.rank y else y

/-- A tag-count packet at its serving block (R272). -/
def takeTags (plot : Nat) (p : Packet) (u : Upset) (s : State) : State :=
  admitted plot p (fun ctx st id x s =>
    if st.cmd.op ≠ 0x62 then s
    else if u = Upset.lockstep then lockstep ctx st.num (st.unit.getD 0) s
    else
      collAck p false (modSlot id (fun _ => tagSlot ctx st p x s) s)) s

/-- The 16-bit numbers of a byte string. -/
def words16 (bs : List Byte) : List Nat := codesOf 16 bs

/-- A rank's bases and admitted counts (R271, R274). -/
def offsetsOf (cap : Nat) (bases counts : List Nat) : List (Nat × Nat) :=
  (counts.zipIdx).map (fun c =>
    let base := min (bases.getD c.2 0) cap
    (base, min c.1 (cap - base)))

/-- Sums, entry by entry. -/
def addCounts (bases counts : List Nat) : List Nat := (counts.zipIdx).map (fun c => bases.getD c.2 0 + c.1)

/-- Packets of a serving slot to one member: offsets or filled counts (R274). -/
def sendBytes (id ctx num kind rank : Nat) (bs : List Byte) (s : State) : State :=
  let b := getBed s ctx
  match findStep b num with
  | none => s
  | some st =>
    (bytePieces s b st kind (b.desc.member rank) bs).foldl (fun s p =>
      match p.pkt with
      | some q => sendColl (.slot id) b.plot q s
      | none => s) s

/-- The offset packet of a rank: 16-bit base and admitted count of each expert that the block serves (R274; log 59). -/
def offsetBytes (os : List (Nat × Nat)) : List Byte := os.flatMap (fun o => leBytes 2 o.1 ++ leBytes 2 o.2)

/-- Tags dropped are counted (R273). -/
def countDrops (n : Nat) (s : State) : State :=
  modColl (fun c => { c with drop := c.drop + BitVec.ofNat 32 n, dropWrap := c.dropWrap || decide (2 ^ 32 ≤ c.drop.toNat + n) }) s

/-- An admission slot adds the next rank in rank order (R271-R274). -/
def tagNext (id : Nat) (x : Slot) (s : State) : State :=
  let b := getBed s x.ctx
  match findStep b x.step with
  | none => s
  | some st =>
    let r := x.next
    let n := b.desc.n
    let cap := st.moe.cap
    let policy := st.moe.policy % 4
    let counts := words16 (stagedOf x r 0)
    let os := offsetsOf cap x.bases counts
    let bases := addCounts x.bases counts
    let last := r + 1 == n
    let s := modSlot id (fun y => { y with next := r + 1, bases := bases, done := last }) s
    let s := moveWindow x.ctx st (r + 1) s
    let s := if last then takeLag x.ctx x s else s
    if policy = 2 ∧ last ∧ bases.any (fun t => decide (cap < t)) then
      abandonStep x.ctx x.step 0x3B5 false (sivErr 0x3B5 (st.unit.getD 0) x.ctx 0 s)
    else
      let dropped := ((counts.zip os).map (fun c => c.1 - c.2.2)).sum
      let s := if policy = 2 then s else countDrops dropped s
      let s := if policy = 1 ∧ 0 < dropped ∧ !st.noted then
          note 0x3B0 (some b.plot) .sieve (st.unit.getD 0) (sivErr 0x3B0 (st.unit.getD 0) x.ctx 0
            (modStep x.ctx x.step (fun y => { y with noted := true }) s)) else s
      let s := if policy ≠ 2 then sendBytes id x.ctx x.step 0x37 r (offsetBytes os) s
        else if last then
          ((List.range n).foldl (fun (a : List Nat × State) k =>
            let c := words16 (stagedOf x k 0)
            (addCounts a.1 c, sendBytes id x.ctx x.step 0x37 k (offsetBytes (offsetsOf cap a.1 c)) a.2)) ([], s)).2
        else s
      if last then
        let served := expertsOf b.desc st.moe (selfNode s)
        let fills := (served.zip bases).map (fun e => (e.1, min cap e.2))
        (List.range n).foldl (fun s h =>
          let mine := fills.filter (fun e => e.1 % n == h)
          if mine.isEmpty then s
          else sendBytes id x.ctx x.step 0x38 h ((List.range 3).flatMap (fun j =>
            leBytes 4 (((mine.find? (fun e => e.1 / n == j)).map (fun e => e.2)).getD 0))) s) s
      else s

/-- The bytes that mark a DISPATCH's packets (R323). -/
def moeStamp (b : Bed) (num : Nat) : Nat := b.desc.bed + b.desc.gen * 2 ^ 16 + 2 ^ 24 + num * 2 ^ 32

/-- The slots of a member's tags (R271, R275). -/
def placeTags (d : DispCtx) : List (Option Nat) :=
  (d.tags.zipIdx).map (fun t =>
    if t.1.expert = 0xFFFF then none
    else
      let p := ((d.tags.take t.2).filter (fun q => q.expert == t.1.expert)).length
      let (base, adm) := d.offs.getD t.1.expert (0, 0)
      if p < adm then some (base + p) else none)

/-- A manifest entry's bytes (R276). -/
def manBytes (src : Nat) (t : Tag8) : List Byte := leBytes 2 src ++ leBytes 2 t.token ++ leBytes 2 t.weight ++ leBytes 2 t.rowScale

/-- Manifest entries in packets of up to 120 (R275): first place and the entries' bytes. -/
def manRuns : Nat → Nat → List (List Byte) → List (Nat × List (List Byte))
  | 0, _, _ => []
  | k + 1, at0, es => if es.isEmpty then [] else (at0, es.take 120) :: manRuns k (at0 + 120) (es.drop 120)

/-- The manifest entries for one expert go to its home, or are written here (R275, R276). -/
def sendManifest (ctx num e : Nat) (d : DispCtx) (s : State) : State :=
  let b := getBed s ctx
  let n := b.desc.n
  let home := b.desc.member (e % n)
  let mine := (d.tags.zip d.slots).filterMap (fun t => if t.1.expert = e then t.2.map (fun k => (k, t.1)) else none)
  let at0 := (e / n) * d.moe.cap + ((mine.head?).map (fun t => t.1)).getD 0
  let runs := manRuns (mine.length + 1) at0 (mine.map (fun t => manBytes (selfNode s) t.2))
  runs.foldl (fun s r =>
    let addr := d.manifest + 128 + 8 * r.1
    let pl := r.2.flatten
    let area := areaOf [(16, 8, addr), (28, 1, r.2.length), (32, 8, moeStamp b num)]
    let s := modStep ctx num (fun x => { x with busyWork := x.busyWork + 1 }) s
    let p := { mkPkt s b.plot home 0x18 0 none area (flitsOfBytes pl) with src := selfNode s }
    if home = selfNode s then
      if mappedRange s addr pl.length then
        startWrite b.plot none ((bytesWr addr pl).map (fun w => { w with bytes := 0 })) (.coll 3 ctx num 0) (moeCount ctx p s)
      else pushFin (.seg ctx num none (some 0x210) false) (noteOwn 0x210 b.plot s)
    else queueReq { pkt := p, who := .coll ctx num, plot := b.plot, ack := true } s) s

/-- The payload segments of a member's admitted tags (R269, R275). -/
def paySegs (s : State) (ctx num : Nat) (b : Bed) (d : DispCtx) : List Seg :=
  let n := b.desc.n
  let row := d.moe.rowBytes
  (d.tags.zip d.slots).flatMap (fun t =>
    match t.2 with
    | none => []
    | some k =>
      let home := b.desc.member (t.1.expert % n)
      dealSegs s (ctx % engineCount s)
        { owner := .disp ctx num, kind := if home = selfNode s then .local else .put,
          src := d.tokenBase + t.1.token * row, dst := d.inputBase + (t.1.expert / n * d.moe.cap + k) * row, far := home,
          lines := row / 128, tally := d.tally, plot := b.plot, stamp := moeStamp b num,
          wrErr := if home = selfNode s then 0x211 else 0x221 })

/-- All offsets have come: the slot table is written, the payloads and manifest entries leave (R275). -/
def placeAll (ctx num : Nat) (s : State) : State :=
  let b := getBed s ctx
  match findDisp s ctx with
  | none => s
  | some d0 =>
    if d0.placed || !d0.haveTags || d0.step != num || !((List.range d0.moe.experts).all (fun e => (d0.offs.find e).isSome)) then s
    else
      let slots := placeTags d0
      let s := modDisp ctx (fun d => { d with slots := slots, placed := true }) s
      let d := { d0 with slots := slots, placed := true }
      let tab := slots.flatMap (fun k => leBytes 4 (k.getD 0xFFFFFFFF))
      let segs := paySegs s ctx num b d
      let s := modStep ctx num (fun x => { x with busyWork := x.busyWork + segs.length }) s
      let s := if mappedRange s d.slotTable tab.length then
          startWrite b.plot none ((bytesWr d.slotTable tab).map (fun w => { w with bytes := 0 })) (.coll 2 ctx num 0) s
        else endStep ctx num (some 0x210) false (noteOwn 0x210 b.plot s)
      let s := activateAll (pushSegs segs s)
      (((d.tags.filter (fun t => t.expert != 0xFFFF)).map (fun t => t.expert)).eraseDups).foldl (fun s e =>
        sendManifest ctx num e { d with slots := slots } s) s

/-- An offset packet at a member (R274): absorbed and acknowledged. -/
def takeOffsets (plot : Nat) (p : Packet) (s : State) : State :=
  onBed plot p (fun ctx b s =>
    let s := collAck p false s
    match findDisp s ctx with
    | none => s
    | some d =>
      if d.step ≠ p.stepNo then s
      else
        let es := ((expertsOf b.desc d.moe p.src).drop (256 * p.pidx)).take 256
        let ws := words16 p.bytes
        let offs := (es.zipIdx).foldl (fun (t : Tbl (Nat × Nat)) e => t.set e.1 (ws.getD (2 * e.2) 0, ws.getD (2 * e.2 + 1) 0)) d.offs
        placeAll ctx p.stepNo (modDisp ctx (fun d => { d with offs := offs }) s)) s

/-- Filled counts at an expert home (R274, R276): once all of its local experts are known, line 0 of the manifest is
written. -/
def takeFilled (plot : Nat) (p : Packet) (s : State) : State :=
  onBed plot p (fun ctx b s =>
    let s := collAck p false s
    match findDisp s ctx with
    | none => s
    | some d =>
      if d.step ≠ p.stepNo then s
      else
        let r := myRank s b.desc
        let js := localExperts b.desc d.moe r
        let from_ := expertsOf b.desc d.moe p.src
        let filled := js.foldl (fun (t : Tbl Nat) j =>
          if from_.contains (r + j * b.desc.n) then t.set j (leNat ((p.bytes.drop (4 * j)).take 4)) else t) d.filled
        let all := js.all (fun j => (filled.find j).isSome)
        let was := js.all (fun j => (d.filled.find j).isSome)
        let s := modDisp ctx (fun d => { d with filled := filled }) s
        if all && !was then
          let line := takePad 128 ((List.range 3).flatMap (fun j => leBytes 4 (filled.getD j 0)))
          if mapped s d.manifest then
            startWrite b.plot none [{ addr := lineBase d.manifest, data := lineOf line, bytes := 0 }] (.coll 4 ctx p.stepNo 0) s
          else endStep ctx p.stepNo (some 0x210) false (noteOwn 0x210 b.plot s)
        else s) s

/-- The number of an item at its serving node (R281). -/
def itemNo (b : Bed) (st : CStep) (t r q : Nat) : Nat :=
  (itemsOf b.desc st (serverAt b.desc (r + t))).findIdx (fun i => i == (t, r, q))

/-- The experts that admitted a token's choices (R282). -/
def admittedOf (d : DispCtx) (t : Nat) : List Nat :=
  (d.tags.zip d.slots).filterMap (fun x => if x.1.token = t ∧ x.2.isSome then some x.1.expert else none)

/-- A member's expect packets (R282, R284). -/
def expectPieces (s : State) (b : Bed) (st : CStep) (d : DispCtx) : List Piece :=
  let r := myRank s b.desc
  (List.range d.tokens).flatMap (fun t =>
    let es := admittedOf d t
    (List.range (rowParts st.cmd st.moe.rowBytes)).map (fun q =>
      let node := serverAt b.desc (r + t)
      let k := itemNo b st t r q
      { server := node, chunk := k, stripe := q, kind := 0x39,
        pkt := some (collPkt s b 0x39 3 node
          (collArea b st.num k q r 0 0 { last := true } [(32, 2, t), (34, 1, es.length)])
          (takePad 64 (es.flatMap (leBytes 2)))) }))

/-- An expert home's contributions: each admitted slot's output row, part by part (R282). -/
def homePieces (s : State) (b : Bed) (st : CStep) (d : DispCtx) : List Piece :=
  let row := st.moe.rowBytes
  let z := stripeBytes st.cmd
  d.man.flatMap (fun m =>
    let sr := b.desc.rankOf m.2.src
    let j := m.1 / max 1 st.moe.cap
    (List.range (rowParts st.cmd row)).map (fun q =>
      { server := serverAt b.desc (sr + m.2.token), chunk := itemNo b st m.2.token sr q, stripe := q, kind := 0x3A,
        src := st.a + m.1 * row + q * z, len := min z (row - q * z), idx0 := 32 * j,
        ent := leNat (leBytes 2 m.2.src ++ leBytes 2 m.2.token ++ leBytes 2 m.2.weight ++ leBytes 2 m.2.rowScale) }))

/-- A COMBINE sets out at its member: expects, contributions, and the zero rows of its tokens without a choice (R282,
R284). -/
def startCombine (ctx num : Nat) (s : State) : State :=
  let b := getBed s ctx
  match findStep b num, findDisp s ctx with
  | some st, some d =>
    let s := addPieces ctx num (expectPieces s b st d ++ homePieces s b st d) s
    let rowOut := outBytes { st.cmd with op := 0x63 } st.moe.rowBytes
    ((List.range d.tokens).filter (fun t => (admittedOf d t).isEmpty)).foldl (fun s t =>
      land { ctx := ctx, step := num, bytes := rowOut } (st.b + t * rowOut) (List.replicate rowOut 0) s) s
  | _, _ => s

/-- The experts whose contributions an item's slot has seen. -/
def seenExperts (d : Desc) (x : Slot) : List Nat := (x.got.map (fun g => g.1 + g.2.2 / 32 * d.n)).eraseDups

/-- A named expert's contribution has arrived whole (R283). -/
def expertWhole (d : Desc) (x : Slot) (e : Nat) : Bool :=
  let r := e % d.n
  let j := e / d.n
  match x.lasts.lookup (r, 64 + j) with
  | none => false
  | some n => (List.range (n + 1 - 32 * j)).all (fun i => x.got.any (fun g => g.1 == r && g.2.2 == 32 * j + i))

/-- An item whose named contributions are all whole rounds once and goes to its source (R283, R284). -/
def completeItem (id : Nat) (s : State) : State :=
  match getSlot s id with
  | none => s
  | some x =>
    let b := getBed s x.ctx
    match findStep b x.step, x.expect with
    | some st, some es =>
      if x.done || !(es.all (expertWhole b.desc x)) then s
      else
        let s := modSlot id (fun y => { y with done := true }) s
        if es.isEmpty then s
        else
          let (t, r, q) := (itemsOf b.desc st (selfNode s)).getD x.group (0, 0, 0)
          let row := st.moe.rowBytes
          let z := stripeBytes st.cmd
          let fmt := st.cmd.fmt
          let op := st.cmd.sel
          let out := outFmt fmt op
          let vs := valuesAt x op fmt q 0 (elemsOf fmt (min z (row - q * z)))
          let bad := if isInt out then (vs.filter (fun v => v.special)).length else 0
          let s := (List.range bad).foldl (fun s _ => note 0x430 (some b.plot) .block 0 (hrwErr 0x430 0 x.ctx s)) s
          let bs := encodeVals out op vs
          let off := t * outBytes st.cmd row + outBytes st.cmd (q * z)
          sendResults id { x with done := true } st 0x34 (cutResult r off q 0 (bs.length / 1024 + 2) bs) s
    | _, _ => s

/-- An expect packet at its item (R282, R283). -/
def takeExpect (plot : Nat) (p : Packet) (s : State) : State :=
  onBed plot p (fun ctx b s =>
    if (abortedAt b.abort p.stepNo).isSome then s
    else match findStep b p.stepNo with
      | none => collAck p false s
      | some st =>
        match slotOf s ctx st p with
        | none => if p.chunkNo < st.alloc then collAck p false s else s
        | some (id, x) =>
          if st.cmd.op ≠ 0x63 then s
          else if x.expect.isSome then collAck p false s
          else
            let es := (words16 p.bytes).take (p.ar 34 1)
            if (seenExperts b.desc x).any (fun e => !es.contains e) then
              abandonStep ctx st.num 0x3B3 false (sivErr 0x3B3 (st.unit.getD 0) ctx p.rank s)
            else completeItem id (collAck p false (modSlot id (fun y => { y with
              expect := some es, first := if y.first.isSome then y.first else some s.sun.time,
              since := if y.first.isSome then y.since else s.clk }) s))) s

/-- The exact product of an element and its weight (R227). -/
def weighted (int8 : Bool) (weight rowScale : Nat) (v : HVal) : HVal :=
  if int8 then (v.mul (elemDecode 0x03 (weight % 256))).mul (elemDecode 0x11 rowScale) else v.mul (elemDecode 0x11 weight)

/-- A COMBINE contribution at its item (R227, R283). -/
def takeCombine (plot : Nat) (p : Packet) (u : Upset) (s : State) : State :=
  admitted plot p (fun ctx st id x s =>
    let b := getBed s ctx
    let e := p.rank + p.pidx / 32 * b.desc.n
    if st.cmd.op ≠ 0x63 then s
    else if u = Upset.sram then slotUpset ctx st.num x.bank s
    else if u = Upset.lockstep then lockstep ctx st.num (st.unit.getD 0) s
    else if (match x.expect with | some es => !es.contains e | none => false) then
      abandonStep ctx st.num 0x3B3 false (sivErr 0x3B3 (st.unit.getD 0) ctx p.rank s)
    else residue ctx st.num u (fun s =>
      let fmt := st.cmd.fmt
      let z := stripeBytes st.cmd
      let total := min z (st.moe.rowBytes - p.stripe * z)
      let place := p.pidx % 32
      let bs := (p.bytes).take (total - 1024 * place)
      let y0 := stampSlot s p x
      let y := if p.lastFlag then { y0 with lasts := ((p.rank, 64 + p.pidx / 32), p.pidx) :: y0.lasts } else y0
      let key := (p.rank, p.stripe, p.pidx)
      let prod := fun (l : List (Nat × Nat × HVal × Nat)) => l.map (fun v =>
        (v.1, v.2.1, weighted (st.moe.policy.testBit 2) (p.ar 36 2) (p.ar 38 2) v.2.2.1, v.2.2.2))
      let done := fun s => completeItem id (collAck p false (modSlot id (fun w => { w with
        got := y.got, lasts := y.lasts, first := y.first, since := y.since }) s))
      if isMx fmt ∧ !(expertWhole b.desc y e) then done (modSlot id (fun w => { w with staged := (key, bs) :: w.staged }) s)
      else
        let all := if isMx fmt then
            (((x.staged.filter (fun g => g.1.1 == p.rank && g.1.2.2 / 32 == p.pidx / 32)).foldl
              (fun (t : Tbl (List Byte)) g => t.set g.1.2.2 g.2) [(p.pidx, bs)]).map (fun g => g.2)).flatten
          else bs
        foldIn id x st.cmd.sel fmt (prod (placeVals fmt p.stripe (if isMx fmt then 0 else elemsOf fmt (1024 * place)) all))
          (busyAck p) done s) s) s

end Sys2Proof.Machine
end

