-- ==== Sys2Proof/Machine/CollIssue.lean ====
section
/-! DEFINITION. BEDOPEN, BEDCLOSE and the issue of every collective and sparse command (R102-R104, R184-R190, R195, R202,
R205, R225, R250, R254, R262, R265, R279, R280). -/

namespace Sys2Proof.Machine

/-- The Tilth ABI major version of the running Icquel (R184, R453, R463). -/
def icqAbi (s : State) : Nat := fld s.start.block5 32 16

/-- A bed descriptor (R184). -/
def descOf (bs : List Byte) : Desc :=
  let g := fun i n => leNat ((bs.drop i).take n)
  { bed := g 8 2, gen := g 6 1, direct := (g 7 1).testBit 0, landing := g 10 2,
    limit := if g 12 4 = 0 then 50000 else g 12 4, planes := g 16 4, slotsMin := g 20 2, slotsMax := g 22 2,
    boardMin := g 24 1, boardMax := g 25 1, members := BitVec.ofNat 512 (g 32 64), crc := g 124 4 }

/-- A descriptor breaks R184, or its landing tally lies beyond the plot's quota (R73; log 60). -/
def descBad (s : State) (plot : Nat) (bs : List Byte) : Bool :=
  let g := fun i n => leNat ((bs.drop i).take n)
  let d := descOf bs
  g 0 4 != 0x31444542 || g 4 2 != icqAbi s || decide (2 ≤ g 7 1) || d.landing == 0xFFFF
    || decide (10000000 < d.limit) || decide (d.slotsMin = 0 ∨ 64 < d.slotsMin)
    || decide (d.slotsMax < d.slotsMin ∨ 1152 < d.slotsMax) || decide (d.boardMin = 0 ∨ 8 < d.boardMin)
    || decide (d.boardMax < d.boardMin ∨ 32 < d.boardMax) || g 26 6 != 0 || g 96 28 != 0
    || g 124 4 != (crc32 (bs.take 124)).toNat || !tallyOk s plot d.landing false

/-- A plane serves none of the steps of a bed whose members all lie on one board (R185). -/
def idlePlane (s : State) (d : Desc) : Bool := !e64 s && d.oneBoard

/-- The slots that a bed reserves at this block (R202). -/
def slotResv (s : State) (d : Desc) : Nat :=
  if e64 s then (if 2 ≤ (d.onBoard (boardOf (selfNode s))).length then d.boardMin else 0)
  else if idlePlane s d then 0 else d.slotsMin

/-- The Dibber plane of a bed (R294). -/
def dibPlane (d : Desc) : Nat := d.planeAt d.bed

/-- The Dibber slots that a bed reserves at this block (R296). -/
def dibResv (s : State) (d : Desc) : Nat :=
  if e64 s then (if 2 ≤ (d.onBoard (boardOf (selfNode s))).length then 1 else 0)
  else if !d.oneBoard && dibPlane d == selfNode s then 1 else 0

/-- The Dibber slots of the build (R296). -/
def dibSlots (s : State) : Nat := if e64 s then 16 else 64

/-- Dibber slots that a bed holds. -/
def dibHeld (s : State) (ctx : Nat) : Nat := (s.coll.dslots.filter (fun e => e.2.ctx == ctx)).length

/-- Dibber slots reserved or held (R304). -/
def dibInUse (s : State) : Nat :=
  (s.coll.beds.map (fun e => if e.2.isOpen then max e.2.dresv (dibHeld s e.1) else 0)).sum

/-- The lowest free bed context (R186). -/
def freeCtx (s : State) : Option Nat := (List.range 256).find? (fun c => !(getBed s c).isOpen)

/-- The checks of R185 in their order. -/
def bedFault (s : State) (plot bed : Nat) (bs : List Byte) : Nat :=
  let d := descOf bs
  firstFail [
    (descBad s plot bs, 0x301),
    (d.bed != bed, 0x305),
    (if e64 s then decide (d.n < 2) || !d.members.getLsbD (selfNode s)
     else !d.oneBoard && !d.planes.testBit (selfNode s - 512), 0x302),
    ((findBed s plot bed).isSome, 0x304),
    (s.coll.lastGen.lookup (plot, bed) == some d.gen, 0x306),
    ((freeCtx s).isNone || decide (poolFree s < slotResv s d) || decide (dibSlots s < dibInUse s + dibResv s d)
      || (harrowOff s && decide (0 < slotResv s d)) || ((getDom s (dibDom s)).ownerOff && decide (0 < dibResv s d)), 0x303)]

/-- A descriptor has been read: the bed opens, or BEDOPEN is refused (R185, R202, R296). -/
def bedRead (f tid : Nat) (err : Bool) (ls : List Line) (s : State) : State :=
  let g := getFur s f
  match g.issued.find? (fun i => i.tid == tid) with
  | none => s
  | some i =>
    let bs := linesBytes ls
    let code := if err then 0x221 else bedFault s g.plot i.cmd.id bs
    if code ≠ 0 then partDone f tid (some code) false s
    else
      let d := descOf bs
      let c := (freeCtx s).getD 0
      let s := modColl (fun x => { x with
        beds := x.beds.set c { isOpen := true, plot := g.plot, desc := d, resv := slotResv s d, dresv := dibResv s d },
        lastGen := ((g.plot, d.bed), d.gen) :: x.lastGen.filter (fun e => e.1 != (g.plot, d.bed)) }) s
      partDone f tid none false (if 0 < dibResv s d then wakeDom (dibDom s) s else s)

/-- The bed id of a command is beyond the quota, or its bed is not open (R73, R102). -/
def bedBad (s : State) (f : Nat) (c : Cmd) (opened : Bool) : Bool :=
  let p := (getFur s f).plot
  decide ((getPlot s p).bedQuota ≤ c.id) || (opened && (findBed s p c.id).isNone)

/-- BEDOPEN (R185). -/
def doBedopen (f : Nat) (s : State) : State :=
  withCmd f 0x50 true (fun c o _ s =>
    checked f c [regCheck s c o, (bedBad s f c false, 0x131), (!localOk o.a, 0x123), (o.a.toNat % 128 != 0, 0x121)] (fun s =>
      let tid := nextTid s f
      let plot := (getFur s f).plot
      let s := issueOut f c 1 none s
      if mapped s o.a.toNat then startRead plot [o.a.toNat] (.bedDesc f tid) s
      else partDone f tid (some 0x210) false (noteOwn 0x210 plot s)) s) s

/-- A command on a bed is outstanding at the block (R189). -/
def bedBusy (b : Bed) : Bool := b.steps.any (fun st => st.live) || b.dsteps.any (fun st => st.live)

/-- The bed and everything of it at this block are gone (R189, R279). -/
def closeBed (ctx : Nat) (s : State) : State :=
  let s := freeSlots (fun x => x.ctx == ctx) s
  let s := { s with trl := { s.trl with noted621 := s.trl.noted621.filter (fun e => e.1 != ctx) } }
  let s := dropRqsOf (fun w => match w with | .coll c _ => c == ctx | _ => false) s
  modColl (fun c => { c with
    beds := c.beds.del ctx,
    landings := c.landings.filter (fun e => e.2.ctx != ctx),
    disp := c.disp.filter (fun d => d.ctx != ctx),
    dslots := c.dslots.filter (fun e => e.2.ctx != ctx) }) s

/-- BEDCLOSE (R189). -/
def doBedclose (f : Nat) (s : State) : State :=
  withCmd f 0x51 false (fun c o _ s =>
    let p := (getFur s f).plot
    let ctx := (findBed s p c.id).getD 0
    checked f c [regCheck s c o, (bedBad s f c true, 0x131), (bedBusy (getBed s ctx), 0x330)] (fun s =>
      issueNow f c (closeBed ctx s)) s) s

/-- The parameter field P (R103). -/
def paramOf (o : Opnd) : Nat := o.b.toNat / 2 ^ 47

/-- What the members of a step agree on. -/
def ccmdOf (c : Cmd) (o : Opnd) : CCmd := { op := c.op, fmt := c.d, sel := c.osel, len := o.len, p := paramOf o }

/-- The checks of R74 that come before a command's own limits, on an open bed; `ids` are the checks of dispatch contexts,
`lens` those of the length. -/
def collChecks (s : State) (f : Nat) (c : Cmd) (o : Opnd) (ids lens : List (Bool × Nat)) : List (Bool × Nat) :=
  [regCheck s c o, (bedBad s f c true, 0x131)] ++ ids
    ++ [(!localOk o.a, 0x123), (o.a.toNat % 128 != 0 || o.b.toNat % 2 ^ 47 % 128 != 0, 0x121), lenCheck o] ++ lens

/-- The length is a whole number of the format's units (R102, R225). -/
def unitCheck (c : Cmd) (o : Opnd) : Bool × Nat := (o.len % unitBytes c.d != 0, 0x122)

/-- No plane serves a command that needs one (R190; log 61). -/
def planeCheck (d : Desc) (c : CCmd) : Bool × Nat := (routeOf d c != .board && d.planeList.isEmpty, 0x315)

/-- The member has no live Sieve unit (R251). -/
def unitGone (s : State) (c : Cmd) : Bool × Nat := (e64 s && usesSieve c.op && (unitFor s 0).isNone, 0x3C2)

/-- A command takes its bed's next step (R188). On a plane that serves none of the bed's steps it completes at once (R185);
a step at or after an aborted one fails at once (R216, R217); `k` begins the rest. -/
def issueStep (f : Nat) (c : Cmd) (o : Opnd) (ctx : Nat) (k : CStep → State → State) (s : State) : State :=
  let tid := nextTid s f
  let s := issueOut f c 1 none s
  let b := getBed s ctx
  let cmd := ccmdOf c o
  let nc := chunkCount b.desc cmd
  let st0 : CStep := { num := b.nextStep, cmd := cmd, f := f, tid := tid, a := o.a.toNat, b := o.b.toNat % 2 ^ 47,
                       c0 := b.nextChunk, nc := nc, since := s.clk }
  let st := { st0 with due := if cmd.op = 0x60 then 1 else dueBytes b.desc st0 (myRank s b.desc) }
  let s := modBed ctx (fun b => { b with nextStep := (b.nextStep + 1) % 2 ^ 32, nextChunk := (b.nextChunk + nc) % 2 ^ 32 }) s
  if idlePlane s b.desc then partDone f tid none false s
  else
    let s := modBed ctx (fun b => { b with steps := b.steps ++ [st] }) s
    match abortedAt b.abort st.num with
    | some (code, outside) => endStep ctx st.num (some code) outside s
    | none => k st s

/-- The work of a dense command's member: its bytes for every server of every stripe (R195, R198, R203). -/
def densePieces (s : State) (b : Bed) (st : CStep) : List Piece :=
  let d := b.desc
  let r := myRank s d
  let nodes := match routeOf d st.cmd with
    | .boardFirst => (d.onBoard (boardOf (selfNode s))).map d.member
    | _ => serversOf d st.cmd (selfNode s)
  (List.range st.nc).flatMap (fun k => (List.range 32).flatMap (fun q => nodes.flatMap (fun node =>
    (sendSpans s b st node k q r).map (fun y =>
      { server := node, chunk := (st.c0 + k) % 2 ^ 32, stripe := q, src := st.a + (y.2.lo - (ownSpan st.cmd r).lo),
        len := y.2.len, off := y.2.lo - y.1.lo }))))

/-- A member's work begins: its step-ready flits go out, and its pieces wait for their grants. A plane's begins with the
comparison of the flits that have come (R195, R196, R206). -/
def beginStep (ctx : Nat) (pieces : State → Bed → CStep → List Piece) (st : CStep) (s : State) : State :=
  if e64 s then
    let s := sendReady ctx st s
    checkReady ctx st.num (addPieces ctx st.num (pieces s (getBed s ctx) st) s)
  else checkReady ctx st.num s

/-- A dense command at issue; `own` are its own limits. -/
def doDense (f op : Nat) (own : Desc → CCmd → List (Bool × Nat)) (s : State) : State :=
  withCmd f op true (fun c o _ s =>
    let ctx := (findBed s (getFur s f).plot c.id).getD 0
    let d := (getBed s ctx).desc
    let cmd := ccmdOf c o
    checked f c (collChecks s f c o [] [unitCheck c o] ++ own d cmd ++ [planeCheck d cmd]) (fun s =>
      issueStep f c o ctx (beginStep ctx densePieces) s) s) s

/-- The root or the receiver lies outside the bed (R205). -/
def rankCheck (d : Desc) (c : CCmd) : List (Bool × Nat) := [(decide (d.n ≤ c.p % 512), 0x311)]

/-- REDUCE. -/
def doReduce (f : Nat) (s : State) : State := doDense f 0x52 rankCheck s
/-- ALLRED. -/
def doAllred (f : Nat) (s : State) : State := doDense f 0x53 (fun _ _ => []) s
/-- REDSCAT (R205, R225). -/
def doRedscat (f : Nat) (s : State) : State :=
  doDense f 0x54 (fun d c => [(c.len % (max 1 d.n * unitBytes c.fmt) != 0, 0x310)]) s
/-- ALLGATH. -/
def doAllgath (f : Nat) (s : State) : State := doDense f 0x55 (fun _ _ => []) s
/-- BCAST. -/
def doBcast (f : Nat) (s : State) : State := doDense f 0x56 rankCheck s
/-- SHIFT (R205). -/
def doShift (f : Nat) (s : State) : State :=
  doDense f 0x57 (fun d c => [(decide (c.p % 512 = 0 ∨ d.n ≤ c.p % 512), 0x311)]) s
/-- PERMUTE. -/
def doPermute (f : Nat) (s : State) : State := doDense f 0x58 rankCheck s

/-- A SCAN's source goes out whole, to the server of its chunk (R265, R266). -/
def scanPiece (_ : State) (b : Bed) (st : CStep) : List Piece :=
  [{ server := serverAt b.desc st.c0, chunk := st.c0, src := st.a, len := st.cmd.len }]

/-- SCAN (R265-R267). -/
def doScan (f : Nat) (s : State) : State :=
  withCmd f 0x59 true (fun c o _ s =>
    let ctx := (findBed s (getFur s f).plot c.id).getD 0
    let d := (getBed s ctx).desc
    let cmd := ccmdOf c o
    checked f c (collChecks s f c o [] [(decide (4224 < o.len), 0x111), unitCheck c o]
        ++ [planeCheck d cmd, unitGone s c, (isMx c.d && !cmd.p.testBit 0 && (c.osel == 2 || c.osel == 3), 0x106)]) (fun s =>
      issueStep f c o ctx (beginStep ctx scanPiece) s) s) s

/-- The work of an SREDUCE or a TOPK: the step begins, and its list is read at the member (R252). -/
def listWork (plot ctx : Nat) (st : CStep) (s : State) : State :=
  let s := beginStep ctx (fun _ _ _ => []) st s
  if !e64 s ∨ (findStep (getBed s ctx) st.num).all (fun x => x.stopped) then s
  else if mappedRange s st.a st.cmd.len then
    startRead plot (lineAddrs st.a (st.cmd.len / 128)) (.coll 3 ctx st.num 0)
      (modStep ctx st.num (fun x => { x with busyWork := x.busyWork + 1 }) s)
  else endStep ctx st.num (some 0x210) false (noteOwn 0x210 plot s)

/-- SREDUCE and TOPK: the member's list is read, checked and streamed out (R252-R258). -/
def doSparse (f op : Nat) (own : CCmd → List (Bool × Nat)) (s : State) : State :=
  withCmd f op true (fun c o _ s =>
    let plot := (getFur s f).plot
    let ctx := (findBed s plot c.id).getD 0
    let d := (getBed s ctx).desc
    let cmd := ccmdOf c o
    checked f c (collChecks s f c o [] [(decide (o.len < 256), 0x111), (o.len % 128 != 0, 0x122)]
        ++ [planeCheck d cmd] ++ own cmd ++ [unitGone s c]) (fun s =>
      issueStep f c o ctx (listWork plot ctx) s) s) s

/-- SREDUCE. -/
def doSreduce (f : Nat) (s : State) : State := doSparse f 0x60 (fun _ => []) s
/-- TOPK (R262). -/
def doTopk (f : Nat) (s : State) : State :=
  doSparse f 0x61 (fun c => [(decide (c.p % 8192 = 0 ∨ 4096 < c.p % 8192), 0x3A3)]) s

/-- The dispatch contexts of the build (R279). -/
def dispMax (s : State) : Nat := if e64 s then 16 else 64

/-- The work of a DISPATCH: it holds a dispatch context, and its descriptor is read at the member (R268, R279). -/
def dispWork (plot ctx : Nat) (st : CStep) (s : State) : State :=
  let s := modColl (fun x => { x with
    disp := x.disp ++ [{ ctx := ctx, step := st.num }], dispPeak := max x.dispPeak (x.disp.length + 1) }) s
  if !e64 s then checkReady ctx st.num s
  else if mapped s st.b && mappedRange s st.a st.cmd.len then
    startRead plot [st.b] (.coll 2 ctx st.num 0) (modStep ctx st.num (fun x => { x with busyWork := x.busyWork + 1 }) s)
  else endStep ctx st.num (some 0x210) false (noteOwn 0x210 plot s)

/-- DISPATCH: it takes a context and its descriptor is read (R268, R279). -/
def doDispatch (f : Nat) (s : State) : State :=
  withCmd f 0x62 true (fun c o _ s =>
    let plot := (getFur s f).plot
    let ctx := (findBed s plot c.id).getD 0
    let d := (getBed s ctx).desc
    let cmd := ccmdOf c o
    let used := !idlePlane s d
    checked f c (collChecks s f c o
          [(used && (findDisp s ctx).isSome, 0x3B4), (used && decide (dispMax s ≤ s.coll.disp.length), 0x3B6)]
          [(o.len % 8 != 0, 0x122)]
        ++ [planeCheck d cmd, unitGone s c]) (fun s =>
      issueStep f c o ctx (dispWork plot ctx) s) s) s

/-- A member's row and length do not fit its DISPATCH (R280). -/
def combBad (m : Moe) (tokens : Nat) (c : CCmd) : Bool :=
  c.len != tokens * outBytes c m.rowBytes || m.rowBytes % unitBytes c.fmt != 0

/-- The work of a COMBINE: it goes by its DISPATCH's descriptor, which its step-ready flits carry (R195, R279, R280). -/
def combWork (ctx : Nat) (m : Moe) (st : CStep) (s : State) : State :=
  if e64 s then
    let s := modStep ctx st.num (fun y => { y with moe := m, moeKnown := true }) s
    let s := match findStep (getBed s ctx) st.num with
      | some y => sendReady ctx y s
      | none => s
    checkReady ctx st.num s
  else checkReady ctx st.num s

/-- COMBINE (R279-R285). Until the descriptor of its DISPATCH has been read the command stays at issue (log 62). Its length
counts in units of its output format, the format of the rows that it names (R102, R280; log 62). -/
def doCombine (f : Nat) (s : State) : State :=
  withCmd f 0x63 true (fun c o _ s =>
    let plot := (getFur s f).plot
    let ctx := (findBed s plot c.id).getD 0
    let d := (getBed s ctx).desc
    let cmd := ccmdOf c o
    let used := !idlePlane s d
    let x := findDisp s ctx
    let m := (x.map (fun y => y.moe)).getD {}
    if e64 s && !bedBad s f c true && x.isSome && m.experts == 0 then s
    else checked f c (collChecks s f c o [(used && x.isNone, 0x3B4)]
          [(o.len % unitBytes (outFmt c.d c.osel) != 0, 0x122)]
        ++ [planeCheck d cmd, (e64 s && combBad m ((x.map (fun y => y.tokens)).getD 0) cmd, 0x3B2), unitGone s c]) (fun s =>
      issueStep f c o ctx (combWork ctx m) s) s) s

/-- A COMBINE sets out at its member once its DISPATCH has completed there (R279, R282; log 62). -/
def startCombines (s : State) : State :=
  s.coll.beds.foldl (fun s e =>
    (e.2.steps.filter (fun st => st.cmd.op == 0x63 && st.live && !st.stopped && !st.noted)).foldl (fun s st =>
      if e64 s && !(e.2.steps.any (fun x => x.cmd.op == 0x62 && x.live)) then
        startCombine e.1 st.num (modStep e.1 st.num (fun x => { x with noted := true }) s)
      else s) s) s

end Sys2Proof.Machine
end

