-- ==== Sys2Proof/Machine/CollPump.lean ====
section
/-! DEFINITION. What moves a collective step on: pieces that leave under their grants, acknowledgements, results, notices,
timers and the steps in rank order (R164, R195-R203, R207-R209, R214-R217, R234, R267, R272, R352). -/

namespace Sys2Proof.Machine

/-- A piece may leave: its server's grant covers it (R197, R263, R267, R272, R281). A server that is this block itself grants
by what it has allocated. -/
def mayLeave (s : State) (ctx : Nat) (b : Bed) (st : CStep) (p : Piece) : Bool :=
  let me := p.server == selfNode s
  let alone := b.stepHz.lookup (st.num, p.server)
  if p.kind = 0x3C then (if me then st.noted else alone.isSome)
  else if st.cmd.op = 0x63 then (if me then decide (p.chunk < st.alloc) else decide (p.chunk < alone.getD 0))
  else if st.cmd.op = 0x59 ∨ st.cmd.op = 0x62 then
    if me then
      (match findSlot s ctx st.num st.c0 0 with
       | some (_, x) => decide (myRank s b.desc < x.next + rankWindow s b st)
       | none => false)
    else alone.isSome
  else granted s b p.server p.chunk

/-- A packet of a stream lies in the window of four that its server admits (R258). -/
def inWindow (s : State) (ctx : Nat) (st : CStep) (id : Nat) (p : Piece) : Bool :=
  match p.stream, p.pkt with
  | some j, some q =>
    !(st.out.any (fun e => e.1 < id && e.2.stream == some j))
      && !(s.xfer.rqs.any (fun e => e.2.who == .coll ctx st.num && !e.2.dead && e.2.pkt.kind == 0x35 && e.2.pkt.stripe == j
            && decide (e.2.pkt.ar 32 4 + 4 ≤ q.ar 32 4)))
  | _, _ => true

/-- What a piece's packets belong to: its step, or the slot that they empty. -/
def Piece.who (p : Piece) (ctx num : Nat) : RqFor := match p.slot with | some i => .slot i | none => .coll ctx num

/-- A granted piece leaves: a packet that is formed joins the send queue, a range is read first (R195, R197). -/
def leave (ctx num id : Nat) (p : Piece) (s : State) : State :=
  let plot := (getBed s ctx).plot
  match p.pkt with
  | some q => sendColl (p.who ctx num) plot q (modStep ctx num (fun st => { st with out := st.out.filter (fun e => e.1 != id) }) s)
  | none =>
    if mappedRange s p.src p.len then
      startRead plot (lineAddrs (lineBase p.src) (ceilDiv (p.src % 128 + p.len) 128)) (.coll 1 ctx num id)
        (modStep ctx num (fun st => { st with
          out := st.out.map (fun e => if e.1 = id then (id, { e.2 with reading := true }) else e) }) s)
    else endStep ctx num (some 0x210) false (noteOwn 0x210 plot s)

/-- The granted pieces of a step leave in order. -/
def pumpStep (ctx num : Nat) (s : State) : State :=
  match findStep (getBed s ctx) num with
  | none => s
  | some st0 =>
    st0.out.foldl (fun s e =>
      let b := getBed s ctx
      match findStep b num with
      | none => s
      | some st =>
        if !e.2.reading && st.out.any (fun x => x.1 == e.1) && mayLeave s ctx b st e.2 && inWindow s ctx st e.1 e.2
        then leave ctx num e.1 e.2 s else s) s

/-- Every step's granted pieces leave; under L3, Safe or a reset nothing does (R421, R427). -/
def pumpColl (s : State) : State :=
  if stopped s then s
  else s.coll.beds.foldl (fun s e => e.2.steps.foldl (fun s st => if st.out.isEmpty then s else pumpStep e.1 st.num s) s) s

/-- A contribution between two members of one board travels on VN4 under SHIFT and PERMUTE (R207). -/
def pieceVn (b : Bed) (st : CStep) : Nat :=
  if (st.cmd.op = 0x57 ∨ st.cmd.op = 0x58) ∧ b.desc.oneBoard then 4 else 3

/-- The packets of a range: 1 KiB cells of the server's piece (R198). -/
def cutPiece (s : State) (b : Bed) (st : CStep) (p : Piece) : Nat → Nat → List Byte → List Packet
  | 0, _, _ => []
  | k + 1, off, bs =>
    if bs.isEmpty then []
    else
      let n := 1024 - off % 1024
      let rest := bs.drop n
      let fields := if p.kind = 0x3A then [(32, 8, p.ent)] else []
      collPkt s b p.kind (pieceVn b st) p.server
        (collArea b st.num p.chunk p.stripe (myRank s b.desc) (p.idx0 + off / 1024) 0 { last := rest.isEmpty } fields)
        (bs.take n) :: cutPiece s b st p k (off + n) rest

/-- A piece's lines have been read: its packets are formed (R195, R198). -/
def pieceRead (ctx num id : Nat) (err : Bool) (ls : List Line) (s : State) : State :=
  let b := getBed s ctx
  match findStep b num with
  | none => s
  | some st =>
    match st.out.lookup id with
    | none => s
    | some p =>
      let s := modStep ctx num (fun x => { x with out := x.out.filter (fun e => e.1 != id) }) s
      if err then endStep ctx num (some 0x221) false s
      else
        let bs := ((linesBytes ls).drop (p.src % 128)).take p.len
        (cutPiece s b st p (p.len / 1024 + 2) p.off bs).foldl (fun s q => sendColl (p.who ctx num) b.plot q s) s

/-- The sent packet that a collective acknowledgement names (R323, R324). -/
def matchColl (s : State) (p : Packet) : Option (Nat × Rq) :=
  s.xfer.rqs.find? (fun e => e.2.sent && e.2.isReq && isCollVn e.2.pkt.vn && e.2.pkt.dst == p.src
    && fld e.2.pkt.area 0 128 == fld p.area 0 128)

/-- A collective acknowledgement arrives: the packet is done with, or rests for 1 us when it is busy (R198, R200, R234). -/
def takeCollAck (p : Packet) (s : State) : State :=
  match matchColl s p with
  | none => s
  | some (id, r) =>
    if r.busy then s
    else if (p.ar 32 1).testBit 0 && !r.dead then modRq id (fun x => { x with busy := true, deep := true, at1 := s.clk }) s
    else dropRq id s

/-- One microsecond after a busy answer the packet goes out again (R234). -/
def deepResend (id : Nat) (s : State) : State :=
  match getRq s id with
  | none => s
  | some r =>
    if !(r.busy && r.deep && passed s r.at1 1000) then s
    else if r.pkt.dst = selfNode s then modColl (fun c => { c with inbox := c.inbox ++ [r.pkt] }) (dropRq id s)
    else modRq id (fun x => { x with sent := false, busy := false, deep := false, again := true }) s

/-- Result lines arrive (R200, R217, R442). -/
def takeResult (plot : Nat) (p : Packet) (s : State) : State :=
  onBed plot p (fun ctx b s =>
    let again := fun s : State =>
      if s.coll.landings.any (fun e => e.2.ack.any (fun q => q.src == p.src && q.area == p.area))
      then modBed ctx (fun b => { b with dup := b.dup + 1, dupWrap := b.dupWrap || b.dup == 0xFFFFFFFF }) s
      else collDup ctx p s
    match findStep b p.stepNo with
    | none => if (abortedAt b.abort p.stepNo).isSome || atOrBefore b.nextStep p.stepNo then s else collDup ctx p s
    | some st =>
      let key := (p.src, p.chunkNo, p.stripe, p.ar 32 8)
      if st.stopped then s
      else if st.seen.contains key then again s
      else
        land { ctx := ctx, step := st.num, bytes := p.bytes.length, ack := some p,
               sect := sectOf st.cmd p.stripe p.lastFlag p.bytes } (st.b + p.ar 32 8) p.bytes
          (modStep ctx st.num (fun x => { x with seen := key :: x.seen }) s)) s

/-- A member's command of a bulk step and those after it end by a notice (R216, R217). -/
def takeNotice (ctx num code : Nat) (s : State) : State :=
  let b := getBed s ctx
  if (abortedAt b.abort num).isSome then s
  else endStepsFrom ctx num code true (markAbort ctx num code true s)

/-- A member's step timer expires (R214). -/
def memberExpiry (ctx num : Nat) (s : State) : State :=
  let b := getBed s ctx
  match findStep b num with
  | none => s
  | some st =>
    if b.isOpen && e64 s && st.live && passed s st.since (b.desc.limit * 1000) then endStep ctx num (some 0x320) false s else s

/-- The step timer of a serving block's slot expires (R215). -/
def servingExpiry (id : Nat) (s : State) : State :=
  match getSlot s id with
  | none => s
  | some x =>
    if x.first.isSome && passed s x.since ((getBed s x.ctx).desc.limit * 1000) then abandonStep x.ctx x.step 0x321 false s else s

/-- A slot in rank order takes every rank that has come (R267, R272). -/
def rankRun (id : Nat) : Nat → State → State
  | 0, s => s
  | k + 1, s =>
    match getSlot s id with
    | none => s
    | some x =>
      match findStep (getBed s x.ctx) x.step with
      | none => s
      | some st =>
        if x.done || !x.mask.getLsbD x.next || !(st.cmd.op == 0x59 || st.cmd.op == 0x62) then s
        else
          let t := if st.cmd.op = 0x59 then scanNext id x s else tagNext id x s
          match getSlot t id with
          | none => t
          | some y => if y.next = x.next then t else rankRun id k t

/-- Every slot in rank order moves on. -/
def rankRuns (s : State) : State := s.coll.slots.foldl (fun s e => rankRun e.1 513 s) s

/-- The mesh link toward the next slot of the board ring is up: port engine 0 (R207). -/
def ringUp (s : State) : Bool := linkUp s 0

/-- A board-route packet has neither its direct link nor the ring: its step is abandoned (R209; log 65). -/
def ringAborts (s : State) : State :=
  s.xfer.rqs.foldl (fun s e =>
    match e.2.who with
    | .coll ctx num =>
      if e.2.pkt.vn = 4 ∧ !e.2.sent ∧ !e.2.dead ∧ !meshUp s e.2.pkt.dst ∧ !ringUp s
      then abandonStep ctx num 0x315 false s else s
    | _ => s) s

/-- A collective packet has no forwarding peer: 0x621 is noted once for its step (R353). -/
def noPeers (s : State) : State :=
  s.xfer.rqs.foldl (fun s e =>
    let p := e.2.pkt
    let lost := if e64 s then decide (512 ≤ p.dst) && (p.vn == 3 || p.kind == 0x27) else p.vn == 3 || p.kind == 0x26 || p.kind == 0x27
    if !e.2.sent && !e.2.dead && lost && (collPath s p).isNone then
      match s.coll.beds.find? (fun b => b.2.isOpen && b.2.desc.bed == p.bedId && b.2.desc.gen == p.bedGen) with
      | none => s
      | some (ctx, b) =>
        if s.trl.noted621.contains (ctx, p.stepNo) then s
        else note 0x621 (some b.plot) .block ctx
          { s with trl := { s.trl with noted621 := (ctx, p.stepNo) :: s.trl.noted621 } }
    else s) s

/-- The collective work that follows every command: ranks in order, grants of candidate lists, COMBINEs that can begin,
pieces that may leave, slots and steps that are over. -/
def sweepColl (s : State) : State :=
  if s.coll.beds.isEmpty then s
  else dropSteps (completeSteps (releaseSlots (noPeers (ringAborts (pumpColl (startCombines (grantCands (rankRuns s))))))))

/-- A furrow's collective commands are abandoned: the block sends nothing more for them, and the slots that it serves stay
(R80, R167, R218). -/
def abandonColl (f : Nat) (s : State) : State :=
  s.coll.beds.foldl (fun s e =>
    (e.2.steps.filter (fun st => st.live && st.f == f)).foldl (fun s st =>
      dropStep e.1 st.num (modStep e.1 st.num (fun x => { x with
        live := false, stopped := true, busyWork := 0, out := x.out.filter (fun q => q.2.slot.isSome) }) s)) s) s

end Sys2Proof.Machine
end

