-- ==== Sys2Proof/Machine/Dibber.lean ====
section
/-! DEFINITION. The Dibber: DREDUCE and DBARRIER, its slots and grants, the board phase, the plane and its timers
(R289-R303). -/

namespace Sys2Proof.Machine

/-- A Dibber step of a bed. -/
def findD (b : Bed) (num : Nat) : Option DStep := b.dsteps.find? (fun x => x.num == num)
/-- A Dibber step changed. -/
def modD (c num : Nat) (g : DStep → DStep) (s : State) : State :=
  modBed c (fun b => { b with dsteps := b.dsteps.map (fun x => if x.num = num then g x else x) }) s
/-- The Dibber slot of a step. -/
def findDSlot (s : State) (c num : Nat) : Option (Nat × DSlot) :=
  s.coll.dslots.find? (fun e => e.2.ctx == c && e.2.step == num)
/-- A Dibber slot changed. -/
def modDSlot (id : Nat) (g : DSlot → DSlot) (s : State) : State :=
  modColl (fun c => { c with dslots := c.dslots.map (fun e => if e.1 = id then (id, g e.2) else e) }) s
/-- Dibber slots leave the pool. -/
def freeDSlots (gone : DSlot → Bool) (s : State) : State :=
  modColl (fun c => { c with dslots := c.dslots.filter (fun e => !gone e.2) }) s

/-- DIB_ERR captures the first error (R304). -/
def dibErr (code ctx rank : Nat) (s : State) : State :=
  if s.coll.dibErr.valid then s
  else modColl (fun c => { c with dibErr := { code := code, ctx := ctx, rank := rank, valid := true } }) s

/-- The endpoints of this board that are members. -/
def boardMembers (s : State) (d : Desc) : List Nat := (d.onBoard (boardOf (selfNode s))).map d.member
/-- The other members of this board (R293). -/
def boardPeers (s : State) (d : Desc) : List Nat := (boardMembers s d).filter (fun e => e != selfNode s)
/-- The boards that have members. -/
def bedBoards (d : Desc) : List Nat := (d.ranks.map boardOf).eraseDups

/-- The uplink live mask of a member of this board, as its Dibber grants give it (R295). -/
def dibMask (s : State) (b : Bed) (e : Nat) : Nat :=
  if e = selfNode s then upMask s else b.dmasks.getD e 0xFFFFFFFF

/-- The board's sender: the lowest-rank member whose uplink to the Dibber plane is live (R294). -/
def dibSender (s : State) (b : Bed) : Option Nat :=
  (boardMembers s b.desc).find? (fun e => (dibMask s b e).testBit (dibPlane b.desc - 512))

/-- A Dibber command ends here, in error or done (R297, R302). -/
def endD (ctx num : Nat) (err : Option Nat) (outside : Bool) (s : State) : State :=
  match findD (getBed s ctx) num with
  | none => s
  | some x =>
    let s := modD ctx num (fun y => { y with live := false, stopped := y.stopped || err.isSome }) s
    if x.live then partDone x.f x.tid err outside s else s

/-- Dibber steps from `num` on end with a code, and their slots go (R217, R302). -/
def endDFrom (ctx num code : Nat) (outside : Bool) (s : State) : State :=
  let nums := ((getBed s ctx).dsteps.filter (fun x => atOrBefore num x.num)).map (fun x => x.num)
  let s := nums.foldl (fun s n => endD ctx n (some code) outside s) s
  freeDSlots (fun x => x.ctx == ctx && atOrBefore num x.step) s

/-- A bed's Dibber abort is on record. -/
def markDAbort (ctx num code : Nat) (outside : Bool) (s : State) : State :=
  modBed ctx (fun b => { b with
    dabort := match b.dabort with
      | some (n, c, o) => if atOrBefore n num then some (n, c, o) else some (num, code, outside)
      | none => some (num, code, outside),
    aborted := true, abortCode := code }) s

/-- The ranks missing from a Dibber slot: the members of this board, or of the boards, that have not come whole. -/
def dibMissing (s : State) (d : Desc) (x : DSlot) : List Nat :=
  if e64 s then (d.onBoard (boardOf (selfNode s))).filter (fun r => !x.got.contains (d.member r % 8, 0))
  else (List.range d.n).filter (fun r =>
    let k := boardOf (d.member r)
    match x.lasts.find k with
    | none => true
    | some n => !((List.range (n + 1)).all (fun i => x.got.contains (k, i))))

/-- A serving block abandons a Dibber step (R215, R297, R302). Its notices have the last flag set, which says that the
step is a Dibber step (log 63); a plane tells the members of the boards that have sent to it (log 68). -/
def abandonD (ctx num code : Nat) (quiet : Bool) (s : State) : State :=
  let b := getBed s ctx
  if (abortedAt b.dabort num).isSome || !b.isOpen then s
  else
    let x := ((findDSlot s ctx num).map (fun e => e.2)).getD { ctx := ctx, step := num }
    let miss := dibMissing s b.desc x
    let s := if !quiet && faultLevel code == .l0 then note code (some b.plot) .dibber 0 s else s
    let s := dibErr code ctx (if code = 0x341 then miss.headD 0 else 0) s
    let s := queueRec { kind := 3, time := 0, code := code, plot := some b.plot,
                        body := .stepAbort b.desc.bed b.desc.gen num 0 code (rankMask miss) } s
    let told := if e64 s then (b.dready.filter (fun r => atOrBefore num r.1.1)).map (fun r => (r.1.1, r.1.2))
      else s.coll.dslots.flatMap (fun e =>
        if e.2.ctx = ctx ∧ atOrBefore num e.2.step then
          ((List.range b.desc.n).filter (fun r => e.2.got.any (fun g => g.1 == boardOf (b.desc.member r)))).map (fun r => (e.2.step, r))
        else [])
    let s := (told.filter (fun r => b.desc.member r.2 != selfNode s)).foldl (fun s r =>
      sendFlit b.plot (collPkt s b 0x26 1 (b.desc.member r.2)
        (collArea b r.1 0 0 r.2 0 0 { last := true } [(32, 2, code)]) []) s) s
    let lost := code == 0x852
    endDFrom ctx num code lost (markDAbort ctx num code lost s)

/-- Elements of bytes join full-width accumulators (R292). -/
def dibFold (c : CCmd) (bs : List Byte) (t : Tbl HGroup) : Tbl HGroup :=
  foldVals c.sel (wideFmt c.fmt) (placeVals c.fmt 0 0 bs) t

/-- The rounded result of a Dibber step (R292). -/
def dibResult (c : CCmd) (t : Tbl HGroup) : List Byte :=
  let x : DSlot := { ctx := 0, step := 0, groups := t }
  encodeVals (outFmt c.fmt c.sel) c.sel ((List.range (elemsOf c.fmt c.len)).map (fun e => (x.groups.at (e / 32)).value c.sel c.fmt (e % 32)))

/-- How many words one Dibber partial packet takes from element `first` on: at most 704 bytes (R294, R323). -/
def dibTake (wide : Bool) (grp : Nat → HGroup) (stop first : Nat) : Nat → Nat → Nat → Nat
  | 0, n, _ => n
  | k + 1, n, used =>
    let w := wordBytes wide (grp ((first + n) / 32))
    if stop ≤ first + n ∨ 704 < used + w then n else dibTake wide grp stop first k (n + 1) (used + w)

/-- The packets of a board's exact partial in the escalated loam form (R294, R235). -/
def dibPackets (wide : Bool) (grp : Nat → HGroup) (stop : Nat) : Nat → Nat → List (Nat × List Nat × List Byte)
  | 0, _ => []
  | k + 1, first =>
    if stop ≤ first then []
    else
      let n := max 1 (dibTake wide grp stop first 64 0 0)
      (first, (List.range 4).map (fun i => if first / 32 + i ≤ (first + n - 1) / 32 then recordBits (grp (first / 32 + i)) else 0),
        ((List.range n).map (fun i => loamWord wide (grp ((first + i) / 32)) ((first + i) % 32))).flatten)
        :: dibPackets wide grp stop k (first + n)

/-- A group of a partial: its exact sums, escalated. -/
def dibGroup (c : CCmd) (t : Tbl HGroup) (g : Nat) : HGroup := { (t.at g).asSums c.sel c.fmt with esc := true }

/-- The board's partial goes up to the Dibber plane (R294); a barrier's is one flit (R300). -/
def sendUp (ctx : Nat) (x : DStep) (t : Tbl HGroup) (s : State) : State :=
  let b := getBed s ctx
  let plane := dibPlane b.desc
  let r := myRank s b.desc
  let c := x.cmd
  let s := modD ctx x.num (fun y => { y with sentTo := plane :: y.sentTo }) s
  if c.op = 0x71 then
    sendFlit b.plot (collPkt s b 0x50 5 plane (collArea b x.num 0 0 r 0 0 { last := true } (readyFields b c {})) []) s
  else
    let ps := dibPackets (wideFmt c.fmt) (dibGroup c t) (elemsOf c.fmt c.len) 64 0
    (ps.zipIdx).foldl (fun s p =>
      let recs := (p.1.2.1.zipIdx).map (fun q => (32 + 7 * q.2, 7, q.1))
      sendFlit b.plot (collPkt s b 0x51 5 plane
        (collArea b x.num 0 0 r p.2 p.1.1 { last := p.2 + 1 == ps.length, loam := true } recs) p.1.2.2) s) s

/-- A step is over at this block: DIB_STEPS and DIB_LAST_NS (R304). -/
def dibDone (lastNs : Nat) (s : State) : State :=
  modColl (fun c => { c with
    dibSteps := c.dibSteps + 1, stepsWrap := c.stepsWrap || c.dibSteps == 0xFFFFFFFF,
    lastNs := min (s.sun.time - lastNs) 0xFFFFFFFF }) s

/-- The result of a step is handed to the memory-port write, and its slot is released (R290, R291, R298). -/
def handOver (ctx num : Nat) (bs : List Byte) (s : State) : State :=
  let b := getBed s ctx
  match findD b num with
  | none => s
  | some x =>
    if x.handed || x.stopped then s
    else
      let last := ((findDSlot s ctx num).map (fun e => e.2.lastNs)).getD s.sun.time
      let s := freeDSlots (fun y => y.ctx == ctx && y.step == num) (modD ctx num (fun y => { y with handed := true }) s)
      let s := dibDone last s
      if x.cmd.op = 0x71 then endD ctx num none false s
      else if mapped s x.b then
        startWrite b.plot (some b.desc.landing) (bytesWr x.b bs) (.coll 5 ctx num 0) s
      else endD ctx num (some 0x210) false (noteOwn 0x210 b.plot s)

/-- The write of a Dibber result is visible and counted (R290). -/
def dibWritten (ctx num : Nat) (err : Bool) (s : State) : State := endD ctx num (if err then some 0x221 else none) false s

/-- A member's source line has been read (R289). -/
def dibRead (ctx num : Nat) (err : Bool) (ls : List Line) (s : State) : State :=
  match findD (getBed s ctx) num with
  | none => s
  | some x =>
    if err then endD ctx num (some 0x221) false s
    else modD ctx num (fun y => { y with data := some (((linesBytes ls).drop (x.a % 128)).take x.cmd.len) }) s

/-- What a Dibber step can do next at an E64: take its own contribution, send to the peers that have granted, finish, or
pass its board's partial up (R293, R294, R297). -/
def dibMember (ctx num : Nat) (s : State) : State :=
  let b := getBed s ctx
  let d := b.desc
  match findD b num with
  | none => s
  | some x =>
    match x.data with
    | none => s
    | some bs =>
      if x.stopped then s
      else
        let me := selfNode s
        let peers := (boardPeers s d).filter (fun e => b.dgrants.contains (num, e) && !x.sentTo.contains e)
        let s := peers.foldl (fun s e =>
          sendFlit b.plot (collPkt s b 0x50 5 e (collArea b num 0 0 (myRank s d) 0 0 { last := true } (readyFields b x.cmd {})) bs)
            (modD ctx num (fun y => { y with sentTo := e :: y.sentTo }) s)) s
        let mine := mySlot s
        let s := match findDSlot s ctx num with
          | some (id, y) =>
            if y.got.contains (mine, 0) then s
            else modDSlot id (fun y => { y with got := (mine, 0) :: y.got, groups := dibFold x.cmd bs y.groups, lastNs := s.sun.time }) s
          | none => s
        let whole : Option (Tbl HGroup) := match findDSlot s ctx num with
          | some (_, y) => if (dibMissing s d y).isEmpty then some y.groups else none
          | none => if (boardPeers s d).isEmpty then some (dibFold x.cmd bs []) else none
        match whole with
        | none => s
        | some t =>
          if d.oneBoard then handOver ctx num (dibResult x.cmd t) s
          else if dibSender s b = some me ∧ b.dgrants.contains (num, dibPlane d) ∧ !x.sentTo.contains (dibPlane d) then
            (match findD (getBed s ctx) num with | some y => sendUp ctx y t s | none => s)
          else s

/-- A plane whose slot holds every board rounds once and multicasts (R294, R298). A member whose downlink is down gets its
result from the board's sender (R295). -/
def dibPlaneDone (ctx num : Nat) (s : State) : State :=
  let b := getBed s ctx
  match findDSlot s ctx num, findD b num with
  | some (_, y), some x =>
    if !(dibMissing s b.desc y).isEmpty || x.handed then s
    else
      let s := modD ctx num (fun z => { z with handed := true }) s
      let s := b.desc.ranks.foldl (fun s e =>
        if !linkUp s e then s
        else
          let area := collArea b num 0 0 0 0 0 { last := true, result := true } []
          sendFlit b.plot (if x.cmd.op = 0x71 then collPkt s b 0x53 5 e area [] else collPkt s b 0x52 5 e area (dibResult x.cmd y.groups)) s) s
      endD ctx num none false (dibDone y.lastNs (freeDSlots (fun z => z.ctx == ctx && z.step == num) s))
  | _, _ => s

/-- Dibber steps move on, and leave the books once nothing of them is left to send. -/
def sweepDib (s : State) : State :=
  let s := if stopped s then s
    else s.coll.beds.foldl (fun s e => e.2.dsteps.foldl (fun s x =>
      if e64 s then dibMember e.1 x.num s else dibPlaneDone e.1 x.num s) s) s
  s.coll.beds.foldl (fun s e =>
    let gone := fun x : DStep => !x.live && (findDSlot s e.1 x.num).isNone
      && (x.stopped || !e64 s || (boardPeers s e.2.desc).all (fun p => x.sentTo.contains p))
    if e.2.dsteps.any gone then
      let out := fun n : Nat => e.2.dsteps.any (fun x => gone x && x.num == n)
      modBed e.1 (fun b => { b with
        dsteps := b.dsteps.filter (fun x => !gone x), dgrants := b.dgrants.filter (fun g => !out g.1),
        dready := b.dready.filter (fun r => !out r.1.1) }) s
    else s) s

/-- The alignment of a DREDUCE operand: to the element, within one line (R102, R290). -/
def dibAligned (c : CCmd) (a n : Nat) : Bool := a % max 1 (fmtBits c.fmt / 8) == 0 && decide (a % 128 + n ≤ 128)

/-- The result bytes of a DREDUCE: L × w (R290). -/
def dibOut (c : CCmd) : Nat := c.len / max 1 (fmtBits c.fmt / 8) * (fmtBits (outFmt c.fmt c.sel) / 8)

/-- A Dibber command takes its bed's next Dibber step (R289). A plane that is not the bed's Dibber plane has nothing to do
(log 66). -/
def issueDib (f : Nat) (c : Cmd) (o : Opnd) (ctx : Nat) (s : State) : State :=
  let tid := nextTid s f
  let s := issueOut f c 1 none s
  let b := getBed s ctx
  let num := b.nextDib
  let x : DStep := { num := num, cmd := ccmdOf c o, f := f, tid := tid, a := o.a.toNat, b := o.b.toNat % 2 ^ 47, since := s.clk,
                     data := if c.op = 0x71 then some [] else none }
  let s := modBed ctx (fun b => { b with nextDib := (num + 1) % 2 ^ 32 }) s
  if !e64 s && (b.desc.oneBoard || dibPlane b.desc != selfNode s) then partDone f tid none false s
  else
    let s := modBed ctx (fun b => { b with dsteps := b.dsteps ++ [x] }) s
    match abortedAt b.dabort num with
    | some (code, outside) => endD ctx num (some code) outside s
    | none =>
      if !e64 s ∨ c.op = 0x71 then s
      else if mapped s x.a then startRead b.plot [lineBase x.a] (.coll 4 ctx num 0) s
      else endD ctx num (some 0x210) false (noteOwn 0x210 b.plot s)

/-- DREDUCE (R289, R290, R294). -/
def doDreduce (f : Nat) (s : State) : State :=
  withCmd f 0x70 true (fun c o _ s =>
    let ctx := (findBed s (getFur s f).plot c.id).getD 0
    let d := (getBed s ctx).desc
    let cmd := ccmdOf c o
    checked f c [regCheck s c o, (bedBad s f c true, 0x131), (!localOk o.a, 0x123),
        (e64 s && !(dibAligned cmd o.a.toNat cmd.len && dibAligned cmd (o.b.toNat % 2 ^ 47) (dibOut cmd)), 0x121),
        lenCheck o, (decide (64 < cmd.len ∨ 64 < dibOut cmd), 0x111), (cmd.len % max 1 (fmtBits cmd.fmt / 8) != 0, 0x122),
        (!d.oneBoard && d.planeList.isEmpty, 0x315)] (fun s => issueDib f c o ctx s) s) s

/-- DBARRIER (R289, R291, R294). -/
def doDbarrier (f : Nat) (s : State) : State :=
  withCmd f 0x71 true (fun c o _ s =>
    let ctx := (findBed s (getFur s f).plot c.id).getD 0
    let d := (getBed s ctx).desc
    checked f c [regCheck s c o, (bedBad s f c true, 0x131), (!d.oneBoard && d.planeList.isEmpty, 0x315)]
      (fun s => issueDib f c { o with len := 0 } ctx s) s) s

/-- The Dibber step of a bed that is next to have a slot here (R296, R297). -/
def nextDSlot (s : State) (b : Bed) : Option DStep :=
  if dibResv s b.desc = 0 then none else b.dsteps.find? (fun x => !x.slot && !x.stopped)

/-- A bed waits for a Dibber slot, from its reservation or from the shared pool (R296). -/
def wantsDSlot (s : State) (ctx : Nat) (b : Bed) (shared : Bool) : Bool :=
  b.isOpen && (nextDSlot s b).isSome && decide (dibHeld s ctx < 4)
    && (if shared then decide (b.dresv ≤ dibHeld s ctx) && decide (dibInUse s < dibSlots s) else decide (dibHeld s ctx < b.dresv))

/-- The bed that the shared Dibber slots serve next (R296). -/
def dibTurn (s : State) : Option Nat :=
  let ws := (s.coll.beds.filter (fun e => wantsDSlot s e.1 e.2 true)).map (fun e => e.1)
  match ws.find? (fun c => decide (s.coll.dturn < c)) with
  | some c => some c
  | none => ws.head?

/-- A block allocates a Dibber slot and grants it to the blocks that may send into it (R295, R297). A plane grants to every
member, since any may become its board's sender. -/
def allocDib (ctx : Nat) (s : State) : State :=
  let b := getBed s ctx
  let fromResv := wantsDSlot s ctx b false
  if stopped s || !inRun s || (getDom s (dibDom s)).ownerOff || !(fromResv || dibTurn s == some ctx) then s
  else if !domOn s (dibDom s) then wakeDom (dibDom s) s
  else match nextDSlot s b with
    | none => s
    | some x =>
      let id := s.coll.nextId
      let s := modColl (fun c => { c with
        dslots := c.dslots ++ [(id, { ctx := ctx, step := x.num })], nextId := id + 1, dturn := if fromResv then c.dturn else ctx,
        dibPeak := max c.dibPeak (c.dslots.length + 1) }) s
      let s := modD ctx x.num (fun y => { y with slot := true }) s
      let tos := if e64 s then boardPeers s b.desc else b.desc.ranks
      let rank := if e64 s then myRank s b.desc else 0
      tos.foldl (fun s e =>
        sendFlit b.plot (collPkt s b 0x31 5 e (collArea b x.num ((x.num + 1) % 2 ^ 32) 0 rank 0 0 {}
          [(32, 4, if e64 s then upMask s else 0)]) []) s) s

/-- A Dibber grant arrives (R295, R297). -/
def takeDGrant (plot : Nat) (p : Packet) (s : State) : State :=
  onBed plot p (fun ctx _ s =>
    modBed ctx (fun b =>
      let b := if p.src < 512 then { b with dmasks := b.dmasks.set p.src (p.ar 32 4) } else b
      if ((findD b p.stepNo).isSome || atOrBefore b.nextDib p.stepNo) && !b.dgrants.contains (p.stepNo, p.src)
      then { b with dgrants := (p.stepNo, p.src) :: b.dgrants } else b) s) s

/-- A Dibber packet is a duplicate (R298). -/
def dibDup (s : State) : State :=
  modColl (fun c => { c with dibDup := c.dibDup + 1, ddupWrap := c.ddupWrap || c.dibDup == 0xFFFFFFFF }) s

/-- A Dibber packet at its slot: a duplicate is counted; `k` takes a fresh one (R298). -/
def dibAdmit (plot : Nat) (p : Packet) (k : Nat → DStep → Nat → DSlot → State → State) (s : State) : State :=
  onBed plot p (fun ctx b s =>
    if (abortedAt b.dabort p.stepNo).isSome then s
    else match findD b p.stepNo, findDSlot s ctx p.stepNo with
      | some x, some (id, y) =>
        if y.got.contains (if e64 s then (p.src % 8, 0) else (boardOf p.src, p.pidx)) then dibDup s else k ctx x id y s
      | some x, none => if x.handed then dibDup s else s
      | none, _ => if atOrBefore b.nextDib p.stepNo then s else dibDup s) s

/-- A receipt in a Dibber slot. -/
def dibStamp (s : State) (key : Nat × Nat) (last : Option (Nat × Nat)) (y : DSlot) : DSlot :=
  { y with got := key :: y.got, lasts := (match last with | some (k, n) => y.lasts.set k n | none => y.lasts),
           since := if y.since.isSome then y.since else some s.clk, lastNs := s.sun.time }

/-- A Dibber contribution at a board peer, or a barrier's flit at the plane (R293, R297, R300): its step-ready content is
compared first (R206). -/
def takeDib (plot : Nat) (p : Packet) (s : State) : State :=
  dibAdmit plot p (fun ctx x id _ s =>
    let b := getBed s ctx
    let r : ReadyInfo := { cmd := { op := p.ar 32 1, fmt := p.ar 33 1, sel := p.ar 34 1, len := p.ar 36 4, p := p.ar 40 3 % 2 ^ 17 },
                           crc := p.ar 44 2 }
    let s := modBed ctx (fun b => { b with dready := b.dready ++ [((p.stepNo, p.rank), r.cmd)] }) s
    if r.cmd ≠ x.cmd then abandonD ctx x.num 0x312 false s
    else if r.crc ≠ b.desc.crc % 65536 then abandonD ctx x.num 0x313 false s
    else if e64 s then
      modDSlot id (fun y => { dibStamp s (p.src % 8, 0) none y with groups := dibFold x.cmd ((p.bytes).take x.cmd.len) y.groups }) s
    else modDSlot id (dibStamp s (boardOf p.src, 0) (some (boardOf p.src, 0))) s) s

/-- A board's partial at the Dibber plane (R292, R294). -/
def takeDPartial (plot : Nat) (p : Packet) (s : State) : State :=
  dibAdmit plot p (fun ctx x id y s =>
    if e64 s ∨ x.cmd.op ≠ 0x70 then s
    else
      let c := x.cmd
      let recs := (List.range 4).map (fun i => recordOf (p.ar (32 + 7 * i) 7))
      match foldLoam c.sel c.fmt (wideFmt c.fmt) 0 (p.ar 30 2 % 2 ^ 14) (elemsOf c.fmt c.len) recs 97 (p.ar 30 2 % 2 ^ 14)
          ((p.bytes).take 704) y.groups with
      | some (gs, _) =>
        modDSlot id (fun y => { dibStamp s (boardOf p.src, p.pidx)
          (if p.lastFlag then some (boardOf p.src, p.pidx) else none) y with groups := gs }) s
      | none => abandonD ctx x.num 0x420 false s) s

/-- A result or a release arrives (R290, R291, R294). The board's sender forwards it to the members of its board that the
plane cannot reach (R295). -/
def takeDResult (plot : Nat) (p : Packet) (s : State) : State :=
  onBed plot p (fun ctx b s =>
    match findD b p.stepNo with
    | none => if atOrBefore b.nextDib p.stepNo then s else dibDup s
    | some x =>
      if x.handed then dibDup s
      else
        let plane := dibPlane b.desc
        let s := if dibSender s b = some (selfNode s) ∧ 512 ≤ p.src then
            ((boardPeers s b.desc).filter (fun e => !(dibMask s b e).testBit (plane - 512))).foldl (fun s e =>
              pushRq { pkt := { p with dst := e }, who := .once, plot := b.plot } s) s
          else s
        handOver ctx x.num ((p.bytes).take (dibOut x.cmd)) s) s

/-- A member's Dibber step ends by a notice (R216, R217, R302). -/
def takeDNotice (ctx num code : Nat) (s : State) : State :=
  let b := getBed s ctx
  if (abortedAt b.dabort num).isSome then s
  else endDFrom ctx num code true (markDAbort ctx num code true s)

/-- A step-abort notice arrives (R216). -/
def takeAbort (plot : Nat) (p : Packet) (s : State) : State :=
  onBed plot p (fun ctx _ s =>
    if p.lastFlag then takeDNotice ctx p.stepNo (p.ar 32 2 % 4096) s else takeNotice ctx p.stepNo (p.ar 32 2 % 4096) s) s

/-- A member's Dibber timer expires (R302). -/
def dibMemberExpiry (ctx num : Nat) (s : State) : State :=
  match findD (getBed s ctx) num with
  | none => s
  | some x =>
    if e64 s && x.live && passed s x.since (s.coll.dibLimit * 1000) then
      endD ctx num (some 0x340) false (dibErr 0x340 ctx 0 s)
    else s

/-- The timer of a serving block's Dibber slot expires (R302). -/
def dibServingExpiry (id : Nat) (s : State) : State :=
  match s.coll.dslots.lookup id with
  | none => s
  | some y =>
    match y.since with
    | none => s
    | some t => if passed s t (s.coll.dibLimit * 1000) then abandonD y.ctx y.step 0x341 false s else s

/-- A furrow's Dibber commands are abandoned (R80, R444). -/
def abandonDib (f : Nat) (s : State) : State :=
  s.coll.beds.foldl (fun s e =>
    (e.2.dsteps.filter (fun x => x.live && x.f == f)).foldl (fun s x =>
      modD e.1 x.num (fun y => { y with live := false, stopped := true }) s) s) s

end Sys2Proof.Machine
end

