-- ==== Sys2Proof/Machine/FurrowCtl.lean ====
section
/-! DEFINITION. FUR_CTL: start, stop, resume, step and reset of a furrow (R43, R45, R49-R54, R79, R80, R109, R384, R420,
R432, R549). -/

namespace Sys2Proof.Machine

/-- An action bit that does not apply (R50). -/
def ctlIgnored (n : Nat) (s : State) : State := modFur n (fun g => { g with ctlIgnored := true }) s

/-- The furrows of a plot that are not Idle (R384). -/
def plotFurrows (s : State) (p : Nat) : List Nat :=
  (s.fur.filter (fun e => e.2.plot == p && e.2.state != .idle)).map (fun e => e.1)

/-- Why a start is refused: zero, or the code of the first failure (R54, R432, R549). -/
def startFault (s : State) (n : Nat) : Nat :=
  let g := getFur s n
  let size := fld g.ringCfg 0 5
  let p := getPlot s g.plot
  firstFail [
    (decide (size < 6 ∨ 16 < size) || (!e64 s && !g.ringSram), 0x172),
    (plotFrozen s g.plot, 0x668),
    (p.state != .active, 0x666),
    (decide (p.furQuota ≤ ((plotFurrows s g.plot).filter (fun m => m != n)).length), 0x666),
    (!e64 s && s.flt.fencedFur.getLsbD (n / 64), 0xF12),
    ((getDom s (furDom s n)).ownerOff, 0x820)]

/-- FUR_CTL.start (R45, R54). -/
def furStart (n : Nat) (s : State) : State :=
  let g := getFur s n
  if g.resetting.isSome ∨ !(g.state == .idle || g.state == .halted) then ctlIgnored n s
  else
    let code := startFault s n
    if code ≠ 0 then note code (some g.plot) .furrow n s
    else modFur n (fun g => { g with state := .running, cause := .none }) (wakeDom (furDom s n) s)

/-- FUR_CTL.stop (R45, R108): a furrow that is about to enter Faulted takes no other stop. -/
def furStop (n : Nat) (s : State) : State :=
  let g := getFur s n
  if g.resetting.isSome ∨ !g.active then ctlIgnored n s
  else if g.failing then s else stopFur n .stopRequest s

/-- FUR_CTL.resume (R45, R80). -/
def furResume (n : Nat) (s : State) : State :=
  let g := getFur s n
  if g.resetting.isSome then ctlIgnored n s
  else if g.state = .stopped then modFur n (fun g => { g with state := .running, cause := .none }) s
  else if g.state = .faulted ∧ g.faultCode = 0 then
    clearFurCause n
      (modFur n (fun g => { g with state := .running, cause := .none, seq := g.seq + BitVec.ofNat 32 (1 + g.abandoned), abandoned := 0 }) s)
  else ctlIgnored n s

/-- FUR_CTL.step (R45, R109). -/
def furStep (n : Nat) (s : State) : State :=
  let g := getFur s n
  if g.resetting.isSome ∨ g.state ≠ .stopped then ctlIgnored n s
  else modFur n (fun g => { g with state := .running, cause := .none, stepping := true, stepTid := none }) s

/-- A furrow's commands are abandoned, and it issues nothing more (R80, R167). -/
def abandonFur (n : Nat) (s : State) : State :=
  modFur n (fun g => { g with issued := [], cur := none, prefetch := [], held := [], fetching := none, loop := {},
                              resetting := if g.resetting.isSome then g.resetting else some s.clk })
    (abandonDib n (abandonColl n (abandonXfer n s)))

/-- FUR_CTL.reset (R80); engines have 1 ms to release its work (R430). -/
def furReset (n : Nat) (s : State) : State :=
  let g := getFur s n
  if g.state = .idle ∨ g.resetting.isSome then ctlIgnored n s
  else
    let s := abandonFur n s
    { s with flt := { s.flt with engResets := s.flt.engResets ++ [{ kind := .furrow, unit := n, since := s.clk }] } }

/-- The action of a FUR_CTL write: the first set bit in the order reset, stop, resume, step, start (R50). -/
def furAction (n : Nat) (w : Word) (s : State) : State :=
  if bitAt w 4 then furReset n s
  else if bitAt w 1 then furStop n s
  else if bitAt w 2 then furResume n s
  else if bitAt w 3 then furStep n s
  else if bitAt w 0 then furStart n s
  else s

/-- A write of FUR_CTL: its RW fields, then its action (R49, R50). -/
def furCtl (n : Nat) (w : Word) (s : State) : State :=
  furAction n w (modFur n (fun g => { g with ctl := w &&& 0x7F00 }) s)

/-- The engines of a furrow under reset have released its work: no segment and no live packet of it is left. A reservation kept
for an abandoned packet is no such work (R80, R167, R430; log 100). -/
def furReleased (s : State) (f : Nat) : Bool :=
  !(s.xfer.segs.any (fun e => match e.2.owner with | .cmd g _ => g == f | _ => false))
    && !(s.xfer.rqs.any (fun e => e.2.owned f && !e.2.dead))

/-- A furrow under reset enters Idle once its engines have released its work (R43, R80). -/
def furIdle (f : Nat) (s : State) : State :=
  if (getFur s f).resetting.isSome && furReleased s f then
    let s := clearFurCause f (modFur f Furrow.toIdle s)
    { s with flt := { s.flt with engResets := s.flt.engResets.filter (fun e => !(e.kind == .furrow && e.unit == f)) } }
  else s

end Sys2Proof.Machine
end

