-- ==== Sys2Proof/Machine/Mgmt.lean ====
section
/-! DEFINITION. Management messages: sending, answers, resends, reach and peer notices, and row channels whose path changes
(R133, R347, R353, R354, R438). -/

namespace Sys2Proof.Machine

/-- The message types (R354, R407, R489). -/
def mgmtTypes : List Nat := [0x01, 0x02, 0x03, 0x10, 0x11, 0x20, 0x21]

/-- The type of a management message (R354). -/
def msgType (p : Packet) : Nat := p.ar 16 1

/-- A management message, numbered (log 70). It belongs to plot 0, the system plot (R382; log 71). -/
def mgmtPkt (s : State) (dst : Nat) (body : List (Nat × Nat × Nat)) : Packet :=
  { mkPkt s 0 dst 0x60 6 none (areaOf body) [] with seq := s.mgt.nextSeq }

/-- A management message joins the send queue and is held until it is acknowledged (R354). -/
def sendMgmt (dst : Nat) (body : List (Nat × Nat × Nat)) (s : State) : State :=
  pushRq { pkt := mgmtPkt s dst body, who := .mgmt } { s with mgt := { s.mgt with nextSeq := (s.mgt.nextSeq + 1) % 2 ^ 32 } }

/-- An answer to a management message. -/
def mgmtAnswer (p : Packet) (kind reason : Nat) (s : State) : State :=
  pushRq { pkt := { kind := kind, vn := 6, pathVn := 6, key := p.key, gen := p.gen, src := selfNode s, dst := p.src, seq := p.seq,
                    area := if kind = 0x62 then areaOf [(16, 2, reason)] else 0 }, who := .reply } s

/-- A management message of a type arrives: `k` gives the reason of its NAK, zero for none, and the state that it leaves
(R354). -/
def mgmtArrival (l : Nat) (p : Packet) (type : Nat) (k : State → Nat × State) (s : State) : State :=
  if msgType p ≠ type then s
  else arrival l p 0x60 id (fun _ s =>
    let r := k s
    mgmtAnswer p (if r.1 = 0 then 0x61 else 0x62) r.1 r.2) s

/-- The message of this block that an answer names. -/
def matchMgmt (s : State) (p : Packet) : Option Nat :=
  (s.xfer.rqs.find? (fun e => e.2.who == .mgmt && e.2.sent && e.2.pkt.dst == p.src && e.2.pkt.seq == p.seq)).map (fun e => e.1)

/-- A management acknowledgement arrives (R354). -/
def mgmtAcked (l : Nat) (p : Packet) (s : State) : State :=
  arrival l p 0x61 id (fun _ s => match matchMgmt s p with | some id => dropRq id s | none => s) s

/-- A management NAK arrives: its message rests, or is dropped with 0x650 (R354). -/
def mgmtNaked (l : Nat) (p : Packet) (s : State) : State :=
  arrival l p 0x62 id (fun _ s =>
    match matchMgmt s p with
    | none => s
    | some id =>
      if p.ar 16 2 = 2 then raise 0x650 (dropRq id s)
      else modRq id (fun r => { r with busy := true, at1 := s.clk }) s) s

/-- A held message is sent again: 10 us after a NAK of reason 1, 100 us after sending with no answer (R354). -/
def mgmtResend (id : Nat) (s : State) : State :=
  match getRq s id with
  | none => s
  | some r =>
    if r.who == .mgmt && r.sent && passed s r.at1 (if r.busy then 10000 else 100000)
    then modRq id (fun x => { x with sent := false, busy := false }) s else s

/-- An earlier notice of the same subject to the same node is superseded (log 72). -/
def supersede (dst : Nat) (type subject : Nat) (s : State) : State :=
  { s with xfer := { s.xfer with rqs := s.xfer.rqs.filter (fun e =>
      !(e.2.who == .mgmt && e.2.pkt.dst == dst && msgType e.2.pkt == type && e.2.pkt.ar 18 2 == subject)) } }

/-- A plane tells every endpoint that a downlink went down or came up (R347). -/
def reachNotices (d : Nat) (up : Bool) (s : State) : State :=
  (List.range 512).foldl (fun s e =>
    sendMgmt e [(16, 1, 1), (17, 1, selfNode s - 512), (18, 2, d), (20, 1, up.toNat)] (supersede e 1 d s)) s

/-- An endpoint tells the peers of its board which of its uplinks are live (R353). -/
def peerNotices (s : State) : State :=
  (List.range 8).foldl (fun s j =>
    if j = mySlot s then s
    else
      let e := selfNode s / 8 * 8 + j
      sendMgmt e [(16, 1, 2), (18, 2, selfNode s), (20, 4, upMask s)] (supersede e 2 (selfNode s) s)) s

/-- Row channels whose path has changed are resent on the new one (R133, R351, R438). -/
def moveRows (s : State) : State :=
  s.xfer.rqs.foldl (fun s e =>
    if e.2.sent && e.2.isReq && e.2.pkt.row && !e.2.landing then
      match choosePath s e.2.pkt.dst (some e.2.pkt.rowCh) with
      | some (l, _) => if l = e.2.link then s else requeueRow e.2.pkt s
      | none => s
    else s) s

/-- What the rest of the block does when a link goes down (R175, R347, R353, R439, R440). -/
def afterDown (l : Nat) (s : State) : State :=
  let s := if isMesh s l then bwLinkDown ((mySlot s + l + 1) % 8) s else s
  let s := moveRows (resendThrough l none (resetPairs s))
  if e64 s then (if isMesh s l then s else peerNotices s) else reachNotices l false s

/-- What the rest of the block does when a link comes up (R350, R353). -/
def afterUp (l : Nat) (s : State) : State :=
  let s := moveRows s
  if e64 s then (if isMesh s l then s else peerNotices s) else reachNotices l true s

/-- A reach notice arrives at an endpoint (R347, R440). -/
def takeReach (l : Nat) (p : Packet) (s : State) : State :=
  let t := msgType p
  if t ≠ 1 ∧ t ∈ mgmtTypes then s
  else mgmtArrival l p t (fun s =>
    if t ≠ 1 ∨ !e64 s then (2, s)
    else
      let d := p.ar 18 2 % 512
      let plane := p.ar 17 1 % 32
      let up := p.ar 20 1 == 1
      let s := { s with trl := { s.trl with reach := s.trl.reach.set d (setBit (reachEntry s d) plane up) } }
      (0, moveRows (if up then s else resendThrough (uplink plane) (some d) (resetPairs s)))) s

/-- A peer notice arrives at an endpoint (R353). -/
def takePeer (l : Nat) (p : Packet) (s : State) : State :=
  mgmtArrival l p 2 (fun s =>
    if e64 s then (0, { s with trl := { s.trl with peer := s.trl.peer.set (p.ar 18 2 % 8) (BitVec.ofNat 32 (p.ar 20 4)) } }) else (2, s)) s

end Sys2Proof.Machine
end

