-- ==== Sys2Proof/Machine/Settle.lean ====
section
/-! DEFINITION. What follows every command at once: finished local reads and writes go to what waits for them, packets that
the block sends itself are taken, collective steps move on, and links that changed have their effect. -/

namespace Sys2Proof.Machine

/-- One piece of a step's own work is over. -/
def workDone (ctx num : Nat) (s : State) : State := modStep ctx num (fun x => { x with busyWork := x.busyWork - 1 }) s

/-- A step that still runs goes on with `k`. -/
def ifRuns (ctx num : Nat) (k : State → State) (s : State) : State :=
  match findStep (getBed s ctx) num with
  | some st => if st.stopped then s else k s
  | none => s

/-- A collective's read of local lines has ended: 1 a piece, 2 a DISPATCH descriptor, 3 a list, 4 a Dibber source. -/
def collRead (op ctx num x : Nat) (err : Bool) (ls : List Line) (s : State) : State :=
  match op with
  | 1 => pieceRead ctx num x err ls s
  | 4 => dibRead ctx num err ls s
  | _ =>
    let s := workDone ctx num s
    ifRuns ctx num (fun s =>
      if err then endStep ctx num (some 0x221) false s
      else if op = 2 then moeRead ctx num (linesBytes ls) s
      else match findStep (getBed s ctx) num with
        | some st => if st.cmd.op = 0x62 then tagsRead ctx num (linesBytes ls) s else listRead ctx num (linesBytes ls) s
        | none => s) s

/-- A collective's write of local lines has ended: 1 result lines, 2 a slot table, 3 own manifest entries, 4 line 0 of a
manifest, 5 a Dibber result. -/
def collWritten (op ctx num : Nat) (err : Bool) (s : State) : State :=
  match op with
  | 1 => landed ctx err s
  | 5 => dibWritten ctx num err s
  | _ =>
    let s := if op = 3 then workDone ctx num s else s
    ifRuns ctx num (fun s =>
      if err then endStep ctx num (some 0x221) false s
      else if op = 2 then modDisp ctx (fun d => { d with tableDone := true }) s
      else if op = 4 then modDisp ctx (fun d => { d with line0 := true }) s
      else s) s

/-- A read has its lines. -/
def readDone (k : RCont) (err : Bool) (ls : List Line) (s : State) : State :=
  match k with
  | .fetch f tok => fetched f tok err ls s
  | .segRead g run => segRead g run err ls s
  | .home j => homeRead j err ls s
  | .loadg f tid off => loadgRead f tid off err ls s
  | .bwLoad id => bwEnd id (if err then 0x211 else 0) (ls.headD 0) s
  | .bedDesc f tid => bedRead f tid err ls s
  | .coll op a b c => collRead op a b c err ls s
  | .dump id => dumpRead id err ls s

/-- A write is visible. -/
def writeDone (k : WCont) (err : Bool) (s : State) : State :=
  match k with
  | .segWrite g _ => segWritten g err s
  | .getDst id => getWritten id err s
  | .home j => homeWritten j err s
  | .storeg f tid => storegWritten f tid err s
  | .bwStore id => bwEnd id (if err then 0x211 else 0) 0 s
  | .coll op a b _ => collWritten op a b err s
  | .dump id => dumpWritten id err s

/-- A segment of a DISPATCH has completed, with the lines that it landed here (R277). -/
def dispSeg (ctx num : Nat) (own err : Option Nat) (conseq : Bool) (s : State) : State :=
  let s := match own with
    | some n => modDisp ctx (fun d => if d.step = num then { d with lines := d.lines + n } else d) s
    | none => s
  match err with
  | some c => endStep ctx num (some c) conseq s
  | none => workDone ctx num s

/-- Finished local work has its consequences. -/
def finish (x : Fin) (s : State) : State :=
  match x with
  | .rd k err ls => readDone k err ls s
  | .wr k err => writeDone k err s
  | .lock j err l => atomLocked j err l s
  | .unlock j err => atomEnd j err s
  | .copied j err => copyPart j err s
  | .seg ctx num own err conseq => dispSeg ctx num own err conseq s
  | .moe plot p => moeArrived plot p s
  | .bw id code l => bwEnd id code l s

/-- A collective packet that the block takes, from a link or from itself. -/
def takeColl (plot : Nat) (p : Packet) (u : Upset) (s : State) : State :=
  match p.kind with
  | 0x26 => takeAbort plot p s
  | 0x30 => takeReady plot p s
  | 0x31 => if p.vn = 5 then takeDGrant plot p s else takeGrant plot p s
  | 0x32 => takeContribution plot p u s
  | 0x33 => takePartial plot p u s
  | 0x34 => takeResult plot p s
  | 0x35 => takeStream plot p u s
  | 0x36 => takeTags plot p u s
  | 0x37 => takeOffsets plot p s
  | 0x38 => takeFilled plot p s
  | 0x39 => takeExpect plot p s
  | 0x3A => takeCombine plot p u s
  | 0x3B => takeRefusal plot p s
  | 0x3C => takeCandidates plot p s
  | 0x50 => takeDib plot p s
  | 0x51 => takeDPartial plot p s
  | 0x52 | 0x53 => takeDResult plot p s
  | _ => s

/-- A packet that the block sent itself. -/
def takeOwn (p : Packet) (s : State) : State :=
  match plotOfKey s p.key with
  | some plot => if (getPlot s plot).gen = p.gen then takeColl plot p .none s else s
  | none => s

/-- A link that changed has its effect on the rest of the block. -/
def linkChanged (e : LinkEvt) (s : State) : State :=
  match e with
  | .down l => afterDown l s
  | .up l => afterUp l s

/-- One round of consequences; `none` when nothing is left. -/
def settleOne (s : State) : Option State :=
  match s.mp.fin with
  | x :: r => some (finish x { s with mp := { s.mp with fin := r } })
  | [] =>
    match s.coll.inbox with
    | p :: r => some (takeOwn p (modColl (fun c => { c with inbox := r }) s))
    | [] =>
      match s.lanes.evts with
      | e :: r => some (linkChanged e { s with lanes := { s.lanes with evts := r } })
      | [] => none

/-- Consequences are taken until none is left; then collective steps move on, and what that finishes is taken in turn. -/
def settle : Nat → State → State
  | 0, s => s
  | k + 1, s =>
    match settleOne s with
    | some t => settle k t
    | none =>
      let t := sweepDib (sweepColl s)
      if (settleOne t).isSome then settle k t else t

/-- A command of the block: its own effect, then what follows at once, and the memory ports send what they can. -/
def run (f : State → State) (s : State) : Host.Outcome State Fault Refusal :=
  act (fun s => pump (settle (2 ^ 40) (f s))) s

end Sys2Proof.Machine
end

