-- ==== Sys2Proof/Machine/Collectives.lean ====
section
/-! DEFINITION. The meanings of the collective packets, slots and step timers (R184-R304). -/

namespace Sys2Proof.Machine

/-- A collective packet of a kind arrives and is taken (R189, R325, R368, R369). -/
def collRow (l : Nat) (p : Packet) (kind : Nat) (u : Upset) (s : State) : State :=
  collArrival l p kind (fun plot p s => takeColl plot p u s) s

/-- A collective acknowledgement arrives (R200). -/
def execCollectiveAcknowledgement (l : Nat) (p : Packet) (s : State) : Host.Outcome State Fault Refusal :=
  run (collArrival l p 0x27 (fun _ p s => takeCollAck p s)) s

/-- A step-ready flit arrives at a serving block (R206). -/
def execStepReady (l : Nat) (p : Packet) (s : State) : Host.Outcome State Fault Refusal :=
  run (collRow l p 0x30 .none) s

/-- A grant arrives at a member (R197, R297). -/
def execGrant (l : Nat) (p : Packet) (s : State) : Host.Outcome State Fault Refusal :=
  run (collRow l p 0x31 .none) s

/-- A contribution arrives at a serving block (R198). -/
def execContribution (l : Nat) (p : Packet) (u : Upset) (s : State) : Host.Outcome State Fault Refusal :=
  run (collRow l p 0x32 u) s

/-- A board's loam-form partial arrives at a plane (R235). -/
def execLoamFormPartial (l : Nat) (p : Packet) (u : Upset) (s : State) : Host.Outcome State Fault Refusal :=
  run (collRow l p 0x33 u) s

/-- Result lines arrive at a receiver (R200). -/
def execResult (l : Nat) (p : Packet) (s : State) : Host.Outcome State Fault Refusal :=
  run (collRow l p 0x34 .none) s

/-- A packet of a sparse stream arrives at a serving block (R258). -/
def execSparseStream (l : Nat) (p : Packet) (u : Upset) (s : State) : Host.Outcome State Fault Refusal :=
  run (collRow l p 0x35 u) s

/-- A rank's tag counts arrive at a serving block (R272). -/
def execTagCount (l : Nat) (p : Packet) (s : State) : Host.Outcome State Fault Refusal :=
  run (collRow l p 0x36 .none) s

/-- Admission bases and counts arrive at a member (R274). -/
def execOffsets (l : Nat) (p : Packet) (s : State) : Host.Outcome State Fault Refusal :=
  run (collRow l p 0x37 .none) s

/-- Filled counts arrive at an expert's home (R274). -/
def execFilledCounts (l : Nat) (p : Packet) (s : State) : Host.Outcome State Fault Refusal :=
  run (collRow l p 0x38 .none) s

/-- An item's expect packet arrives at a serving block (R282). -/
def execExpect (l : Nat) (p : Packet) (s : State) : Host.Outcome State Fault Refusal :=
  run (collRow l p 0x39 .none) s

/-- An expert's output arrives at a serving block (R283). -/
def execCombineContribution (l : Nat) (p : Packet) (u : Upset) (s : State) : Host.Outcome State Fault Refusal :=
  run (collRow l p 0x3A u) s

/-- A member's refusal arrives at a serving block (R255). -/
def execRefusal (l : Nat) (p : Packet) (s : State) : Host.Outcome State Fault Refusal :=
  run (collRow l p 0x3B .none) s

/-- A candidate list arrives at a member (R263). -/
def execCandidateList (l : Nat) (p : Packet) (s : State) : Host.Outcome State Fault Refusal :=
  run (collRow l p 0x3C .none) s

/-- A Dibber contribution arrives (R298). -/
def execDibberContribution (l : Nat) (p : Packet) (s : State) : Host.Outcome State Fault Refusal :=
  run (collRow l p 0x50 .none) s

/-- A board's exact partial arrives at a Dibber plane (R294). -/
def execDibberPartial (l : Nat) (p : Packet) (s : State) : Host.Outcome State Fault Refusal :=
  run (collRow l p 0x51 .none) s

/-- A Dibber result arrives at a member (R290). -/
def execDibberResult (l : Nat) (p : Packet) (s : State) : Host.Outcome State Fault Refusal :=
  run (collRow l p 0x52 .none) s

/-- The release of a barrier arrives at a member (R291). -/
def execBarrierRelease (l : Nat) (p : Packet) (s : State) : Host.Outcome State Fault Refusal :=
  run (collRow l p 0x53 .none) s

/-- A block allocates a slot for a bed's next chunk (R196). -/
def execSlotAllocate (ctx : Nat) (s : State) : Host.Outcome State Fault Refusal :=
  run (allocSlot ctx) s

/-- A block allocates a Dibber slot (R297). -/
def execDibberSlotAllocate (ctx : Nat) (s : State) : Host.Outcome State Fault Refusal :=
  run (allocDib ctx) s

/-- A member's step timer expires (R214). -/
def execMemberStepTimerExpiry (ctx step : Nat) (s : State) : Host.Outcome State Fault Refusal :=
  run (memberExpiry ctx step) s

/-- A slot's step timer expires (R215). -/
def execServingStepTimerExpiry (slot : Nat) (s : State) : Host.Outcome State Fault Refusal :=
  run (servingExpiry slot) s

/-- A member's Dibber step timer expires (R302). -/
def execDibberMemberTimerExpiry (ctx step : Nat) (s : State) : Host.Outcome State Fault Refusal :=
  run (dibMemberExpiry ctx step) s

/-- A Dibber slot's step timer expires (R302). -/
def execDibberServingTimerExpiry (slot : Nat) (s : State) : Host.Outcome State Fault Refusal :=
  run (dibServingExpiry slot) s

end Sys2Proof.Machine
end

