-- ==== Sys2Proof/Machine/LaneTrain.lean ====
section
/-! DEFINITION. Lane training, lane and port registers, Quiet, Fallow, eye scans, test mode and injected errors (R25, R27,
R310-R320, R328, R335-R343, R375, R502). -/

namespace Sys2Proof.Machine

/-- The lanes of E64 port engine 7, which stay in Fallow (R25). -/
def noFarLane (s : State) (q : Nat) : Bool := e64 s && decide (28 ≤ q ∧ q < 32)

/-- A lane may train: it has a far end, is not held down, its port is neither in Fallow nor fenced, its group has rails, and
neither L3 on S512 nor the Safe state holds it down, and a start has reached step 14 (R25, R320, R340, R421, R422, R432, R454,
R502, R536). -/
def mayTrain (s : State) (q : Nat) : Bool :=
  let k := getLink s (laneLink s q)
  decide (q < laneCount s) && !noFarLane s q && !bitAt (getLane s q).ctl 6 && !bitAt k.cfg 21 && !k.fallowing
    && domOn s (laneGroup q) && bitAt s.pwr.lnPgood (laneGroup q) && !s.flt.safe
    && !(s.flt.l3 && !e64 s) && !s.flt.fencedPrt.getLsbD (linkPort s (laneLink s q))
    && (inRun s || (s.start.state == 0 && decide (13 ≤ s.start.step))) && s.tst.lbsMode == 0

/-- Training of a lane begins anew at a step, after a start, a retrain or a release (R315, R27). -/
def startTraining (q : Nat) (t : TState) (s : State) : State :=
  if mayTrain s q then
    modLane q (fun x => { x with attempts := 0, refused := false, noted521 := false, fallow := false }) (laneDown q 0 t s)
  else s

/-- LAN_CTL.retrain and PRT_LINK_CFG.retrain: training from step 2 (R315). -/
def retrain (q : Nat) (s : State) : State := startTraining q .acquire s

/-- A lane goes to the beginning of a step of its training. -/
def toStep (q : Nat) (t : TState) (s : State) : State :=
  modLane q (fun x => { x with tstate := t, stepSince := s.clk, frames := 0, checkBad := false, checkCorr := 0 }) s

/-- A step of training fails: back to step 2 in full training, or after three attempts held down with 0x520 (R316). -/
def failStep (q : Nat) (s : State) : State :=
  let s := modLane q (fun x => { x with trainsFailed := satInc 65535 x.trainsFailed, attempts := x.attempts + 1 }) s
  if 3 ≤ (getLane s q).attempts then
    promote 8 (modLane q (fun x => { x with tstate := .held, fallow := true, full := true, wait := false }) (laneFault q 0x520 s))
  else
    let s := modLane q (fun x => { x with full := false, idOk := false }) s
    let w := mustWait s q
    modLane q (fun x => { x with full := true, wait := w }) (toStep q .acquire s)

/-- The far end differs from the wiring rule: the link is refused and held down (R27). -/
def refuseLink (q : Nat) (s : State) : State :=
  (linkLanes s (laneLink s q)).foldl (fun s r =>
    modLane r (fun x => { x with refused := true, fallow := true }) (laneDown r 0 .held s)) (laneFault q 0x560 s)

/-- The identity in a training frame is compared with the wiring rule (R27). -/
def checkIdentity (q build inst : Nat) (s : State) : State :=
  let l := laneLink s q
  let s := modLink l (fun k => { k with farBuild := build, farInst := inst }) s
  if farIdentity s l = some (build, inst) then modLane q (fun x => { x with idOk := true }) s else refuseLink q s

/-- A tap after a request of 1, an increment, or 2, a decrement: its value and the status to send (R314). -/
def tapStep (req lim v : Nat) : Nat × Nat :=
  if req = 1 then (if v < lim then (v + 1, 1) else (v, 2))
  else if req = 2 then (if 0 < v then (v - 1, 1) else (v, 2))
  else (v, 0)

/-- The presets P0 to P4 as (pre, post) (R313). -/
def presets : List (Nat × Nat) := [(0, 0), (0, 8), (4, 8), (8, 12), (4, 16)]

/-- Requests of the far end to this transmitter: a preset, else a step of each tap (R313, R314). -/
def tapRequests (q preReq postReq preset : Nat) (s : State) : State :=
  modLane q (fun x =>
    if preset = 0 then
      let a := tapStep preReq 16 x.pre
      let b := tapStep postReq 24 x.post
      { x with pre := a.1, post := b.1, preStatus := a.2, postStatus := b.2 }
    else
      let v := presets.getD (preset - 1) (4, 8)
      { x with pre := v.1, post := v.2, preStatus := 1, postStatus := 1 }) s

/-- The receiver decides whether it asks for precoding, unless LAN_CTL.precode forces it (R310). -/
def askPrecode (q : Nat) (s : State) : State :=
  let m := fld (getLane s q).ctl 3 2
  takeFree (modLane q (fun x => { x with precodeRx := if m = 0 then Config.precodeAsk s.free else m == 2 }) s)

/-- A training frame that the receiver does not ignore (R314): its CRC is right and it asks for no reserved request. -/
def frameOk (c : BitVec 96) : Bool :=
  fld c 80 16 == (crc16 (leBytes 10 (fld c 0 80))).toNat && decide (fld c 4 3 < 6) && fld c 0 2 != 3 && fld c 2 2 != 3

/-- A training frame arrives on a lane that trains (R27, R314, R315); the lane answers with a frame of its own (log 77). -/
def takeFrame (q : Nat) (c : BitVec 96) (s : State) : State :=
  let x := getLane s q
  if !(decide (q < laneCount s) && x.tstate.training && !x.wait && !noFarLane s q && frameOk c) then s
  else
    let s := if x.noFar || (x.tstate == .detect && !x.seenFar) then
        modLane q (fun x => { x with seenFar := true, noFar := false, fallow := false, stepSince := s.clk }) s
      else modLane q (fun x => { x with seenFar := true }) s
    let s := modLane q (fun x => { x with farIndex := fld c 25 2, precodeTx := bitAt c 13 }) s
    let s := if !x.idOk && (if x.full then x.tstate == .coeff else x.tstate == .acquire)
      then checkIdentity q (fld c 14 2) (fld c 16 9) s else s
    let s := if x.tstate = .coeff then tapRequests q (fld c 0 2) (fld c 2 2) (fld c 4 3) s else s
    let s := if x.tstate = .align && bitAt c 11 then modLane q (fun x => { x with frames := x.frames + 1 }) s else s
    if (getLane s q).tstate.training then emit (.trainFrames q (myFrame s q false)) s else s

/-- The corrected-bit ratio exceeds 2.4 in 10,000 over a number of codewords of 17,408 bits (R311). -/
def ratioBad (corrected codewords : Nat) : Bool := decide (24 * (codewords * 17408) < corrected * 100000)

/-- CHECK passes: no codeword was uncorrectable and R311 holds (R315). -/
def checkOk (x : Lane) : Bool := !x.checkBad && !ratioBad x.checkCorr (if x.full then 65536 else 128)

/-- A lane reaches UP: full training stores its coefficients, and it joins its port (R315). -/
def laneUp (q : Nat) (s : State) : State :=
  joinPort q (promote 8 (modLane q (fun x => { x with
    tstate := .up, attempts := 0, stored := true, noted521 := false, fallow := false, full := false,
    coef := if x.full then (x.pre, x.post, x.precodeTx, x.precodeRx) else x.coef, stepSince := s.clk }) s))

/-- Step 2 ends: clock and polarity are found, and full training goes on with COEFF from preset P2, the stored path with
ALIGN (R313, R315). -/
def endAcquire (q : Nat) (s : State) : State :=
  let s := { s with pwr := { s.pwr with laneLock := setBit s.pwr.laneLock (laneGroup q) true } }
  let s := takeFree (modLane q (fun x => { x with polInv := Config.polarityInv s.free }) s)
  if (getLane s q).full then askPrecode q (toStep q .coeff (modLane q (fun x => { x with pre := 4, post := 8 }) s))
  else toStep q .align (modLane q (fun x => { x with
    pre := x.coef.1, post := x.coef.2.1, precodeTx := x.coef.2.2.1, precodeRx := x.coef.2.2.2 }) s)

/-- A step of a lane's training ends (R315). -/
def stepDone (q : Nat) (s : State) : State :=
  let x := getLane s q
  if x.wait then s
  else match x.tstate with
    | .detect => if x.seenFar then toStep q .acquire s else s
    | .acquire => if x.full || x.idOk then endAcquire q s else s
    | .coeff => if x.idOk then toStep q .align s else s
    | .align => if 16 ≤ x.frames then emit (.trainFrames q (myFrame s q true)) (toStep q .check s) else s
    | .check => if checkOk x then laneUp q s else failStep q s
    | .down | .up | .test | .held => s

/-- The bound of a step in nanoseconds, on the full and on the stored path (R315). -/
def stepBound (t : TState) (full : Bool) : Nat :=
  match t with
  | .detect => if full then 1000000 else 1000
  | .acquire => if full then 2000000 else 30000
  | .coeff => 20000000
  | .align => if full then 500000 else 2000
  | .check => if full then 2550000 else 5000
  | .down | .up | .test | .held => 0

/-- A step of a lane's training passes its bound (R316); DETECT counts from when the far end starts. -/
def stepTimeout (q : Nat) (s : State) : State :=
  let x := getLane s q
  if x.tstate.training && !x.wait && (x.tstate != .detect || x.seenFar) && passed s x.stepSince (stepBound x.tstate x.full)
  then failStep q s else s

/-- DETECT has found no far end within 1 s (R316). -/
def detectTimeout (q : Nat) (s : State) : State :=
  let x := getLane s q
  if x.tstate = .detect ∧ !x.wait ∧ !x.seenFar ∧ !x.noFar ∧ passed s x.stepSince 1000000000 then
    let s := if x.noted521 then s else laneFault q 0x521 s
    promote 8 (modLane q (fun x => { x with noFar := true, noted521 := true, fallow := true, stepSince := s.clk }) s)
  else s

/-- DETECT is tried again every 100 ms (R316). -/
def detectRetry (q : Nat) (s : State) : State :=
  let x := getLane s q
  if x.noFar && passed s x.stepSince 100000000 then
    modLane q (fun x => { x with stepSince := s.clk, trainsStarted := satInc 65535 x.trainsStarted }) s
  else s

/-- The ack wait of a lane's oldest held codeword expires: it is resent from there, or at the third expiry in a row the lane
goes down (R334, R335). -/
def ackExpired (q : Nat) (s : State) : State :=
  let x := getLane s q
  match x.held with
  | [] => s
  | h :: _ =>
    if x.inPort && passed s h.since (fld (getLink s (laneLink s q)).cfg 14 7 * 100) then
      if 3 ≤ x.ackWaits + 1 then laneDown q 0x512 .detect s
      else resendFrom q h.seq (modLane q (fun x => { x with ackWaits := x.ackWaits + 1 }) s)
    else s

/-- The corrected bits of 2^16 codewords are counted (R311, R335). -/
def ratioWindow (q corrected : Nat) (s : State) : State :=
  let x := getLane s q
  let due := match x.noted513 with | none => true | some t => passed s t 1000000000
  if x.inPort && ratioBad corrected 65536 && due then
    modLane q (fun x => { x with noted513 := some s.clk }) (laneFault q 0x513 s)
  else s

/-- Every replay buffer of a link is empty. -/
def heldEmpty (s : State) (l : Nat) : Bool := (linkLanes s l).all (fun q => (getLane s q).held.isEmpty)

/-- A port has sent no flit for quiet_idle: its direction enters Quiet (R319). -/
def enterQuiet (l : Nat) (s : State) : State :=
  let k := getLink s l
  let idle := fld k.cfg 0 14
  if k.up && !k.quietTx && k.narrowing.isNone && idle != 0 && heldEmpty s l && passed s k.idleSince (idle * 1000) then
    modLink l (fun k => { k with quietTx := true, lastRefresh := s.clk }) (sendCtl l [4] s)
  else s

/-- A Quiet direction sends its refresh burst every 10 us (R318). -/
def refreshQuiet (l : Nat) (s : State) : State :=
  let k := getLink s l
  if k.quietTx && passed s k.lastRefresh 10000 then
    modLink l (fun k => { k with lastRefresh := s.clk })
      ((activeLanes s l).foldl (fun s q => emit (.trainFrames q (myFrame s q false)) s) s)
  else s

/-- The live Trellis bank routes through a link (R320): mesh links are in no route entry. -/
def routedThrough (s : State) (l : Nat) : Bool :=
  if e64 s then decide (8 ≤ l) && (liveBank s).route.any (fun e => bitAt e.2 (l - 8))
  else bitAt (routeEntry s l) 0

/-- Fallow holds a port's lanes (R320). -/
def holdFallow (l : Nat) (s : State) : State :=
  let s := (linkLanes s l).foldl (fun s q => modLane q (fun x => { x with fallow := true }) (laneOut q .down s)) s
  let s := modLink l (fun k => { k with fallowing := false }) s
  if linkUp s l then portOff l s else s

/-- A port that enters Fallow powers down once its replay buffers are empty (R320). -/
def fallowDown (l : Nat) (s : State) : State :=
  if (getLink s l).fallowing && heldEmpty s l then holdFallow l s else s

/-- Lane register writes refused (R342). -/
def refuse570 (l : Nat) (s : State) : State := note 0x570 none .port (linkPort s l) s

/-- A register write that its rules allow, or one that is refused as a whole with 0x570 (R565). -/
def allow570 (l : Nat) (ok : Bool) (k : State → State) (s : State) : State := if ok then k s else refuse570 l s

/-- The values of a PRT_LINK_CFG write are allowed at a link (R320, R343). -/
def linkCfgOk (s : State) (l : Nat) (w : Word) : Bool :=
  decide (fld w 0 14 ≤ 10000) && decide (5 ≤ fld w 14 7 ∧ fld w 14 7 ≤ 100)
    && !(bitAt w 21 && !bitAt (getLink s l).cfg 21 && routedThrough s l)

/-- PRT_LINK_CFG of one link takes an allowed value (R320, R328, R343). -/
def linkCfg (w : Word) (s : State) (l : Nat) : State :=
  let was := bitAt (getLink s l).cfg 21
  let s := modLink l (fun k => { k with cfg := w &&& 0x3FFFFF }) s
  let s :=
    if bitAt w 21 && !was then modLink l (fun k => { k with fallowing := true }) s
    else if !bitAt w 21 && was then
      (linkLanes s l).foldl (fun s q => startTraining q .detect (wakeDom (laneGroup q) s))
        (modLink l (fun k => { k with fallowing := false }) s)
    else s
  if bitAt w 22 then (linkLanes s l).foldl (fun s q => retrain q s) s else s

/-- The links that a port engine runs (R23-R26). -/
def portLinks (s : State) (p : Nat) : List Nat :=
  if e64 s then (if p < 8 then [p] else [4 * p - 24, 4 * p - 23, 4 * p - 22, 4 * p - 21])
  else [4 * p, 4 * p + 1, 4 * p + 2, 4 * p + 3]

/-- The link window of a lane in 4×1 mode (R328); none in 1×4 mode. -/
def windowLink (s : State) (q : Nat) : Option Nat := if e64 s ∧ q < 32 then none else some (laneLink s q)

/-- The links whose PRT_LINK_CFG stands at an offset (R328, R343). -/
def cfgLinks (s : State) (a : Nat) : List Nat :=
  if 0x280000 ≤ a ∧ a ≤ 0x281FFF ∧ a % 0x40 = 0 then portLinks s ((a - 0x280000) / 0x40)
  else if 0x2A0000 ≤ a ∧ a ≤ 0x2A7FFF ∧ a % 0x40 = 0 then (windowLink s ((a - 0x2A0000) / 0x40)).toList
  else []

/-- PRT_LINK_CFG written at an offset, for all its links or for none (R328, R565). -/
def linkCfgAt (a : Nat) (w : Word) (s : State) : State :=
  let ls := cfgLinks s a
  match ls with
  | [] => s
  | l :: _ => allow570 l (ls.all (fun l => linkCfgOk s l w)) (fun s => ls.foldl (linkCfg w) s) s

/-- A PRT_LINK_CFG stands at an offset. -/
def isLinkCfg (a : Nat) : Bool := decide ((0x280000 ≤ a ∧ a ≤ 0x281FFF ∨ 0x2A0000 ≤ a ∧ a ≤ 0x2A7FFF) ∧ a % 0x40 = 0)

/-- LAN_CTL.hold_down set or cleared (R340, R343): a released lane trains on the stored path (log 78). -/
def setHoldDown (q : Nat) (h : Bool) (s : State) : State :=
  let was := bitAt (getLane s q).ctl 6
  let s := modLane q (fun x => { x with ctl := setBit x.ctl 6 h }) s
  if h && !was then laneDown q 0 .down s
  else if !h && was then startTraining q .detect (modLane q (fun x => { x with ctl := setFld x.ctl 0 2 0, tstate := .down }) s)
  else s

/-- The values of a LAN_CTL write are allowed (R340, R343): test changes only while the lane is held down and out of its
port. -/
def lanCtlOk (x : Lane) (w : Word) : Bool :=
  fld w 3 2 != 3 && (fld w 0 2 == fld x.ctl 0 2 || (bitAt x.ctl 6 && !x.inPort))

/-- LAN_CTL takes an allowed value (R338, R340, R343). -/
def lanCtlSet (q : Nat) (w : Word) (s : State) : State :=
  let t := fld w 0 2
  let s := modLane q (fun x => { x with
    ctl := setFld (setBit (setFld x.ctl 3 2 (fld w 3 2)) 2 (bitAt w 2)) 0 2 t,
    tstate := if fld x.ctl 0 2 = t then x.tstate else if t = 0 then .down else .test }) s
  let s := setHoldDown q (bitAt w 6) s
  if bitAt w 5 then retrain q s else s

/-- LAN_CTL written (R343, R565). -/
def lanCtl (q : Nat) (w : Word) (s : State) : State :=
  allow570 (laneLink s q) (lanCtlOk (getLane s q) w) (lanCtlSet q w) s

/-- An injected error (R341): the bit it flips is a free value (log 28). -/
def injectOne (q : Nat) (s : State) : State :=
  let x := getLane s q
  let m := fld x.inj 0 2
  if (m = 1 ∧ x.tstate = .test) ∨ ((m = 2 ∨ m = 3) ∧ (x.inPort ∨ x.tstate = .check)) then
    takeFree (emit (.inject q m (Config.injectBit s.free)) s)
  else s

/-- LAN_INJ written (R341, R343). -/
def lanInj (q : Nat) (w : Word) (s : State) : State :=
  allow570 (laneLink s q) (decide (4 ≤ fld w 2 6 ∧ fld w 2 6 ≤ 40)) (fun s =>
    let s := modLane q (fun x => { x with inj := w &&& 0xFF }) s
    if bitAt w 8 then injectOne q s else s) s

/-- A lane's swing code written (R313, R343). -/
def lanTx (q : Nat) (w : Word) (s : State) : State :=
  allow570 (laneLink s q) (decide (fld w 17 5 ≤ 24)) (modLane q (fun x => { x with swing := fld w 17 5 })) s

/-- A lane is Active: it is in service and its direction is not Quiet (R318). -/
def laneActive (s : State) (q : Nat) : Bool := (getLane s q).inPort && !(getLink s (laneLink s q)).quietTx

/-- A group's eye scan changed. -/
def modScan (g : Nat) (f : Escan → Escan) (s : State) : State :=
  { s with lanes := { s.lanes with escan := s.lanes.escan.mod g f } }

/-- LAN_ESCAN_CTL written (R338, R339, R343): a refused start leaves the register as it stands (R565). -/
def escanCtl (g : Nat) (w : Word) (s : State) : State :=
  let e := s.lanes.escan.at g
  let q := 8 * g + fld w 0 3
  let ok := !bitAt w 25 || !(e.busy || fld w 3 2 == 3 || decide (fld w 19 6 < 20) || decide (40 < fld w 19 6))
  allow570 (laneLink s q) ok (fun s =>
    let s := modScan g (fun e => { e with ctl := w &&& 0x1FFFFFF, done := e.done && !bitAt w 27, aborted := e.aborted && !bitAt w 28 }) s
    if bitAt w 25 then
      modScan g (fun e => { e with lane := fld w 0 3, err := 0, busy := laneActive s q, aborted := e.aborted || !laneActive s q }) s
    else s) s

/-- An eye scan ends with its count of disagreements (R339). -/
def scanDone (g n : Nat) (s : State) : State :=
  modScan g (fun e => if e.busy then { e with busy := false, done := true, err := BitVec.ofNat 32 (min n 0xFFFFFFFF) } else e) s

/-- LN_PGOOD of a group is taken at a level (R502). -/
def lanePower (g : Nat) (level : Bool) (s : State) : State :=
  let qs := (List.range 8).map (fun i => 8 * g + i)
  let was := bitAt s.pwr.lnPgood g
  let inService := qs.any (fun q => (getLane s q).inPort)
  let s := { s with pwr := { s.pwr with lnPgood := setBit s.pwr.lnPgood g level } }
  if laneCount s ≤ 8 * g ∨ was = level then s
  else if level then qs.foldl (fun s q => startTraining q .detect s) s
  else
    let s := if inService then note 0x804 none .port (linkPort s (laneLink s (8 * g))) s else s
    qs.foldl (fun s q => modLane q (fun x => { x with fallow := true }) (laneDown q 0 .down s)) s

/-- A lane group's PLL loses lock: its lanes go down under R335 (R557). -/
def laneLockLost (g : Nat) (s : State) : State :=
  let s := { s with pwr := { s.pwr with laneLock := setBit s.pwr.laneLock g false } }
  (List.range 8).foldl (fun s i =>
    let q := 8 * g + i
    if (getLane s q).inPort then laneDown q 0x510 .detect s
    else if (getLane s q).tstate.training then laneOut q .detect s else s) s

/-- LAN_STATUS (R343). -/
def lanStatus (s : State) (q : Nat) : Word :=
  let x := getLane s q
  let ps := if x.fallow || noFarLane s q then 2 else if x.inPort && (getLink s (laneLink s q)).quietTx then 1 else 0
  pk [(0, x.tstate.code), (4, ps), (6, x.precodeTx.toNat), (7, x.precodeRx.toNat), (8, x.polInv.toNat), (9, x.farIndex % 4),
      (11, x.inPort.toNat), (12, x.lastFault % 4096)]

/-- A lane window's register (R343). -/
def laneReg (s : State) (q off : Nat) : Word :=
  let x := getLane s q
  match off with
  | 0x00 => x.ctl
  | 0x04 => lanStatus s q
  | 0x08 => pk [(0, x.pre), (5, x.post), (10, 64 - x.pre - x.post), (17, x.swing)]
  | 0x0C => BitVec.ofNat 32 x.stored.toNat
  | 0x10 => x.innerCorr
  | 0x14 => x.rsCorr
  | 0x18 => x.rsUncorr
  | 0x1C => x.replayCnt
  | 0x20 => x.nakCnt
  | 0x24 => x.prbsErr
  | 0x28 => x.inj
  | 0x2C => x.wrap.setWidth 32
  | 0x30 => if x.tstate = .up then (Config.laneSnr (s.free + q)).setWidth 32 else 0
  | 0x34 => pk [(0, x.trainsStarted), (16, x.trainsFailed)]
  | _ => 0

/-- A lane window's register written (R343). -/
def laneRegW (q off : Nat) (w : Word) (s : State) : State :=
  match off with
  | 0x00 => lanCtl q w s
  | 0x08 => lanTx q w s
  | 0x28 => lanInj q w s
  | 0x2C => modLane q (fun x => { x with wrap := x.wrap &&& ~~~(w.setWidth 6) }) s
  | _ => s

/-- A lane group's register (R343). -/
def groupReg (s : State) (g off : Nat) : Word :=
  let e := s.lanes.escan.at g
  match off with
  | 0x00 => e.ctl ||| pk [(26, e.busy.toNat), (27, e.done.toNat), (28, e.aborted.toNat)]
  | 0x04 => e.err
  | _ => 0

/-- PRT_LINK_STATUS of a link; `mode` is 0 for 1×4 and 2 for 4×1 (R343). -/
def linkStatus (k : Link) (mode : Nat) : Word :=
  pk [(0, mode), (2, k.mask % 16), (6, k.up.toNat), (7, k.quietTx.toNat), (8, k.quietRx.toNat), (9, k.farBuild % 4),
      (11, k.farInst % 512), (20, k.epoch % 16), (24, k.narrowWrap.toNat), (25, k.crcWrap.toNat)]

/-- A register of a port or link window for one link (R343, R375). -/
def linkReg (k : Link) (mode off : Nat) : Word :=
  match off with
  | 0x00 => k.cfg
  | 0x04 => linkStatus k mode
  | 0x08 => k.narrowCnt
  | 0x0C => k.pktCrc
  | 0x10 => k.plotDrop
  | 0x14 => k.staleCnt
  | 0x18 => pk [(0, k.dropWrap.toNat), (1, k.staleWrap.toNat), (2, k.lastDrop % 4096)]
  | _ => 0

/-- A register of a port window (R328, R343). -/
def portReg (s : State) (p off : Nat) : Word :=
  match portLinks s p with
  | [l] => linkReg (getLink s l) 0 off
  | ls =>
    if off = 0 then (getLink s (ls.headD 0)).cfg
    else if off = 4 then
      BitVec.ofNat 32 (2 + (List.range 4).foldl (fun m i => if (getLink s (ls.getD i 0)).up then m + 4 * 2 ^ i else m) 0)
    else 0

/-- A register of a link window (R328). -/
def linkWinReg (s : State) (q off : Nat) : Word :=
  match windowLink s q with
  | some l => linkReg (getLink s l) 2 off
  | none => 0

/-- The write-1-to-clear flags of a link (R343, R375). -/
def linkFlags (l off : Nat) (w : Word) (s : State) : State :=
  match off with
  | 0x04 => modLink l (fun k => { k with narrowWrap := k.narrowWrap && !bitAt w 24, crcWrap := k.crcWrap && !bitAt w 25 }) s
  | 0x18 => modLink l (fun k => { k with dropWrap := k.dropWrap && !bitAt w 0, staleWrap := k.staleWrap && !bitAt w 1 }) s
  | _ => s

/-- LAN_TRAIN_CFG written (R317, R343). -/
def trainCfg (w : Word) (s : State) : State :=
  let b := fld w 0 4
  if 1 ≤ b ∧ b ≤ 8 then promote 64 { s with lanes := { s.lanes with trainBatch := b } } else raise 0x570 s

end Sys2Proof.Machine
end

