-- ==== Sys2Proof/Machine/MarlOps.lean ====
section
/-! DEFINITION. The Marl: records, commits, the flood allowance, summaries, crash dumps, the firmware log and the trace region
(R468-R478, R483). -/

namespace Sys2Proof.Machine

/-- The Marl changed. -/
def modMrl (f : Marl → Marl) (s : State) : State := { s with mrl := f s.mrl }

/-- The commit priority of a record kind (R472); the smallest goes first. -/
def recPrio (kind : Nat) : Nat :=
  if kind = 4 ∨ kind = 6 then 0 else if kind < 0x10 then 1 else if kind = 0x10 then 2 else if kind = 0x20 then 3 else 4

/-- The first record of the least priority number in the queue, with its place. -/
def nextRec (q : List MarlRec) : Option MarlRec :=
  ([0, 1, 2, 3, 4].filterMap (fun k => q.find? (fun r => recPrio r.kind == k))).head?

/-- The region of a record kind, with its first slot and its length (R471); crash dumps take a half of theirs. -/
def recRegion (kind : Nat) : Nat × Nat × Nat :=
  if kind < 0x10 then (0, 0, 2048) else if kind = 0x10 then (1, 2048, 4096)
  else if kind = 0x20 then (2, 6144, 4096) else (3, 10240, 5632)

/-- The next slot of a region. -/
def nextSlot (m : Marl) (region : Nat) : Nat :=
  match region with | 0 => m.nextFault | 1 => m.nextDump | 2 => m.nextLog | _ => m.nextTrace

/-- A region's next slot set. -/
def setNext (m : Marl) (region n : Nat) : Marl :=
  match region with
  | 0 => { m with nextFault := n } | 1 => { m with nextDump := n } | 2 => { m with nextLog := n } | _ => { m with nextTrace := n }

/-- A slot of a region is taken for a record: the region's ring moves on (R471). -/
def takeSlot (kind : Nat) (m : Marl) : Nat × Marl :=
  let (r, first, len) := recRegion kind
  let n := nextSlot m r
  let wraps := (m.slots.find n).isSome
  (n, { setNext m r (first + (n - first + 1) % len) with wrapFlag := if wraps then setBit m.wrapFlag r true else m.wrapFlag })

/-- Seven entries of the firmware log go to the Marl in one record (R476); one such record waits at a time, so that the ring
fills while the Marl falls behind. -/
def pumpLog (s : State) : State :=
  if 7 ≤ s.mrl.logRing.length ∧ !(s.mrl.queue.any (fun r => r.kind == 0x20)) then
    queueRec { kind := 0x20, time := 0, body := .log (s.mrl.logRing.take 7) } (modMrl (fun m => { m with logRing := m.logRing.drop 7 }) s)
  else s

/-- Fourteen trace records go to the Marl in one record, when DBG_TRC_CTL.to_marl says so (R471, R483). -/
def pumpTrace (s : State) : State :=
  let o := s.obs
  if bitAt o.trcCtl 1 && decide (14 ≤ (o.trcProd - BitVec.ofNat 32 o.trcFlushed).toNat) && !(s.mrl.queue.any (fun r => r.kind == 0x30)) then
    queueRec { kind := 0x30, time := 0, body := .trace ((List.range 14).map (fun i => o.trc.getD ((o.trcFlushed + i) % 2048) 0)) }
      { s with obs := { o with trcFlushed := (o.trcFlushed + 14) % 2 ^ 32 } }
  else s

/-- The Marl's domain is powered, or what waits wakes it (R548). -/
def marlReady (s : State) : Bool := domOn s (marlDom s)

/-- A record that is committed takes its place in the index, and its fault's entry names it (R449, R470). -/
def committed (r : MarlRec) (slot : Nat) (s : State) : State :=
  let s := modMrl (fun m => { m with
    cur := none, seq := m.seq + 1,
    slots := m.slots.set slot { seq := (m.seq + 1).toNat, record := r, committed := true },
    dumpLeft := if r.kind = 0x10 then m.dumpLeft - 1 else m.dumpLeft }) s
  match r.body with
  | .fault _ _ _ _ _ (some i) _ _ =>
    { s with flt := { s.flt with entries := s.flt.entries.mapVals (fun j e =>
        if j = i ∧ e.code = r.code ∧ e.marl.isNone then { e with marl := some slot } else e) } }
  | _ => s

/-- The write of the record at the head of the Marl's queue ends (R470, R472, R478). -/
def marlCommit (w : MarlWrite) (s : State) : State :=
  if !marlReady s then s
  else
    let start : Option MarlCommit × State := match s.mrl.cur with
      | some c => (some c, s)
      | none => match nextRec s.mrl.queue with
        | none => (none, s)
        | some r =>
          let (n, m) := takeSlot r.kind { s.mrl with queue := s.mrl.queue.erase r }
          (some { record := r, slot := n, retried := false }, modMrl (fun _ => m) s)
    match start.1 with
    | none => s
    | some c =>
      let s := start.2
      match w with
      | .good => pumpTrace (pumpLog (committed c.record c.slot s))
      | .badReadback =>
        if c.retried then
          raise 0x902 (modMrl (fun m => { m with cur := none, dumpLeft := if c.record.kind = 0x10 then m.dumpLeft - 1 else m.dumpLeft }) s)
        else
          let (n, m) := takeSlot c.record.kind s.mrl
          modMrl (fun _ => { m with cur := some { c with slot := n, retried := true } }) s

/-- Fault-region records that wait (R473). -/
def faultQueued (m : Marl) : Nat := (m.queue.filter (fun r => decide (recPrio r.kind ≤ 1))).length

/-- The order of summary entries: ascending code, then ascending plot, no plot first (R474). -/
def classKey (c : Nat × Option Nat) : Nat := c.1 * 512 + (match c.2 with | none => 0 | some p => p + 1)

/-- A class joins a list in the order of its key. -/
def insertClass (c : (Nat × Option Nat) × Nat) : List ((Nat × Option Nat) × Nat) → List ((Nat × Option Nat) × Nat)
  | [] => [c]
  | d :: r => if classKey c.1 < classKey d.1 then c :: d :: r else d :: insertClass c r

/-- The class that takes what the tables cannot hold (R474). -/
def restClass : Nat × Option Nat := (0xFFF, none)

/-- The summary entries of a second: at most 228, the last with the counts of all further classes (R474). -/
def summaryEntries (cs : List ((Nat × Option Nat) × Nat)) : List (Nat × Option Nat × Nat) :=
  let sorted := (cs.filter (fun c => c.1 != restClass)).foldl (fun a c => insertClass c a) []
  let rest := (cs.filter (fun c => c.1 == restClass)).map (fun c => c.2)
  let all := sorted.map (fun c => (c.1.1, c.1.2, c.2))
  let whole := decide (all.length + (if rest.isEmpty then 0 else 1) ≤ 228)
  let kept := if whole then all else all.take 227
  let left := (if whole then 0 else ((all.drop 227).map (fun e => e.2.2)).sum) + rest.sum
  if left = 0 then kept else kept ++ [(0xFFF, none, left)]

/-- Summary records of 57 entries each (R471, R474). -/
def queueSummaries : Nat → List (Nat × Option Nat × Nat) → State → State
  | 0, _, s => s
  | k + 1, es, s =>
    if es.isEmpty then s else queueSummaries k (es.drop 57) (queueRec { kind := 2, time := 0, body := .summary (es.take 57) } s)

/-- The Sundial enters another second: what the last one counted is written (R474). -/
def secondTurn (s : State) : State :=
  let now := s.sun.time / 10 ^ 9
  if now = s.mrl.second then s
  else modMrl (fun m => { m with second := now, counts := [] }) (queueSummaries 4 (summaryEntries s.mrl.counts) s)

/-- A class counted in a table of 256 (R474). -/
def countClass (c : Nat × Option Nat) (cs : List ((Nat × Option Nat) × Nat)) : List ((Nat × Option Nat) × Nat) :=
  let key := if cs.any (fun e => e.1 == c) || decide ((cs.filter (fun e => e.1 != restClass)).length < 256) then c else restClass
  if cs.any (fun e => e.1 == key) then cs.map (fun e => if e.1 = key then (e.1, e.2 + 1) else e) else cs ++ [(key, 1)]

/-- A fault reaches the Marl path with its level (R473): it takes a full record, or is counted in its class. -/
def marlFault (e : FaultEv) (lvl : Level) (escalated : Bool) (entry : Option Nat) (s : State) : State :=
  let s := secondTurn s
  let high := lvl != .l0 && lvl != .l1
  let room := decide (faultQueued s.mrl < 128)
  if (high || decide (s.mrl.fullUsed < 64)) && room then
    let s := queueRec { kind := 1, time := e.time, code := e.code, layer := e.layer, op := e.op, plot := e.plot,
                        body := .fault lvl escalated e.conseq e.kind e.unit entry e.detail e.ctx } s
    if high then s
    else
      let s := modMrl (fun m => { m with fullUsed := m.fullUsed + 1 }) s
      if s.mrl.fullUsed = 64 ∧ !s.mrl.flood then raise 0x950 (modMrl (fun m => { m with flood := true }) s) else s
  else modMrl (fun m => { m with counts := countClass (e.code, e.plot) m.counts, faultQFull := m.faultQFull || !room }) s

/-- The allowance is armed (R473). -/
def rearmFlood (s : State) : State := modMrl (fun m => { m with fullUsed := 0, flood := false }) s

/-- The Silt rings of a build, in the order of their kind and index (R480). -/
def siltUnits (s : State) : List (Nat × Nat) :=
  let n := if e64 s then [8, 16, 8, 1, 1, 1, 2, 5] else [64, 128, 32, 4, 8, 4, 4, 5]
  (List.range 8).flatMap (fun k => (List.range (n.getD k 0)).map (fun i => (k, i)))

/-- The events of a ring, oldest first. -/
def ringEvents (r : Ring) : List (BitVec 128) :=
  let n := r.count.toNat
  (List.range (min n 64)).map (fun i => r.ev.getD ((n - min n 64 + i) % 64) 0)

/-- The parts of a crash dump (R475). -/
def dumpParts (s : State) : Nat := if e64 s then 241 else 700

/-- A crash dump is taken with a trigger code (R475); during another it is only counted. -/
def takeDump (trigger : Nat) (s : State) : State :=
  if 0 < s.mrl.dumpLeft then modMrl (fun m => { m with dumpMissed := satInc 255 m.dumpMissed }) s
  else
    let m := s.mrl
    let n := m.dumpNo + 1
    let snap : DumpSnap := { number := n, trigger := trigger, table := s.flt.entries,
                             silt := (siltUnits s).map (fun u =>
                               let r := s.obs.rings.at (siltKey u.1 u.2)
                               (siltKey u.1 u.2, r.count.toNat, ringEvents r)),
                             log := m.logHist }
    let parts := dumpParts s
    let s := modMrl (fun m => { m with
      dumpNo := n, dumpLeft := parts, dumpHalf := !m.dumpHalf, nextDump := if m.dumpHalf then 4096 else 2048,
      dumps := snap :: m.dumps.take 1 }) s
    (List.range parts).foldl (fun s i =>
      queueRec { kind := 0x10, time := 0, code := trigger, object := n, part := i, parts := parts, body := .dumpPart n i parts trigger } s) s

/-- A running crash dump ends incomplete: a reset acts (R475). -/
def cutDump (s : State) : State :=
  modMrl (fun m => { m with dumpLeft := 0, queue := m.queue.filter (fun r => r.kind != 0x10) }) s

/-- The mailbox service runs: Icquel from step 9 on, the boot ROM in the hold state; its domain is on and no wake of it is under way
(R454, R458, R465, R548, R551). -/
def icqRuns (s : State) : Bool :=
  domOn s (mgmtDom s) && s.start.wake == 0 && (s.start.state != 0 || decide (9 ≤ s.start.step))

/-- A firmware log entry's 64 bytes (R476). -/
def logEntry (s : State) (severity source code : Nat) (text : BitVec 384) : BitVec 512 :=
  BitVec.ofNat 512 (s.sun.time % 2 ^ 64 + (severity % 4) * 2 ^ 64 + (source % 256) * 2 ^ 72 + (code % 65536) * 2 ^ 80
    + (s.mrl.logSeq % 2 ^ 32) * 2 ^ 96 + text.toNat * 2 ^ 128)

/-- Icquel writes a log entry: into the ring, or dropped and counted when it is full (R476). -/
def firmwareLog (severity source code : Nat) (text : BitVec 384) (s : State) : State :=
  if !icqRuns s then s
  else if s.mrl.logRing.length < 4096 then
    let e := logEntry s severity source code text
    pumpLog (modMrl (fun m => { m with logRing := m.logRing ++ [e], logSeq := m.logSeq + 1, logHist := (m.logHist ++ [e]).drop (m.logHist.length - 1023) }) s)
  else
    noteIf (!s.mrl.logDropFlag) 0x940
      (modMrl (fun m => { m with logSeq := m.logSeq + 1, logDrop := satInc 0xFFFFFFFF m.logDrop, logDropFlag := true }) s)

end Sys2Proof.Machine
end

