-- ==== Sys2Proof/Machine/Domains.lean ====
section
/-! DEFINITION. Switched domains: kinds, the power handshake, what is lost in a power cycle, gating and waking (R428, R430, R508,
R509, R546-R553). -/

namespace Sys2Proof.Machine

/-- The kinds of switched domains, with the number within the kind (R546). -/
inductive DomKind where
  | lanes (g : Nat)
  | transport (t : Nat)
  | furrows (k : Nat)
  | harrow (c : Nat)
  | sieve (u : Nat)
  | bank (b : Nat)
  | mgmt
  | marl
  | dibber
  | trellis
  deriving DecidableEq, Repr

/-- The kind of a domain number (R546). -/
def domKind (s : State) (d : Nat) : DomKind :=
  if e64 s then
    if d < 8 then .lanes d else if d < 10 then .transport (d - 8) else if d = 10 then .furrows 0 else if d = 11 then .harrow 0
    else if d = 12 then .sieve 0 else if d < 15 then .bank (d - 13) else if d = 15 then .mgmt else if d = 16 then .marl else .dibber
  else
    if d < 64 then .lanes d else if d < 72 then .transport (d - 64) else if d < 76 then .furrows (d - 72)
    else if d < 84 then .harrow (d - 76) else if d < 88 then .sieve (d - 84) else if d < 92 then .bank (d - 88)
    else if d = 92 then .mgmt else if d = 93 then .marl else if d = 94 then .dibber else .trellis

/-- The lanes of a group. -/
def groupLanes (g : Nat) : List Nat := (List.range 8).map (fun i => 8 * g + i)

/-- The port engines of a transport domain (R546). -/
def transportPorts (s : State) (t : Nat) : List Nat :=
  if e64 s then (List.range 8).map (fun i => 8 * t + i) else (List.range 16).map (fun i => 16 * t + i)

/-- The links of a transport domain. -/
def transportLinks (s : State) (t : Nat) : List Nat := (transportPorts s t).flatMap (portLinks s)

/-- The furrows of a group (R546). -/
def groupFurrows (k : Nat) : List Nat := (List.range 64).map (fun i => 64 * k + i)

/-- Every lane of a group is Fallow (R548); a lane that looks for its far end every 100 ms keeps its group on (log 89). -/
def lanesFallow (s : State) (g : Nat) : Bool :=
  (groupLanes g).all (fun q => ((getLane s q).fallow && !(getLane s q).noFar) || noFarLane s q)

/-- Every port of a link list is Fallow. -/
def linksFallow (s : State) (ls : List Nat) : Bool :=
  ls.all (fun l => (linkLanes s l).all (fun q => (getLane s q).fallow || noFarLane s q))

/-- A block may do without a domain (R548). -/
def domIdle (s : State) (d : Nat) : Bool :=
  match domKind s d with
  | .lanes g => lanesFallow s g
  | .transport t => linksFallow s (transportLinks s t) && !(s.xfer.segs.any (fun e => engDom s e.2.eng == d))
  | .furrows k => (groupFurrows k).all (fun f => (getFur s f).state == .idle)
  | .harrow _ => s.coll.slots.isEmpty
  | .sieve u => !(busyUnits s).contains u
  | .bank b => !inRun s || (b != 0 && decide (s.coll.poolCfg.getD (poolMax s) ≤ (if e64 s then 0 else 384 * (b - 1))))
  | .mgmt => s.fur.all (fun e => e.2.state == .idle) && s.mbx.all (fun e => !e.2.reqGo)
  | .marl => s.mrl.queue.isEmpty && s.mrl.cur.isNone
  | .dibber => s.coll.beds.all (fun e => !e.2.isOpen || e.2.dresv == 0)
  | .trellis => !inRun s

/-- The bit of PWR_GATE_CFG that lets Lulen gate a kind by itself (R558). -/
def gateBit (k : DomKind) : Option Nat :=
  match k with
  | .lanes _ => some 0 | .furrows _ => some 1 | .harrow _ => some 2 | .sieve _ => some 3 | .dibber => some 4 | .marl => some 5
  | .transport _ | .bank _ | .mgmt | .trellis => none

/-- A furrow's group loses its power or its unit is cycled: the furrow is Idle, and its commands are abandoned (R167, R428). -/
def killFur (f : Nat) (s : State) : State :=
  if (getFur s f).state = .idle then s
  else
    let s := modFur f Furrow.toIdle (abandonFur f s)
    { s with flt := { s.flt with engResets := s.flt.engResets.filter (fun e => !(e.kind == .furrow && e.unit == f)) } }

/-- A furrow is Idle, and its loss of work is a consequence with a code (R415, R430). -/
def loseFur (code f : Nat) (s : State) : State :=
  let g := getFur s f
  if g.state = .idle then s
  else raiseEv { code := code, level := .l1, plot := some g.plot, kind := .furrow, unit := f, conseq := true, furrow := some f }
    (killFur f s)

/-- The segments of engines complete in error with a code, as a consequence (R428, R432). -/
def loseSegs (code : Nat) (mine : Nat → Bool) (s : State) : State :=
  let gone := s.xfer.segs.filter (fun e => mine e.2.eng)
  let s := dropSegs (fun g => mine g.eng) (fun _ => false) .once s
  gone.foldl (fun s e => ownerPart e.2.owner none (some code) true s) s

/-- A memory port loses its state: every operation outstanding on it fails, and it comes up anew (R428, R533). -/
def losePort (p : Nat) (s : State) : State :=
  let x := s.mp.ports.at p
  let s := modPort p (fun y => { up := y.up, upSince := s.clk, noted249 := y.noted249 }) s
  let s := x.tags.foldl (fun s t => finishAcc t.2.acc true 0 s) s
  x.queue.foldl (fun s a => finishAcc a true 0 s) s

/-- The links of a port engine go down with what they hold. -/
def loseLinks (ls : List Nat) (s : State) : State :=
  ls.foldl (fun s l =>
    let s := (linkLanes s l).foldl (fun s q => laneOut q .down s) s
    let s := modLink l (fun k => { k with inq := [], deficit := [] }) s
    if linkUp s l then portDown l s else s) s

/-- Every step of a bed that the block serves is abandoned with a code (R215, R302). -/
def abandonBed (ctx code : Nat) (quiet : Bool) (s : State) : State :=
  let b := getBed s ctx
  let s := b.steps.foldl (fun s x => abandonStep ctx x.num code quiet s) s
  let s := (s.coll.slots.filter (fun e => e.2.ctx == ctx)).foldl (fun s e => abandonStep ctx e.2.step code quiet s) s
  b.dsteps.foldl (fun s x => abandonD ctx x.num code quiet s) s

/-- The step that a Sieve unit serves is abandoned with a code (R428, R432). -/
def dropUnit (u code : Nat) (s : State) : State :=
  s.coll.beds.foldl (fun s e =>
    (e.2.steps.filter (fun st => st.unit == some u && unitHeld s e.1 e.2 st)).foldl (fun s st => abandonStep e.1 st.num code true s) s) s

/-- The Silt rings of a domain's units are cleared (R428, R482). -/
def clearRings (s : State) (k : DomKind) : State :=
  let mine : Nat → Nat → Bool := fun kind i =>
    match k with
    | .lanes g => kind == 0 && i == g
    | .transport t => (kind == 1 && (transportPorts s t).contains i) || (kind == 2 && i / 4 == t)
    | .furrows g => kind == 3 && i == g
    | .harrow c => kind == 4 && i == c
    | .sieve u => kind == 5 && i == u
    | .bank b => kind == 6 && i == b
    | .dibber => kind == 7 && i == 0
    | .trellis => kind == 7 && i == 1
    | .mgmt => kind == 7 && i == 3
    | .marl => kind == 7 && i == 4
  { s with obs := { s.obs with rings := s.obs.rings.filter (fun e => !mine (e.1 / 256) (e.1 % 256)) } }

/-- What a domain power cycle loses (R428): work with code 0x852, fences and Silt rings of the domain's units. -/
def domLost (d : Nat) (s : State) : State :=
  let s := clearRings s (domKind s d)
  match domKind s d with
  | .lanes g => (groupLanes g).foldl (fun s q => laneDown q 0 .down s) s
  | .transport t =>
    let s := { s with flt := { s.flt with
      fencedPrt := (transportPorts s t).foldl (fun m p => setBit m p false) s.flt.fencedPrt,
      fencedXfr := (List.range 4).foldl (fun m i => setBit m (4 * t + i) false) s.flt.fencedXfr } }
    let s := loseSegs 0x852 (fun e => e / 4 == t) (loseLinks (transportLinks s t) s)
    if e64 s then (transportPorts s t).foldl (fun s p => losePort p s) s else s
  | .furrows k =>
    (groupFurrows k).foldl (fun s f => loseFur 0x852 f s) { s with flt := { s.flt with fencedFur := setBit s.flt.fencedFur k false } }
  | .harrow c =>
    let s := (s.coll.slots).foldl (fun s e => abandonStep e.2.ctx e.2.step 0x852 true s) s
    modColl (fun x => { x with sliceFence := setFld x.sliceFence (4 * c) 4 0 }) s
  | .sieve u =>
    let s := dropUnit u 0x852 s
    modColl (fun x => { x with sivFence := setBit x.sivFence u false }) s
  | .dibber => s.coll.beds.foldl (fun s e => e.2.dsteps.foldl (fun s x => abandonD e.1 x.num 0x852 true s) s) s
  | .bank _ | .mgmt | .marl | .trellis => s

/-- A domain is isolated and its request lowered (R508). -/
def lowerReq (d : Nat) (s : State) : State := modDom d (fun x => { x with isolated := true, req := false, reqSince := s.clk }) s

/-- A domain's request is raised (R508). -/
def raiseReq (d : Nat) (s : State) : State := modDom d (fun x => { x with req := true, reqSince := s.clk }) s

/-- A domain is one that can be power-cycled alone (R428). -/
def mayCycle (s : State) (d : Nat) : Bool :=
  decide (d < domCount s) && (match domKind s d with
    | .lanes _ | .transport _ | .furrows _ | .harrow _ | .sieve _ | .dibber => true
    | .bank _ | .mgmt | .marl | .trellis => false)

/-- A domain power cycle begins (R428, R430, R447): what is lost, and the handshake. A domain that is off is only powered on. -/
def startCycle (d : Nat) (byHang : Bool) (s : State) : State :=
  let s := { s with glb := { s.glb with cycDomain := d, cycBusy := true, cycByHang := byHang } }
  let s := domLost d s
  if (getDom s d).on then lowerReq d s else raiseReq d s

/-- The lanes that a domain serves train again on the stored path (R428, R502, R548). -/
def retrainDom (d : Nat) (s : State) : State :=
  match domKind s d with
  | .lanes g => (groupLanes g).foldl (fun s q => startTraining q .detect s) s
  | .transport t => (transportLinks s t).foldl (fun s l => (linkLanes s l).foldl (fun s q => startTraining q .detect s) s) s
  | _ => s

/-- A domain has come on: its isolation is released (R508). A management domain that wakes runs start steps 3 to 9 again
(R551). -/
def domUp (d : Nat) (s : State) : State :=
  let cyc := s.glb.cycBusy && s.glb.cycDomain == d
  let s := modDom d (fun x => { x with on := true, isolated := false, ownerOff := false, selfOff := false, wakeWait := false,
                                       idleSince := s.clk }) s
  let s := if s.pwr.busy = some (d, true) then { s with pwr := { s.pwr with busy := none } } else s
  let s := if domKind s d = .mgmt && inRun s then { s with start := { s.start with wake := 3, stepSince := s.clk } } else s
  if cyc then retrainDom d { s with glb := { s.glb with cycBusy := false, cycFailed := false } } else retrainDom d s

/-- Icquel's running state is lost: requests it has taken, SPDM state and relayed requests still arriving (R411, R463, R548). -/
def loseIcquel (s : State) : State :=
  { s with mbx := s.mbx.mapVals (fun _ m => { m with taken := none, owed := none, spdm := {} }), mgt := { s.mgt with relayIn := [] },
           img := { s.img with waiting := [] } }

/-- A domain has gone off: a lane group and Icquel lose their state (R548). -/
def domDown (d : Nat) (s : State) : State :=
  let x := getDom s d
  let s := modDom d (fun x => { x with on := false }) s
  let s := match domKind s d with
    | .mgmt => loseIcquel s
    | .lanes g => { s with pwr := { s.pwr with laneLock := setBit s.pwr.laneLock g false } }
    | .transport _ | .furrows _ | .harrow _ | .sieve _ | .bank _ | .marl | .dibber | .trellis => s
  let s := if s.pwr.busy = some (d, false) then { s with pwr := { s.pwr with busy := none } } else s
  if (s.glb.cycBusy && s.glb.cycDomain == d) || x.wakeWait then raiseReq d (modDom d (fun x => { x with wakeWait := false }) s) else s

/-- The die changes PWR_ACK of a domain (R508, R509). -/
def powerAck (d : Nat) (level : Bool) (s : State) : State :=
  let x := getDom s d
  if domCount s ≤ d ∨ level = x.ack then s
  else if level ≠ x.req then
    if x.noted805 then s else raise 0x805 (modDom d (fun x => { x with noted805 := true }) s)
  else
    let s := modDom d (fun x => { x with ack := level, late := false }) s
    if level then domUp d s else domDown d s

end Sys2Proof.Machine
end

