-- ==== Sys2Proof/Machine/Collector.lean ====
section
/-! DEFINITION. The collector: faults, escalation, entries, the actions of the levels, acknowledgement, fences and hung engine
resets (R412-R424, R430, R432, R433, R448, R449). -/

namespace Sys2Proof.Machine

/-- The collector changed. -/
def modFlt (f : Flt → Flt) (s : State) : State := { s with flt := f s.flt }

/-- The number of a level (R448). -/
def Level.code (l : Level) : Nat := match l with | .l0 => 0 | .l1 => 1 | .l2 => 2 | .l3 => 3 | .safe => 4

/-- The level above (R416). -/
def Level.up (l : Level) : Level := match l with | .l0 => .l1 | .l1 => .l2 | .l2 => .l3 | .l3 => .safe | .safe => .safe

/-- The higher of two levels. -/
def Level.max (a b : Level) : Level := if a.code < b.code then b else a

/-- The number of a unit kind (R449). -/
def UnitKind.code (k : UnitKind) : Nat :=
  match k with
  | .furrow => 0 | .port => 1 | .xfer => 2 | .slice => 3 | .sieve => 4 | .dibber => 5 | .bank => 6 | .block => 7

/-- The order in which faults enter: by time, a parity error first, then by code and unit (R423). -/
def faultKey (e : FaultEv) : Nat := (e.time * 4096 + (if e.code = 0xF00 then 0 else e.code % 4096)) * 65536 + e.unit % 65536

/-- The first of two faults. -/
def earlier (a b : FaultEv) : FaultEv := if faultKey b < faultKey a then b else a

/-- The fault that enters next. -/
def firstFault (es : List FaultEv) : Option FaultEv :=
  match es with
  | [] => none
  | e :: r => some (r.foldl earlier e)

/-- The open entries against which a fault of a class escalates (R416). -/
def rivals (s : State) (code : Nat) (plot : Option Nat) : List FltEntry :=
  (s.flt.entries.map (fun e => e.2)).filter (fun e => e.code == code && e.plot == plot && !e.acked && !e.conseq)

/-- The level that a fault takes, and whether it was raised (R416): an L2 fault of no plot takes L3 (R420). -/
def takenLevel (s : State) (e : FaultEv) : Level × Bool :=
  let top := (rivals s e.code e.plot).foldl (fun (l : Level) x => l.max x.level) .l0
  let l := if e.level = .l0 ∨ e.conseq ∨ top = .l0 then e.level else e.level.max top.up
  (if l = .l2 ∧ e.plot.isNone then .l3 else l, decide (e.level.code < l.code))

/-- The lowest free entry of the 32 (R414). -/
def freeEntry (s : State) : Option Nat := (List.range 32).find? (fun i => (s.flt.entries.find i).isNone)

/-- The cause of an entry stands cleared from the first when its furrow is already Idle (R412). -/
def causeGone (s : State) (e : FaultEv) : Bool :=
  match e.furrow with
  | some f => (getFur s f).state == .idle
  | none => false

/-- A fault of L1 to L3 opens an entry, or is counted in FLT_LOST (R414, R419). -/
def openEntry (e : FaultEv) (lvl : Level) (esc : Bool) (s : State) : State :=
  match freeEntry s with
  | some i =>
    modFlt (fun x => { x with isNew := true, entries := x.entries.set i {
      valid := true, code := e.code, level := lvl, escalated := esc, conseq := e.conseq, plot := e.plot, kind := e.kind,
      unit := e.unit, time := e.time, layer := e.layer, op := e.op, detail := if lvl = .l1 then e.detail else 0,
      furrow := e.furrow, cleared := lvl == .l1 && causeGone s e } }) s
  | none =>
    noteIf (!s.flt.fullNoted) 0xF40 (modFlt (fun x => { x with lost := satInc 0xFFFFFFFF x.lost, fullNoted := true }) s)

/-- An L0 fault is counted by its first digit (R412, R448). -/
def countArea (code : Nat) (s : State) : State :=
  let a := code / 256 % 16
  let (w, wrapped) := wrapInc (s.flt.area.at a)
  modFlt (fun x => { x with area := x.area.set a w, areaWrap := if wrapped then setBit x.areaWrap a true else x.areaWrap }) s

/-- What a furrow still has out is abandoned, without a reset of the furrow. -/
def dropWork (f : Nat) (s : State) : State := abandonDib f (abandonColl f (abandonXfer f s))

/-- A furrow of a frozen plot stops issue, and enters Faulted once its commands are complete (R79, R420). -/
def freezeFur (code f : Nat) (s : State) : State :=
  let g := getFur s f
  if g.state = .idle ∨ g.state = .faulted ∨ g.resetting.isSome then s
  else settleFault f (modFur f (fun g => { g with failing := true, forced := some code }) s)

/-- A furrow enters Faulted at once as the block stops (R421; log 84). -/
def haltFur (code f : Nat) (s : State) : State :=
  let g := getFur s f
  if g.state = .idle ∨ g.state = .faulted ∨ g.resetting.isSome then s
  else enterFaulted f code ((g.seq.toNat + 1) % 2 ^ 32) (g.issued.length - 1) (dropWork f s)

/-- The furrows that stand in the table. -/
def allFurs (s : State) : List Nat := s.fur.map (fun e => e.1)

/-- The open bed contexts. -/
def openBeds (s : State) : List Nat := (s.coll.beds.filter (fun e => e.2.isOpen)).map (fun e => e.1)

/-- The actions of L2 on a plot (R420). -/
def freezePlot (p code : Nat) (s : State) : State :=
  let s := modFlt (fun x => { x with plotFault := setBit x.plotFault p true }) s
  let s := (plotFurrows s p).foldl (fun s f => freezeFur code f s) s
  ((openBeds s).filter (fun c => (getBed s c).plot == p)).foldl (fun s c => abandonBed c code true s) s

/-- Every link of the block. -/
def allLinks (s : State) : List Nat := List.range (linkCount s)

/-- The actions of L3, and its crash dump (R421, R475). -/
def enterL3 (code : Nat) (s : State) : State :=
  if s.flt.l3 || s.flt.safe then s
  else
    let s := modFlt (fun x => { x with l3 := true }) s
    let s := (allFurs s).foldl (fun s f => haltFur code f s) s
    let s := (openBeds s).foldl (fun s c => abandonBed c code true s) s
    let s := if e64 s then s else loseLinks (allLinks s) s
    takeDump code s

/-- The Safe record goes to the Marl ahead of everything that waits (R422, R472). -/
def safeRecord (code : Nat) (s : State) : State :=
  let r : MarlRec := { kind := 6, time := s.sun.time, code := code, body := .safe code }
  modMrl (fun m => { m with queue := r :: m.queue }) s

/-- Every switched domain except management and Marl is powered off (R422). -/
def safeDomains (s : State) : State :=
  (List.range (domCount s)).foldl (fun s d =>
    if d = mgmtDom s ∨ d = marlDom s ∨ !(getDom s d).req then s else lowerReq d s) s

/-- The Safe state (R422). -/
def enterSafe (code : Nat) (s : State) : State :=
  if s.flt.safe then s
  else
    let s := modFlt (fun x => { x with safe := true, safeCode := code % 4096 }) s
    let s := { s with start := { s.start with state := 3, running := false, wake := 0 },
                      glb := { s.glb with cycBusy := false, req := none } }
    let s := (allFurs s).foldl (fun s f => haltFur code f s) s
    let s := loseLinks (allLinks s) s
    takeDump code (safeRecord code (safeDomains s))

/-- The fault that holds the block (R458): its L3 entry takes no action. -/
def holds (s : State) (code : Nat) : Bool := s.start.state == 1 && s.start.holdCode == code

/-- The action of a level (R412). -/
def levelAction (e : FaultEv) (lvl : Level) (s : State) : State :=
  match lvl with
  | .l0 | .l1 => s
  | .l2 => match e.plot with | some p => freezePlot p e.code s | none => s
  | .l3 => if holds s e.code then s else enterL3 e.code s
  | .safe => enterSafe e.code s

/-- The collector takes a fault (R412-R422, R473, R481). -/
def takeFault (e : FaultEv) (s : State) : State :=
  let (lvl, esc) := takenLevel s e
  let u := siltUnit e.kind e.unit
  let s := siltAt e.time u.1 u.2 e.code e.layer e.op (e.plot.getD 0) (e.unit % 256) (e.detail % 65536) s
  let entry := freeEntry s
  let s := if lvl = .l0 then countArea e.code s else if lvl = .safe then s else openEntry e lvl esc s
  levelAction e lvl (marlFault e lvl esc (if lvl = .l0 ∨ lvl = .safe then none else entry) s)

/-- The fault that enters next is taken (R412, R413). -/
def takeNext (s : State) : State :=
  match firstFault s.flt.inflight with
  | none => s
  | some e => takeFault e (modFlt (fun x => { x with inflight := x.inflight.erase e }) s)

/-- Entries are acknowledged; one whose cause is cleared closes (R417). -/
def ackEntries (mine : Nat → Bool) (s : State) : State :=
  clearCauses (fun _ => false)
    (modFlt (fun x => { x with entries := x.entries.mapVals (fun i e => if mine i then { e with acked := true } else e) }) s)

/-- FLT_ACK written (R417, R448). -/
def fltAckW (w : Word) (s : State) : State := ackEntries (fun i => bitAt w 5 || i == fld w 0 5) s

/-- Clearing FUR_FAULT.code acknowledges the furrow's own entries (R417). -/
def ackFurrow (f : Nat) (s : State) : State :=
  clearCauses (fun _ => false)
    (modFlt (fun x => { x with entries := x.entries.mapVals (fun _ e => if e.furrow = some f then { e with acked := true } else e) }) s)

/-- FAULT_N is driven low (R418, R458, R511): also through a cold reset and until start step 2. -/
def faultLow (s : State) : Bool :=
  !s.flt.entries.isEmpty || s.flt.lost != 0 || s.flt.safe || !s.glb.coldPin
    || (s.start.state == 0 && !s.start.warm && decide (s.start.step < 2))

/-- The number of a unit's fence kind in FLT_FENCE (R448): 0 port engine, 1 transfer engine, 2 furrow group, 3 bank group. -/
def fencedOf (s : State) (kind : Nat) : Nat :=
  match kind with
  | 0 => s.flt.fencedPrt.toNat | 1 => s.flt.fencedXfr.toNat | 2 => s.flt.fencedFur.toNat | _ => s.flt.fencedBank.toNat

/-- The units of a kind that can be fenced (R432, R433). -/
def fenceable (s : State) (kind : Nat) : List Nat :=
  match kind with
  | 0 => List.range (portCount s)
  | 1 => List.range (engineCount s)
  | 2 => if e64 s then [] else List.range 4
  | 3 => if e64 s then [1] else [1, 2, 3]
  | _ => []

/-- A unit is the last live one of its kind. -/
def lastLive (s : State) (kind i : Nat) : Bool :=
  (fenceable s kind).all (fun j => j == i || (fencedOf s kind).testBit j)

/-- A unit is fenced, with what becomes of its work (R432, R433). -/
def fenceUnit (kind i : Nat) (s : State) : State :=
  match kind with
  | 0 => loseLinks (portLinks s i) (modFlt (fun x => { x with fencedPrt := setBit x.fencedPrt i true }) s)
  | 1 => loseSegs 0xF11 (fun e => e == i) (modFlt (fun x => { x with fencedXfr := setBit x.fencedXfr i true }) s)
  | 2 => (groupFurrows i).foldl (fun s f => killFur f s) (modFlt (fun x => { x with fencedFur := setBit x.fencedFur i true }) s)
  | _ => fenceBank i s

/-- FLT_FENCE written (R432, R448): a unit that is absent, not fenceable or the last live one is refused. -/
def fltFenceW (w : Word) (s : State) : State :=
  let kind := fld w 0 2
  let i := fld w 2 7
  if !bitAt w 9 then s
  else if !(fenceable s kind).contains i then raise 0xF20 s
  else if (fencedOf s kind).testBit i then s
  else if lastLive s kind i then raise 0xF20 s
  else fenceUnit kind i s

/-- An uncorrectable error in a unit's control state fences it: L0, or L3 for the last live one (R432). Kind 3 is a parity error in
the collector itself (R422; log 83). -/
def controlError (kind i : Nat) (s : State) : State :=
  if kind = 3 then raise 0xF00 s
  else if 3 < kind ∨ !(fenceable s kind).contains i ∨ (fencedOf s kind).testBit i then s
  else
    let lvl := if lastLive s kind i then Level.l3 else .l0
    let ev : FaultEv := { code := 0xF10 + kind, level := lvl, kind := if kind = 0 then .port else if kind = 1 then .xfer else .furrow,
                          unit := if kind = 2 then 64 * i else i }
    fenceUnit kind i (raiseEv ev s)

/-- HRW_SLICE_FENCE written (R245): the last unfenced slice is never fenced. -/
def sliceFenceW (w : Word) (s : State) : State :=
  let m := s.coll.sliceFence ||| (w &&& BitVec.ofNat 32 (2 ^ sliceCount s - 1))
  if m = s.coll.sliceFence then s
  else if m.toNat = 2 ^ sliceCount s - 1 then raise 0x4F0 s
  else modColl (fun c => { c with sliceFence := m }) s

/-- SIV_FENCE written (R288, R432): the last live unit is never fenced; what a fenced one serves is abandoned (log 85). -/
def sivFenceW (w : Word) (s : State) : State :=
  let m := s.coll.sivFence ||| (w.setWidth 4 &&& BitVec.ofNat 4 (2 ^ unitCount s - 1))
  let newly := (List.range (unitCount s)).filter (fun u => bitAt m u && !bitAt s.coll.sivFence u)
  if newly.isEmpty then s
  else if m.toNat = 2 ^ unitCount s - 1 then raise 0x3CF s
  else newly.foldl (fun s u => dropUnit u 0x3C1 s) (modColl (fun c => { c with sivFence := m }) s)

/-- HRW_POOL_CFG written (R221). -/
def poolCfgW (w : Word) (s : State) : State :=
  if !(openBeds s).isEmpty ∨ poolMax s < fld w 0 11 then raise 0x331 s
  else modColl (fun c => { c with poolCfg := some (fld w 0 11) }) s

/-- The domain of an engine (R546). -/
def unitDom (s : State) (k : UnitKind) (u : Nat) : Nat :=
  match k with
  | .furrow => furDom s u | .port => portDom s u | .xfer => engDom s u | .slice => sliceDom s u | .sieve => sieveDom s u
  | .dibber => dibDom s | .bank => bankDom s u | .block => mgmtDom s

/-- A domain power cycle has failed, or cannot be run (R430). -/
def cycleFailed (s : State) : State :=
  raise 0x851 { s with glb := { s.glb with cycBusy := false, cycFailed := true } }

/-- An engine has not released its work 1 ms after its reset (R430): its domain is cycled. It waits for a cycle that runs. -/
def engineHung (k : Nat) (s : State) : State :=
  match s.flt.engResets[k]? with
  | none => s
  | some x =>
    if !passed s x.since 1000000 || s.glb.cycBusy then s
    else
      let s := note 0x850 none x.kind x.unit (modFlt (fun y => { y with engResets := y.engResets.eraseIdx k }) s)
      let d := unitDom s x.kind x.unit
      if mayCycle s d then startCycle d true s else cycleFailed s

/-- FLT_STATUS (R448). -/
def fltStatus (s : State) : Word :=
  let top := s.flt.entries.foldl (fun l e => l.max e.2.level) Level.l0
  pk [(0, top.code), (3, s.flt.safe.toNat), (4, (faultLow s).toNat), (5, s.flt.entries.length), (11, s.flt.isNew.toNat),
      (12, s.flt.safeCode % 4096)]

/-- An entry window's register (R449). -/
def entryReg (e : FltEntry) (off : Nat) : Word :=
  match off with
  | 0x00 => pk [(0, e.code), (12, e.level.code), (15, e.escalated.toNat), (16, e.acked.toNat), (17, e.conseq.toNat), (18, e.valid.toNat)]
  | 0x04 => pk [(0, e.plot.getD 0), (8, if e.valid then e.plot.isNone.toNat else 0), (9, e.kind.code), (12, e.unit % 512)]
  | 0x08 => BitVec.ofNat 32 e.time
  | 0x0C => BitVec.ofNat 32 (e.time / 2 ^ 32)
  | 0x10 => pk [(0, e.layer % 65536), (16, e.op % 65536)]
  | 0x14 => match e.marl with | some n => pk [(0, n), (15, 1)] | none => 0
  | 0x18 => BitVec.ofNat 32 e.detail
  | _ => 0

/-- A collector register (R448); FLT_LOST reads without its clear. -/
def fltReg (s : State) (off : Nat) : Word :=
  match off with
  | 0x00 => fltStatus s
  | 0x08 => BitVec.ofNat 32 s.flt.lost
  | 0x20 => s.flt.fencedXfr
  | 0x24 => pk [(0, s.flt.fencedFur.toNat), (4, s.flt.fencedBank.toNat)]
  | 0x28 => s.flt.icqBeat
  | 0x80 => s.flt.areaWrap.setWidth 32
  | _ =>
    if 0x10 ≤ off ∧ off ≤ 0x1C then BitVec.ofNat 32 (s.flt.fencedPrt.toNat >>> (32 * ((off - 0x10) / 4)))
    else if 0x40 ≤ off ∧ off ≤ 0x7C then s.flt.area.at ((off - 0x40) / 4)
    else if 0xA0 ≤ off ∧ off ≤ 0xBC then BitVec.ofNat 32 (s.flt.plotFault.toNat >>> (32 * ((off - 0xA0) / 4)))
    else if 0x400 ≤ off then entryReg (s.flt.entries.at ((off - 0x400) / 0x20)) (off % 0x20)
    else 0

/-- A collector register written (R448). -/
def fltRegW (off : Nat) (w : Word) (s : State) : State :=
  match off with
  | 0x00 => modFlt (fun x => { x with isNew := x.isNew && !bitAt w 11 }) s
  | 0x04 => fltAckW w s
  | 0x0C => fltFenceW w s
  | 0x80 => modFlt (fun x => { x with areaWrap := x.areaWrap &&& ~~~(w.setWidth 16) }) s
  | _ => s

/-- FLT_LOST read: the count, which the read clears (R19, R419, R448). -/
def readLost (s : State) : Word × State := (BitVec.ofNat 32 s.flt.lost, modFlt (fun x => { x with lost := 0 }) s)

end Sys2Proof.Machine
end

