-- ==== Sys2Proof/Machine/CollRegs.lean ====
section
/-! DEFINITION. The registers of beds, the slot pool, the Harrow, the Sieve and the Dibber (R220, R221, R248, R288, R304). -/

namespace Sys2Proof.Machine

/-- The oldest open slot of a bed: the first allocated of those that have had a packet, else the first (R213). -/
def oldestSlot (s : State) (ctx : Nat) : Option Slot :=
  (s.coll.slots.find? (fun e => e.2.ctx == ctx)).map (fun e => e.2)

/-- The ranks missing from the oldest open slot, as a mask (R213). -/
def oldestMissing (s : State) (ctx : Nat) : BitVec 512 :=
  match oldestSlot s ctx with
  | none => 0
  | some x => match findStep (getBed s ctx) x.step with
    | some st => rankMask (missingOf (mustSend s (getBed s ctx) st x) x)
    | none => 0

/-- HRW_BED_STATE (R220). -/
def bedState (s : State) (b : Bed) : Word :=
  if !b.isOpen then 0
  else pk [(0, 1), (1, (!e64 s).toNat), (2, match b.steps with | st :: _ => (routeOf b.desc st.cmd).code | [] => 0),
           (4, b.desc.n), (14, b.staleWrap.toNat), (15, b.dupWrap.toNat), (16, b.aborted.toNat), (17, b.abortCode % 4096)]

/-- A bed-context window's register (R220): a closed context reads zero (log 86). -/
def bedReg (s : State) (ctx off : Nat) : Word :=
  let b := getBed s ctx
  if !b.isOpen then 0
  else match off with
    | 0x00 => pk [(0, b.desc.bed), (16, b.plot), (24, b.desc.gen)]
    | 0x04 => bedState s b
    | 0x08 => BitVec.ofNat 32 (match b.steps with | st :: _ => st.num | [] => b.nextStep)
    | 0x0C => BitVec.ofNat 32 (slotsHeld s ctx)
    | 0x10 => b.stale
    | 0x14 => b.dup
    | 0x18 => BitVec.ofNat 32 b.lag.last
    | 0x1C => BitVec.ofNat 32 b.lag.lastNs
    | 0x20 => pk [(0, b.lag.worst), (31, b.lag.valid.toNat)]
    | 0x24 => BitVec.ofNat 32 b.lag.worstNs
    | 0x28 => BitVec.ofNat 32 (((oldestSlot s ctx).map (fun x => x.chunk)).getD 0)
    | 0x2C => BitVec.ofNat 32 (match (oldestSlot s ctx).bind (fun x => x.first) with | some t => min (s.sun.time - t) 0xFFFFFFFF | none => 0)
    | 0x30 => BitVec.ofNat 32 (bitsOf 512 (oldestMissing s ctx).toNat).length
    | _ => if 0x40 ≤ off then BitVec.ofNat 32 ((oldestMissing s ctx).toNat >>> (32 * ((off - 0x40) / 4))) else 0

/-- HRW_LAG_WORST written: clearing valid clears the rank and its delay (R220). -/
def lagClear (ctx : Nat) (w : Word) (s : State) : State :=
  if bitAt w 31 && (getBed s ctx).isOpen then
    modBed ctx (fun b => { b with lag := { b.lag with worst := 0, worstNs := 0, valid := false } }) s
  else s

/-- A bed-context window's register written (R220). -/
def bedRegW (ctx off : Nat) (w : Word) (s : State) : State :=
  if !(getBed s ctx).isOpen then s
  else match off with
    | 0x04 => modBed ctx (fun b => { b with
        staleWrap := b.staleWrap && !bitAt w 14, dupWrap := b.dupWrap && !bitAt w 15, aborted := b.aborted && !bitAt w 16 }) s
    | 0x20 => lagClear ctx w s
    | _ => s

/-- A pool register (R221). -/
def poolReg (s : State) (off : Nat) : Word :=
  let n := (openBeds s).length
  match off with
  | 0x0 => BitVec.ofNat 32 (s.coll.poolCfg.getD (poolMax s))
  | 0x4 => pk [(0, poolFree s), (11, s.coll.peak), (23, n % 256), (31, (n == 256).toNat)]
  | 0x8 => pk [(0, s.coll.staleCnt), (31, s.coll.staleWrap.toNat)]
  | _ => 0

/-- HRW_POOL_STATUS written: the peak restarts from the slots held now (R221; log 87). -/
def poolStatusW (w : Word) (s : State) : State :=
  if bitAt w 22 then modColl (fun c => { c with peak := c.slots.length }) s else s

/-- A pool register written (R221). -/
def poolRegW (off : Nat) (w : Word) (s : State) : State :=
  match off with
  | 0x0 => poolCfgW w s
  | 0x4 => poolStatusW w s
  | 0x8 => modColl (fun c => { c with staleWrap := c.staleWrap && !bitAt w 31 }) s
  | _ => s

/-- A Harrow register (R248). -/
def harrowReg (s : State) (off : Nat) : Word :=
  let c := s.coll
  match off with
  | 0x00 => c.sliceFence
  | 0x08 => c.resRetry
  | 0x0C => c.escCnt
  | 0x10 => pk [(0, deepUsed s), (12, c.deepPeak), (25, c.reserveHolder.isSome.toNat)]
  | 0x14 => c.deepBusy
  | 0x18 => pk [(0, (liveSlices s).length), (6, c.retryWrap.toNat), (7, c.escWrap.toNat), (8, c.busyWrap.toNat)]
  | 0x1C => pk [(0, c.hrwErr.code), (12, c.hrwErr.unit % 32), (17, c.hrwErr.valid.toNat), (18, c.hrwErr.ctx % 256)]
  | _ => 0

/-- HRW_DEEP_STATUS written: the peak restarts from the entries held now (R248; log 87). -/
def deepStatusW (w : Word) (s : State) : State :=
  if bitAt w 24 then modColl (fun c => { c with deepPeak := deepUsed s }) s else s

/-- A Harrow register written (R248). -/
def harrowRegW (off : Nat) (w : Word) (s : State) : State :=
  match off with
  | 0x04 => sliceFenceW w s
  | 0x10 => deepStatusW w s
  | 0x18 => modColl (fun c => { c with
      retryWrap := c.retryWrap && !bitAt w 6, escWrap := c.escWrap && !bitAt w 7, busyWrap := c.busyWrap && !bitAt w 8 }) s
  | 0x1C => modColl (fun c => { c with hrwErr := { c.hrwErr with valid := c.hrwErr.valid && !bitAt w 17 } }) s
  | _ => s

/-- A Sieve register (R288). -/
def sieveReg (s : State) (off : Nat) : Word :=
  let c := s.coll
  match off with
  | 0x00 => pk [(0, c.sivFence.toNat), (4, (busyUnits s).foldl (fun m u => m + 2 ^ u) 0), (8, c.dropWrap.toNat), (9, c.denseWrap.toNat)]
  | 0x08 => c.drop
  | 0x0C => c.dense
  | 0x10 => pk [(0, c.disp.length), (7, c.dispPeak)]
  | 0x14 => pk [(0, c.sivErr.code), (12, c.sivErr.unit % 4), (14, c.sivErr.valid.toNat), (15, c.sivErr.ctx % 256), (23, c.sivErr.rank % 512)]
  | _ => 0

/-- SIV_DISP_CTX written: the peak restarts from the contexts held now (R288; log 87). -/
def dispStatusW (w : Word) (s : State) : State :=
  if bitAt w 14 then modColl (fun c => { c with dispPeak := c.disp.length }) s else s

/-- A Sieve register written (R288). -/
def sieveRegW (off : Nat) (w : Word) (s : State) : State :=
  match off with
  | 0x00 => modColl (fun c => { c with dropWrap := c.dropWrap && !bitAt w 8, denseWrap := c.denseWrap && !bitAt w 9 }) s
  | 0x04 => sivFenceW w s
  | 0x10 => dispStatusW w s
  | 0x14 => modColl (fun c => { c with sivErr := { c.sivErr with valid := c.sivErr.valid && !bitAt w 14 } }) s
  | _ => s

/-- A Dibber register (R304). -/
def dibReg (s : State) (off : Nat) : Word :=
  let c := s.coll
  match off with
  | 0x00 => BitVec.ofNat 32 c.dibLimit
  | 0x04 => pk [(0, dibSlots s), (7, dibInUse s), (14, c.dibPeak), (22, c.stepsWrap.toNat), (23, c.ddupWrap.toNat)]
  | 0x08 => c.dibSteps
  | 0x0C => c.dibDup
  | 0x10 => pk [(0, c.dibErr.code), (12, c.dibErr.valid.toNat), (13, c.dibErr.ctx % 256), (21, c.dibErr.rank % 512)]
  | 0x14 => BitVec.ofNat 32 c.lastNs
  | _ => 0

/-- DIB_STATUS written: the peak restarts from the slots held now (R304; log 87). -/
def dibStatusW (w : Word) (s : State) : State :=
  modColl (fun c => { c with
    dibPeak := if bitAt w 21 then c.dslots.length else c.dibPeak,
    stepsWrap := c.stepsWrap && !bitAt w 22, ddupWrap := c.ddupWrap && !bitAt w 23 }) s

/-- A Dibber register written (R304). -/
def dibRegW (off : Nat) (w : Word) (s : State) : State :=
  match off with
  | 0x00 => if 1 ≤ fld w 0 14 ∧ fld w 0 14 ≤ 10000 then modColl (fun c => { c with dibLimit := fld w 0 14 }) s else raise 0x34F s
  | 0x04 => dibStatusW w s
  | 0x10 => modColl (fun c => { c with dibErr := { c.dibErr with valid := c.dibErr.valid && !bitAt w 12 } }) s
  | _ => s

end Sys2Proof.Machine
end

