-- ==== Sys2Proof/Machine/Faults.lean ====
section
/-! DEFINITION. The meanings of collector events, fences, peak clears and hung engine resets (R412-R433, R220, R221, R245, R248,
R288, R304). -/

namespace Sys2Proof.Machine

/-- The collector takes the fault that is next in order (R412, R423). -/
def execFaultRaised (s : State) : Host.Outcome State Fault Refusal :=
  run takeNext s

/-- The owner acknowledges one entry (R417). -/
def execFltAck (sv : Nat) (w : Word) (s : State) : Host.Outcome State Fault Refusal :=
  act (fun s => if bitAt w 5 then s else cpWrite sv 0x030004 (fltAckW w) s) s

/-- The owner acknowledges every open entry (R417). -/
def execFltAckAll (sv : Nat) (w : Word) (s : State) : Host.Outcome State Fault Refusal :=
  act (fun s => if bitAt w 5 then cpWrite sv 0x030004 (fltAckW w) s else s) s

/-- FLT_LOST is read and cleared (R419). -/
def execFltLost (sv : Nat) (s : State) : Host.Outcome State Fault Refusal :=
  act (cpRead sv 0x030008 readLost) s

/-- The owner fences a unit (R432). -/
def execFltFence (sv : Nat) (w : Word) (s : State) : Host.Outcome State Fault Refusal :=
  run (cpWrite sv 0x03000C (fltFenceW w)) s

/-- The owner fences Harrow slices (R245). -/
def execHrwSliceFence (sv : Nat) (w : Word) (s : State) : Host.Outcome State Fault Refusal :=
  run (cpWrite sv 0x450104 (sliceFenceW w)) s

/-- The owner fences Sieve units (R288). -/
def execSivFence (sv : Nat) (w : Word) (s : State) : Host.Outcome State Fault Refusal :=
  run (cpWrite sv 0x460004 (sivFenceW w)) s

/-- The owner sets the slot pool's size (R221). -/
def execHrwPoolCfg (sv : Nat) (w : Word) (s : State) : Host.Outcome State Fault Refusal :=
  act (cpWrite sv 0x450000 (poolCfgW w)) s

/-- A write clears a bed's worst laggard (R213, R220). -/
def execHrwLagWorstClear (sv ctx : Nat) (w : Word) (s : State) : Host.Outcome State Fault Refusal :=
  act (fun s => if ctx < 256 then cpWrite sv (0x440000 + 0x80 * ctx + 0x20) (lagClear ctx w) s else s) s

/-- A write clears the pool's peak (R221). -/
def execHrwPoolPeakClr (sv : Nat) (w : Word) (s : State) : Host.Outcome State Fault Refusal :=
  act (fun s => if bitAt w 22 then cpWrite sv 0x450004 (poolStatusW w) s else s) s

/-- A write clears the deep pool's peak (R248). -/
def execHrwDeepPeakClr (sv : Nat) (w : Word) (s : State) : Host.Outcome State Fault Refusal :=
  act (fun s => if bitAt w 24 then cpWrite sv 0x450110 (deepStatusW w) s else s) s

/-- A write clears the dispatch contexts' peak (R288). -/
def execSivDispPeakClr (sv : Nat) (w : Word) (s : State) : Host.Outcome State Fault Refusal :=
  act (fun s => if bitAt w 14 then cpWrite sv 0x460010 (dispStatusW w) s else s) s

/-- A write clears the Dibber slots' peak (R304). -/
def execDibPeakClr (sv : Nat) (w : Word) (s : State) : Host.Outcome State Fault Refusal :=
  act (fun s => if bitAt w 21 then cpWrite sv 0x470004 (dibStatusW w) s else s) s

/-- An engine has not released its work in 1 ms (R430). -/
def execEngineResetTimeout (k : Nat) (s : State) : Host.Outcome State Fault Refusal :=
  run (engineHung k) s

/-- An uncorrectable error in a unit's control state (R432). -/
def execControlStateError (kind unit : Nat) (s : State) : Host.Outcome State Fault Refusal :=
  run (controlError kind unit) s

end Sys2Proof.Machine
end

