-- ==== Sys2Proof/Machine/Forwarding.lean ====
section
/-! DEFINITION. The meanings of forwarding: at a plane, at a forwarding peer and round the board ring (R208, R348, R352,
R353, R357). -/

namespace Sys2Proof.Machine

/-- The plot checks of a port on a packet that it forwards; a forwarding peer leaves out the admission (R353, R368). -/
def forwardChecks (s : State) (l : Nat) (p : Packet) (peer : Bool) : Nat × Nat :=
  let c := plotChecks s l p
  if c.1 = 0x602 ∧ peer then (if p.row && !(getPlot s c.2).priv then (0x603, c.2) else (0, c.2)) else c

/-- A packet for another node stands at the head of its buffer: it is dropped by a plot check, or `k` takes it on. -/
def forwarding (l : Nat) (p : Packet) (peer : Bool) (k : Nat → State → State) (s : State) : State :=
  if decide (l < linkCount s) && atHead s l p && p.dst != selfNode s && !s.flt.safe then
    let c := forwardChecks s l p peer
    if c.1 ≠ 0 then plotDrop l c.1 (if c.1 = 0x601 then none else some c.2) (takePkt l p s)
    else k c.2 s
  else s

/-- The forwarded packet with the header bytes that the forwarder changed: its CRC changes by what those bytes change, so
that a packet received with a wrong CRC goes on with a wrong one (R322, R325; log 74). -/
def resealed (p q : Packet) : Packet := { q with crc := p.crc ^^^ Packet.calcCrc p ^^^ Packet.calcCrc q }

/-- A packet goes on over another link once that link takes it (R331). -/
def passOn (l : Nat) (p : Packet) (out : Nat) (q : Packet) (s : State) : State :=
  if maySendPkt s out q then sendAsIs out (resealed p q) (freshRound out q (takePkt l p s)) else s

/-- A VN1 packet that a plane forwards carries the plane's congestion hint (R357). -/
def stamped (s : State) (p : Packet) : Packet := if p.vn = 1 then { p with hint := hintFor s p.src } else p

/-- A plane forwards a packet to its endpoint, or discards it for a downlink that is down or disabled (R168, R348). -/
def planeForward (l : Nat) (p : Packet) (s : State) : State :=
  if e64 s ∨ 512 ≤ p.dst then s
  else forwarding l p false (fun plot s =>
    if downlinkOk s p.dst then passOn l p p.dst (stamped s p) s
    else note 0x620 (some plot) .port (linkPort s l)
      { takePkt l p s with trl := { s.trl with noRoute := s.trl.noRoute + 1 } }) s

/-- An S512 forwards a packet (R168). -/
def execPacketForward (l : Nat) (p : Packet) (s : State) : Host.Outcome State Fault Refusal :=
  run (planeForward l p) s

/-- A VN2 packet is refused (R353). -/
def refuseVn2 (l : Nat) (p : Packet) (s : State) : State :=
  note 0x611 (plotOfKey s p.key) .port (linkPort s l) (takePkt l p s)

/-- A forwarding peer passes on a packet whose own link has since gone down no further (log 73). -/
def peerPass (l : Nat) (p : Packet) (out : Nat) (q : Packet) (s : State) : State :=
  if linkUp s out then passOn l p out q s else takePkt l p s

/-- A forwarding peer carries a packet up its own uplink, or down over the mesh on VN2 (R352, R353). -/
def peerForward (l : Nat) (p : Packet) (s : State) : State :=
  if !e64 s then s
  else if decide (l < linkCount s) && atHead s l p && vn2Bad s l p && !s.flt.safe then refuseVn2 l p s
  else if p.vn = 2 then
    forwarding l p true (fun _ s =>
      if 512 ≤ p.dst then peerPass l p (uplink (p.dst - 512)) { p with vn := p.pathVn } s else takePkt l p s) s
  else if (p.vn = 3 ∨ p.kind = 0x26 ∨ p.kind = 0x27) ∧ !isMesh s l ∧ sameBoard s p.dst then
    forwarding l p true (fun _ s => peerPass l p (meshLink s (p.dst % 8)) { p with vn := 2, pathVn := p.vn } s) s
  else s

/-- A forwarding peer carries a VN2 packet (R352). -/
def execBoardForward (l : Nat) (p : Packet) (s : State) : Host.Outcome State Fault Refusal :=
  run (peerForward l p) s

/-- An E64 forwards a VN4 packet to the next slot of the board ring (R208). -/
def ringPass (l : Nat) (p : Packet) (s : State) : State :=
  if e64 s ∧ p.vn = 4 ∧ isMesh s l ∧ sameBoard s p.dst then forwarding l p false (fun _ s => passOn l p 0 p s) s else s

/-- An E64 forwards a VN4 packet (R208). -/
def execRingForward (l : Nat) (p : Packet) (s : State) : Host.Outcome State Fault Refusal :=
  run (ringPass l p) s

end Sys2Proof.Machine
end

