-- ==== Sys2Proof/Machine/SunOps.lean ====
section
/-! DEFINITION. The Sundial: depth, partners, exchanges, offsets, slewing and its states (R486-R490, R496). -/

namespace Sys2Proof.Machine

/-- The Sundial changed. -/
def modSun (f : Sun → Sun) (s : State) : State := { s with sun := f s.sun }

/-- The block's Sundial depth (R488). -/
def sunDepth (s : State) : Nat :=
  if e64 s then (if linkUp s (uplink s.sun.source) then 1 else 3) else if selfNode s = 512 + s.sun.source then 0 else 2

/-- What a node last told: depth, and bit 2 when locked. A node that has told nothing counts as locked (log 90). -/
def peerTold (s : State) (n : Nat) : Nat := s.sun.peers.getD n (if n < 512 then 5 else 6)

/-- A node is taken as locked. -/
def peerLocked (s : State) (n : Nat) : Bool := (peerTold s n).testBit 2

/-- The nodes whose replies the block uses (R488, R490): a source plane's only while its first time is sought. -/
def sunPartners (s : State) : List Nat :=
  if e64 s then
    if linkUp s (uplink s.sun.source) then [512 + s.sun.source]
    else (((List.range 32).filter (fun p => linkUp s (uplink p) && peerLocked s (512 + p) && peerTold s (512 + p) % 4 == 2)).take 1).map (512 + ·)
  else if sunDepth s = 0 ∧ !s.sun.mayStep then []
  else (List.range 512).filter (fun e => linkUp s e && peerLocked s e && peerTold s e % 4 == 1)

/-- The partner that SUN_STATUS names: the only one, a plane's lowest, or the source plane (log 90). -/
def sunPartner (s : State) : Nat := (sunPartners s).headD (512 + s.sun.source)

/-- The depth and lock state that a message carries (R489). -/
def sunTells (s : State) : Nat := sunDepth s + (if s.sun.state = .locked then 4 else 0)

/-- The count steps by an offset (R490). -/
def stepSun (ps : Int) (s : State) : State := modSun (fun x => { x with time := (Int.ofNat x.time + ps / 1000).toNat, mayStep := false }) s

/-- The block slews toward its partner inside the discipline range (R487, R490). -/
def slewSun (ps : Int) (s : State) : State :=
  let big := decide (1000000 < ps.natAbs)
  let ppm : Nat := if big then 500 else min 500 (Config.slewPpm s.free)
  takeFree (modSun (fun x => { x with slew := ps * 1000, rate := if ps < 0 then -(Int.ofNat ppm) else Int.ofNat ppm }) s)

/-- An offset counts toward the lock: eight in a row within 3 ns (R490). -/
def countOffset (ps : Int) (s : State) : State :=
  modSun (fun x =>
    let n := if ps.natAbs ≤ 3000 then min 8 (x.good + 1) else 0
    { x with good := n, state := if n = 8 then .locked else x.state }) s

/-- An offset is used (R490). -/
def useOffset (ps : Int) (s : State) : State :=
  let s := modSun (fun x => { x with offsetPs := ps }) s
  if s.sun.state = .free then s
  else if s.sun.mayStep && s.sun.state == .locking && (!s.start.warm || decide (1000000 < ps.natAbs)) then stepSun ps s
  else
    let s := modSun (fun x => { x with mayStep := false }) s
    let far := s.sun.state == .locked && decide (1000000 < ps.natAbs)
    let s := noteIf (far && !s.sun.noted922) 0x922 (modSun (fun x => { x with noted922 := far }) s)
    slewSun ps (if s.pwr.refLock then countOffset ps s else s)

/-- An integer joins a rising list. -/
def insertInt (x : Int) : List Int → List Int
  | [] => [x]
  | y :: r => if x ≤ y then x :: y :: r else y :: insertInt x r

/-- The median, the lower of two middle ones (R490; log 90). -/
def median (xs : List Int) : Int := (xs.foldl (fun a x => insertInt x a) []).getD ((xs.length - 1) / 2) 0

/-- A plane's round of replies ends: the source takes their median as its first time, another plane their mean (R488, R490). -/
def endRound (s : State) : State :=
  let xs := s.sun.replies.map (fun e => e.2)
  let s := modSun (fun x => { x with replies := [] }) s
  if xs.isEmpty then s
  else if sunDepth s = 0 then modSun (fun x => { x with state := .locked }) (stepSun (median xs) s)
  else useOffset (xs.sum / Int.ofNat xs.length) s

/-- The exchange period (R489). -/
def sunPeriod (s : State) : Nat := if s.sun.state = .locking then 10000 else 1000000

/-- The block sends a sync to each partner (R489). -/
def syncTick (s : State) : State :=
  if s.sun.state = .free ∨ !passed s s.sun.lastSync (sunPeriod s) then s
  else
    let s := modSun (fun x => { x with lastSync := s.clk }) (if e64 s then s else endRound s)
    (sunPartners s).foldl (fun s n => sendMgmt n [(16, 1, 0x20), (17, 1, sunTells s)] (supersede n 0x20 0 s)) s

/-- What a Sundial message tells of its sender. -/
def hearSun (p : Packet) (s : State) : State := modSun (fun x => { x with peers := x.peers.set p.src (p.ar 17 1 % 8) }) s

/-- A sync arrives at a time of the own Sundial: it is answered with a sync reply; the mesh carries none (R488, R489). -/
def takeSync (l : Nat) (p : Packet) (t : Nat) (s : State) : State :=
  mgmtArrival l p 0x20 (fun s =>
    if isMesh s l then (2, s)
    else (0, (let s := hearSun p s
              sendMgmt p.src [(16, 1, 0x21), (17, 1, sunTells s), (20, 8, p.ar 20 8), (28, 8, t)] (supersede p.src 0x21 0 s)))) s

/-- The offset of a reply in ps (R489). -/
def replyOffset (p : Packet) (t4 : Nat) : Int :=
  ((Int.ofNat (p.ar 28 8) - Int.ofNat (p.ar 20 8)) - (Int.ofNat t4 - Int.ofNat (p.ar 36 8))) * 500

/-- A sync reply arrives (R489, R490): one of a node that is no partner is discarded. -/
def takeSyncReply (l : Nat) (p : Packet) (t : Nat) (s : State) : State :=
  mgmtArrival l p 0x21 (fun s =>
    if isMesh s l then (2, s)
    else
      let s := hearSun p s
      if !(sunPartners s).contains p.src then (0, s)
      else
        let s := modSun (fun x => { x with lastReply := s.clk }) s
        (0, if e64 s then useOffset (replyOffset p t) s
            else modSun (fun x => { x with replies := x.replies.set p.src (replyOffset p t) }) s)) s

/-- The Sundial enters Holdover (R490). -/
def holdover (s : State) : State :=
  if s.sun.state = .holdover then s
  else raise 0x920 (modSun (fun x => { x with state := .holdover, holdoverEvt := true, good := 0 }) s)

/-- No permitted partner has replied for 10 ms (R490); a source plane has none. -/
def holdoverLate (s : State) : State :=
  if (s.sun.state = .locked ∨ s.sun.state = .locking) ∧ (e64 s ∨ sunDepth s ≠ 0) ∧ inRun s ∧ passed s s.sun.lastReply 10000000
  then holdover s else s

/-- SUN_CFG names another source: the block moves to its new partner (R490). -/
def setSource (n : Nat) (s : State) : State :=
  if n = s.sun.source then s
  else modSun (fun x => { x with source := n, good := 0, replies := [] }) s

/-- Start step 15 begins: the islands are measured and the Sundial looks for its partner (R454, R486, R490). A source plane of a
warm start keeps its count and is locked (log 90). -/
def beginLock (s : State) : State :=
  let s := modSun (fun x => { x with
    isl := (List.range 7).map (fun k => (k, Config.islandOffset k s.free)),
    state := .locking, good := 0, replies := [], mayStep := true, lastReply := s.clk, lastSync := s.clk }) s
  takeFree (if !e64 s && sunDepth s == 0 && s.start.warm then modSun (fun x => { x with state := .locked, mayStep := false }) s else s)

/-- The start goes on to RUN, after which the Sundial never steps (R487, R490). A source plane with no answer starts from its own
count. -/
def endLock (s : State) : State :=
  let s := modSun (fun x => { x with mayStep := false }) s
  if !e64 s && sunDepth s == 0 && s.sun.state == .locking then modSun (fun x => { x with state := .locked }) s else s

/-- One nanosecond of the always-on clock passes on the Sundial: the rate in force, until the slew is done; Holdover keeps its
last rate (R487, R490). -/
def sunTick (x : Sun) : Sun :=
  let d : Int := if x.state = .holdover then x.rate
    else if x.slew = 0 then 0
    else if x.slew.natAbs < x.rate.natAbs then x.slew else x.rate
  let t := 1000000 + x.acc + d
  let left := if x.state = .holdover then x.slew else x.slew - d
  { x with time := x.time + (t / 1000000).toNat, acc := t % 1000000, slew := left,
           rate := if x.state ≠ .holdover ∧ left = 0 then 0 else x.rate }

/-- The states' codes (R496). -/
def SunState.code (x : SunState) : Nat := match x with | .free => 0 | .locking => 1 | .locked => 2 | .holdover => 3

/-- A SUN_ register; SUN_TIME_LO reads without its latch (R496). -/
def sunReg (s : State) (off : Nat) : Word :=
  match off with
  | 0x00 => BitVec.ofNat 32 s.sun.time
  | 0x04 => s.sun.hiLatch
  | 0x08 => BitVec.ofNat 32 s.sun.source
  | 0x0C => pk [(0, s.sun.state.code), (2, sunDepth s), (4, sunPartner s), (14, s.sun.holdoverEvt.toNat)]
  | 0x10 => BitVec.ofInt 32 s.sun.offsetPs
  | _ =>
    let k := (off - 0x20) / 4
    if 0x20 ≤ off ∧ off ≤ 0x3C then (if k = 7 then 0 else (s.sun.isl.getD k (Config.islandOffset k 0)).setWidth 32) else 0

/-- A SUN_ register written (R496). -/
def sunRegW (off : Nat) (w : Word) (s : State) : State :=
  match off with
  | 0x08 => setSource (fld w 0 5) s
  | 0x0C => modSun (fun x => { x with holdoverEvt := x.holdoverEvt && !bitAt w 14 }) s
  | _ => s

/-- SUN_TIME_LO is read: it latches SUN_TIME_HI (R496). -/
def readSunLo (s : State) : Word × State :=
  (BitVec.ofNat 32 s.sun.time, modSun (fun x => { x with hiLatch := BitVec.ofNat 32 (x.time / 2 ^ 32) }) s)

end Sys2Proof.Machine
end

