-- ==== Sys2Proof/Machine/PowerOps.lean ====
section
/-! DEFINITION. Power requests, self-gating, throttling, lock losses, and the PWR_ and CLK_ registers (R504, R508, R509, R517, R518,
R542-R558). -/

namespace Sys2Proof.Machine

/-- The power part changed. -/
def modPwr (f : Pwr → Pwr) (s : State) : State := { s with pwr := f s.pwr }

/-- The links of a lane group. -/
def groupLinks (s : State) (g : Nat) : List Nat := ((groupLanes g).map (laneLink s)).eraseDups

/-- Every lane that the owner switches off has left service and its port's replay buffers are empty (R320, R552). -/
def groupHeld (s : State) (g : Nat) : Bool :=
  (groupLinks s g).all (fun l => !(getLink s l).fallowing) && (groupLanes g).all (fun q => (getLane s q).fallow || noFarLane s q)

/-- A lane group that waits for its ports to be in Fallow is switched off (R320, R552). -/
def laneOffReady (s : State) : State :=
  match s.pwr.busy with
  | some (d, false) =>
    match domKind s d with
    | .lanes g => if (getDom s d).req && (getDom s d).ack && groupHeld s g then lowerReq d s else s
    | _ => s
  | _ => s

/-- R548 lets the owner switch a domain off now; a lane group goes through Fallow first (R552). -/
def offAllowed (s : State) (d : Nat) : Bool :=
  match domKind s d with
  | .lanes g => (groupLinks s g).all (fun l => !routedThrough s l)
  | _ => domIdle s d

/-- The owner switches a domain off (R548, R549, R552). A mailbox go wakes management, whoever switched it off (R404). -/
def ownerOff (d : Nat) (s : State) : State :=
  let mg := d == mgmtDom s
  let s := modDom d (fun x => { x with ownerOff := !mg, selfOff := mg }) (modPwr (fun p => { p with busy := some (d, false) }) s)
  match domKind s d with
  | .lanes g =>
    let s := (groupLinks s g).foldl (fun s l => fallowDown l (modLink l (fun k => { k with fallowing := true }) s)) s
    laneOffReady s
  | _ => lowerReq d s

/-- The owner switches a domain on (R548, R552). -/
def ownerOn (d : Nat) (s : State) : State := raiseReq d (modPwr (fun p => { p with busy := some (d, true) }) s)

/-- PWR_DOM_REQ written (R552, R558). A request for the state that a domain is in changes nothing. -/
def domReqW (w : Word) (s : State) : State :=
  let d := fld w 0 7
  let on := bitAt w 7
  let x := getDom s d
  let take := modPwr (fun p => { p with reqReg := w &&& 0xFF })
  if !bitAt w 8 then take s
  else if domCount s ≤ d ∨ s.glb.cycBusy ∨ s.pwr.busy.isSome ∨ x.req ≠ x.ack then raise 0x820 s
  else if on then (if x.req then take s else ownerOn d (take s))
  else if !x.req then modDom d (fun x => { x with ownerOff := d != mgmtDom s }) (take s)
  else if offAllowed s d then ownerOff d (take s)
  else raise 0x820 s

/-- A domain has been idle for idle_us: Lulen gates it by itself (R548, R553). -/
def selfGate (d : Nat) (s : State) : State :=
  let x := getDom s d
  match gateBit (domKind s d) with
  | none => s
  | some b =>
    if bitAt s.pwr.gateCfg b && decide (d < domCount s) && x.on && x.req && x.ack && !x.isolated && domIdle s d && inRun s
        && !(s.glb.cycBusy && s.glb.cycDomain == d) && passed s x.idleSince (fld s.pwr.gateCfg 8 16 * 1000)
    then lowerReq d (modDom d (fun x => { x with selfOff := true }) s) else s

/-- A domain that is not idle restarts its idle time (R548). -/
def domIdleTick (s : State) : State :=
  (List.range (domCount s)).foldl (fun s d =>
    if (gateBit (domKind s d)).isSome && !domIdle s d && (getDom s d).idleSince != s.clk
    then modDom d (fun x => { x with idleSince := s.clk }) s else s) s

/-- A power handshake is late outside a start: a failed domain power cycle (R509). -/
def ackLate (d : Nat) (s : State) : State :=
  let s := modDom d (fun x => { x with late := true }) (modPwr (fun p => { p with busy := none }) s)
  cycleFailed s

/-- PWR_ACK has not followed PWR_REQ for 1 ms (R509). -/
def ackDue (s : State) (d : Nat) : Bool :=
  let x := getDom s d
  decide (d < domCount s) && x.req != x.ack && !x.late && passed s x.reqSince 1000000

/-- THERM_WARN_N is taken at a level (R508, R556). -/
def thermPin (high : Bool) (s : State) : State :=
  if high then modPwr (fun p => { p with thermLow := false, therm2 := false }) s
  else if s.pwr.thermLow then s
  else
    let s := modPwr (fun p => { p with thermLow := true, thermSince := s.clk }) s
    if s.glb.coldPin then raise 0x810 (modPwr (fun p => { p with thermEvt := true }) s) else s

/-- THERM_WARN_N has been low for longer than therm_limit (R556). -/
def thermLate (s : State) : State :=
  if s.pwr.thermLow && !s.pwr.therm2 && passed s s.pwr.thermSince (s.pwr.thermLimit * 10 ^ 9)
  then raise 0x812 (modPwr (fun p => { p with therm2 := true, thermEvt := true }) s) else s

/-- VDROOP_N is taken at a level (R508, R556). -/
def droopPin (high : Bool) (s : State) : State :=
  if high = !s.pwr.droopLow then s
  else if high then modPwr (fun p => { p with droopLow := false, droopHold := some s.clk }) s
  else
    let s := modPwr (fun p => { p with droopLow := true, droopHold := none }) s
    if s.glb.coldPin then raise 0x811 (modPwr (fun p => { p with droopEvt := true }) s) else s

/-- 1 us after VDROOP_N rose (R556). -/
def droopOver (s : State) : State :=
  match s.pwr.droopHold with
  | some t => if passed s t 1000 then modPwr (fun p => { p with droopHold := none }) s else s
  | none => s

/-- The throttle level in force (R556). -/
def throttle (p : Pwr) : Nat :=
  max p.swLevel (if p.therm2 then 2 else if p.thermLow || p.droopLow || p.droopHold.isSome then 1 else 0)

/-- A start has passed step 1 (R504, R557). -/
def pastLock (s : State) : Bool := s.glb.coldPin && (s.start.state != 0 || decide (1 ≤ s.start.step))

/-- The reference PLL loses lock for 1 us (R504). -/
def refLost (s : State) : State :=
  if s.pwr.refLock && pastLock s then holdover (raise 0x801 (modPwr (fun p => { p with refLock := false }) s)) else s

/-- Core PLL T, B or H (0, 1, 2) loses lock for 1 us (R557). -/
def coreLost (k : Nat) (s : State) : State :=
  let was := match k with | 0 => s.pwr.tLock | 1 => s.pwr.bLock | 2 => s.pwr.hLock | _ => false
  if was && pastLock s then
    raise 0x821 (modPwr (fun p => { p with
      tLock := p.tLock && k != 0, bLock := p.bLock && k != 1, hLock := p.hLock && k != 2, lockEvt := true }) s)
  else s

/-- CP_CLK has been absent for 10 us (R517). -/
def cpClkLost (s : State) : State :=
  if s.pwr.cpClk then raise 0x803 (modPwr (fun p => { p with cpClk := false }) s) else s

/-- A PWR_ or CLK_ register (R558). -/
def pwrReg (s : State) (off : Nat) : Word :=
  let p := s.pwr
  match off with
  | 0x00 | 0x04 | 0x08 =>
    BitVec.ofNat 32 ((List.range 32).foldl (fun m i =>
      let d := 8 * off + i
      if decide (d < domCount s) && (getDom s d).on then m + 2 ^ i else m) 0)
  | 0x0C => p.reqReg ||| pk [(9, p.busy.isSome.toNat)]
  | 0x10 => p.gateCfg
  | 0x14 => pk [(0, p.swLevel), (2, throttle p), (4, p.thermLow.toNat), (5, p.droopLow.toNat), (6, p.thermEvt.toNat),
                (7, p.droopEvt.toNat), (8, p.thermLimit)]
  | 0x18 => p.wakeCnt
  | 0x100 => pk [(0, p.refLock.toNat), (1, p.tLock.toNat), (2, p.bLock.toNat), (3, p.hLock.toNat), (4, p.cpClk.toNat),
                 (5, p.mpClkOk.toNat), (6, p.lockEvt.toNat)]
  | 0x104 => BitVec.ofNat 32 (fld p.laneLock 0 32)
  | 0x108 => BitVec.ofNat 32 (fld p.laneLock 32 32)
  | 0x10C => if e64 s then (Config.mpClkMhz (s.clk / 10000)).setWidth 32 else 0
  | _ => 0

/-- PWR_THROT written (R558). -/
def throtW (w : Word) (s : State) : State :=
  if fld w 0 2 = 3 ∨ fld w 8 8 = 0 then raise 0x822 s
  else modPwr (fun p => { p with swLevel := fld w 0 2, thermLimit := fld w 8 8, thermEvt := p.thermEvt && !bitAt w 6,
                                 droopEvt := p.droopEvt && !bitAt w 7 }) s

/-- A PWR_ or CLK_ register written (R558). -/
def pwrRegW (off : Nat) (w : Word) (s : State) : State :=
  match off with
  | 0x0C => domReqW w s
  | 0x10 => if fld w 8 16 < 10 then raise 0x822 s else modPwr (fun p => { p with gateCfg := w &&& 0x00FFFF3F }) s
  | 0x14 => throtW w s
  | 0x100 => modPwr (fun p => { p with lockEvt := p.lockEvt && !bitAt w 6 }) s
  | _ => s

end Sys2Proof.Machine
end

