-- ==== Sys2Proof/Machine/Lanes.lean ====
section
/-! DEFINITION. The meanings of lane and link events and of writes to their registers (R305-R345, R502, R557). -/

namespace Sys2Proof.Machine

/-- A training frame arrives on a lane (R314). -/
def execTrainingFrame (q : Nat) (ctl : BitVec 96) (s : State) : Host.Outcome State Fault Refusal :=
  run (takeFrame q ctl) s

/-- A step of a lane's training ends (R315). -/
def execTrainingStepDone (q : Nat) (s : State) : Host.Outcome State Fault Refusal :=
  run (stepDone q) s

/-- A step of a lane's training passes its bound (R316). -/
def execTrainingStepTimeout (q : Nat) (s : State) : Host.Outcome State Fault Refusal :=
  run (stepTimeout q) s

/-- DETECT has found no far end for 1 s (R316). -/
def execDetectTimeout (q : Nat) (s : State) : Host.Outcome State Fault Refusal :=
  act (detectTimeout q) s

/-- DETECT is tried again (R316). -/
def execDetectRetry (q : Nat) (s : State) : Host.Outcome State Fault Refusal :=
  act (detectRetry q) s

/-- A codeword arrives on a lane that has superframe lock (R333, R336): in CHECK it counts toward R311. -/
def codewordIn (q : Nat) (cw : Codeword) (s : State) : State :=
  let x := getLane s q
  if decide (q < laneCount s) && (x.inPort || x.tstate == .check) then
    takeCodeword q cw (if x.inPort then s else modLane q (fun x => { x with checkCorr := x.checkCorr + cw.innerCorr }) s)
  else s

/-- A codeword arrives on a lane (R333). -/
def execCodewordReceived (q : Nat) (cw : Codeword) (s : State) : Host.Outcome State Fault Refusal :=
  run (codewordIn q cw) s

/-- A lane's ack wait expires (R334). -/
def execAckWaitExpiry (q : Nat) (s : State) : Host.Outcome State Fault Refusal :=
  run (ackExpired q) s

/-- The corrected-bit ratio over 2^16 codewords is taken (R335). -/
def execCorrectedRatioWindow (q corrected : Nat) (s : State) : Host.Outcome State Fault Refusal :=
  act (ratioWindow q corrected) s

/-- A direction has been idle for quiet_idle (R319). -/
def execQuietIdleExpiry (l : Nat) (s : State) : Host.Outcome State Fault Refusal :=
  run (enterQuiet l) s

/-- A Quiet direction refreshes (R318). -/
def execQuietRefresh (l : Nat) (s : State) : Host.Outcome State Fault Refusal :=
  act (refreshQuiet l) s

/-- A write of PRT_LINK_CFG sets or clears fallow (R320). -/
def execFallow (sv : Nat) (addr : BitVec 24) (w : Word) (s : State) : Host.Outcome State Fault Refusal :=
  run (fun s => if isLinkCfg addr.toNat then cpWrite sv addr.toNat (fun s => laneOffReady (linkCfgAt addr.toNat w s)) s else s) s

/-- A port that enters Fallow powers down (R320). -/
def execFallowPowerDown (l : Nat) (s : State) : Host.Outcome State Fault Refusal :=
  run (fun s => laneOffReady (fallowDown l s)) s

/-- The offset of a lane's register (R343). -/
def lanAddr (q off : Nat) : Nat := 0x200000 + 0x40 * q + off

/-- A write of LAN_CTL with retrain set (R315). -/
def execLanCtlRetrain (sv q : Nat) (w : Word) (s : State) : Host.Outcome State Fault Refusal :=
  run (fun s => if bitAt w 5 then cpWrite sv (lanAddr q 0) (lanCtl q w) s else s) s

/-- A write of PRT_LINK_CFG with retrain set (R343). -/
def execPrtLinkCfgRetrain (sv : Nat) (addr : BitVec 24) (w : Word) (s : State) : Host.Outcome State Fault Refusal :=
  run (fun s => if isLinkCfg addr.toNat && bitAt w 22 then cpWrite sv addr.toNat (linkCfgAt addr.toNat w) s else s) s

/-- A write of LAN_CTL for its test field (R340). -/
def execLanCtlTest (sv q : Nat) (w : Word) (s : State) : Host.Outcome State Fault Refusal :=
  run (cpWrite sv (lanAddr q 0) (lanCtl q w)) s

/-- A write of LAN_CTL for hold_down (R343). -/
def execHoldDown (sv q : Nat) (w : Word) (s : State) : Host.Outcome State Fault Refusal :=
  run (cpWrite sv (lanAddr q 0) (lanCtl q w)) s

/-- A write of LAN_ESCAN_CTL with start set (R339). -/
def execEscanStart (sv g : Nat) (w : Word) (s : State) : Host.Outcome State Fault Refusal :=
  act (fun s => if bitAt w 25 then cpWrite sv (0x2C0000 + 0x40 * g) (escanCtl g w) s else s) s

/-- An eye scan ends (R339). -/
def execEscanDone (g n : Nat) (s : State) : Host.Outcome State Fault Refusal :=
  act (scanDone g n) s

/-- A write of LAN_INJ with once set (R341). -/
def execLanInjOnce (sv q : Nat) (w : Word) (s : State) : Host.Outcome State Fault Refusal :=
  act (fun s => if bitAt w 8 then cpWrite sv (lanAddr q 0x28) (lanInj q w) s else s) s

/-- A lane's injection interval comes round (R341). -/
def execInjectionInterval (q : Nat) (s : State) : Host.Outcome State Fault Refusal :=
  act (injectOne q) s

/-- LN_PGOOD of a group is taken at a level (R502). -/
def execLnPgood (g : Nat) (level : Bool) (s : State) : Host.Outcome State Fault Refusal :=
  run (lanePower g level) s

/-- A lane group's PLL loses lock (R557). -/
def execLanePllLockLoss (g : Nat) (s : State) : Host.Outcome State Fault Refusal :=
  run (laneLockLost g) s

end Sys2Proof.Machine
end

