-- ==== Sys2Proof/Machine/ObsRegs.lean ====
section
/-! DEFINITION. The MRL_, CNT_ and DBG_ registers, the Silt window and the trace ring window (R473, R475, R478, R482-R485,
R491-R494, R496). -/

namespace Sys2Proof.Machine

/-- Silt rings, dump area and counters changed. -/
def modObs (f : Obs → Obs) (s : State) : State := { s with obs := f s.obs }

/-- MRL_STATUS (R496). -/
def mrlStatus (m : Marl) : Word :=
  pk [(0, min 64 m.fullUsed), (7, m.flood.toNat), (8, m.cur.isSome.toNat), (9, min 127 m.queue.length), (16, m.faultQFull.toNat),
      (17, m.logDropFlag.toNat)]

/-- An MRL_ register (R496). -/
def mrlReg (s : State) (off : Nat) : Word :=
  match off with
  | 0x00 => mrlStatus s.mrl
  | 0x08 => s.mrl.seq
  | 0x0C => s.mrl.corr
  | 0x10 => BitVec.ofNat 32 s.mrl.uncorr
  | 0x14 => BitVec.ofNat 32 s.mrl.logDrop
  | 0x18 => s.mrl.wrapFlag.setWidth 32
  | _ => 0

/-- An MRL_ register written (R473, R496). -/
def mrlRegW (off : Nat) (w : Word) (s : State) : State :=
  match off with
  | 0x00 => modMrl (fun m => { m with faultQFull := m.faultQFull && !bitAt w 16, logDropFlag := m.logDropFlag && !bitAt w 17 }) s
  | 0x04 => if bitAt w 0 then rearmFlood s else s
  | 0x18 => modMrl (fun m => { m with wrapFlag := m.wrapFlag &&& ~~~(w.setWidth 4) }) s
  | _ => s

/-- The units of a counter source of the build; none for a source that the build lacks (R491). -/
def srcUnits (s : State) (src : Nat) : Option Nat :=
  match src with
  | 0 => some 1023
  | 0x01 | 0x02 | 0x03 => some (portCount s)
  | 0x04 => some 256
  | 0x05 | 0x06 => some (furrowCount s)
  | 0x07 | 0x08 => some (if e64 s then 1 else 8)
  | 0x09 => some (if e64 s then 1 else 4)
  | 0x0A | 0x0B => if e64 s then some 16 else none
  | 0x0C | 0x0D => if e64 s then some 256 else none
  | _ => none

/-- A CNT_SEL value is allowed: its source exists, and its unit and the furrow of command mode are there (R491). -/
def cntSelOk (s : State) (w : Word) : Bool :=
  match srcUnits s (fld w 0 5) with
  | some n => (fld w 5 10 == 0x3FF || decide (fld w 5 10 < n)) && decide (fld w 16 8 < furrowCount s)
  | none => false

/-- A utilisation counter. -/
def getCnt (s : State) (k : Nat) : Cnt := s.obs.cnt.at k
/-- A utilisation counter changed. -/
def modCnt (k : Nat) (f : Cnt → Cnt) (s : State) : State := modObs (fun o => { o with cnt := o.cnt.mod k f }) s

/-- A register of a counter window; CNT_LO reads without its latch (R496). -/
def cntWin (c : Cnt) (off : Nat) : Word :=
  match off with
  | 0x00 => c.sel
  | 0x04 => BitVec.ofNat 32 c.count
  | 0x08 => pk [(0, c.hiLatch % 65536), (16, c.ovf.toNat)]
  | 0x0C => BitVec.ofNat 32 c.tagLatch
  | 0x10 => BitVec.ofNat 32 c.snap
  | 0x14 => BitVec.ofNat 32 (c.snap / 2 ^ 32)
  | 0x18 => BitVec.ofNat 32 c.snapTag
  | _ => 0

/-- A CNT_ register (R493, R496). -/
def cntReg (s : State) (off : Nat) : Word :=
  match off with
  | 0x008 => BitVec.ofNat 32 s.obs.snapTime
  | 0x00C => BitVec.ofNat 32 (s.obs.snapTime / 2 ^ 32)
  | _ => if 0x100 ≤ off then cntWin (getCnt s ((off - 0x100) / 0x20)) (off % 0x20) else 0

/-- CNT_LO is read: it latches CNT_HI and CNT_TAG (R492). -/
def readCntLo (k : Nat) (s : State) : Word × State :=
  (BitVec.ofNat 32 (getCnt s k).count, modCnt k (fun c => { c with hiLatch := c.count / 2 ^ 32, tagLatch := c.tag }) s)

/-- CNT_CTL written: every counter is snapped, or cleared, or first snapped and then cleared (R493, R496). -/
def cntCtlW (w : Word) (s : State) : State :=
  let s := if bitAt w 0 then
      modObs (fun o => { o with snapTime := s.sun.time, cnt := o.cnt.mapVals (fun _ c => { c with snap := c.count, snapTag := c.tag }) }) s
    else s
  if bitAt w 1 then modObs (fun o => { o with cnt := o.cnt.mapVals (fun _ c => { c with count := 0, tag := 0, ovf := false }) }) s else s

/-- A CNT_ register written (R491, R496). -/
def cntRegW (off : Nat) (w : Word) (s : State) : State :=
  if off = 0 then cntCtlW w s
  else if off < 0x100 then s
  else
    let k := (off - 0x100) / 0x20
    match off % 0x20 with
    | 0x00 => if cntSelOk s w then modCnt k (fun c => { c with sel := w &&& 0x1FFFFFF }) s else raise 0x9F0 s
    | 0x08 => modCnt k (fun c => { c with ovf := c.ovf && !bitAt w 16 }) s
    | _ => s

/-- The ring that DBG_SILT_SEL selects. -/
def selRing (s : State) : Ring := s.obs.rings.at (siltKey (fld s.obs.siltSel 0 3) (fld s.obs.siltSel 3 8))

/-- A DBG_ register (R496). -/
def dbgReg (s : State) (off : Nat) : Word :=
  let o := s.obs
  match off with
  | 0x00 => pk [(1, (decide (0 < s.mrl.dumpLeft)).toNat), (2, s.mrl.dumpMissed)]
  | 0x04 => o.siltSel
  | 0x08 => (selRing s).count
  | 0x0C => BitVec.ofNat 32 (selRing s).lost
  | 0x10 => o.trcCtl
  | 0x14 => o.trcProd
  | 0x18 => BitVec.ofNat 32 o.trcLost
  | 0x20 => BitVec.ofNat 32 o.dumpBase
  | 0x24 => BitVec.ofNat 32 (o.dumpBase / 2 ^ 32)
  | 0x28 => BitVec.ofNat 32 o.dumpSize
  | 0x2C => BitVec.ofNat 32 o.dumpHead
  | 0x30 => BitVec.ofNat 32 o.dumpTail
  | 0x34 => BitVec.ofNat 32 o.dumpLost
  | _ => 0

/-- DBG_CTL written: dump_missed is cleared, and a crash dump is taken (R475, R496). -/
def dbgCtlW (w : Word) (s : State) : State :=
  let s := if bitAt w 10 then modMrl (fun m => { m with dumpMissed := 0 }) s else s
  if bitAt w 0 then takeDump 0 s else s

/-- DBG_SILT_SEL written: another ring is selected and freezes or not (R482, R496). -/
def siltSelW (w : Word) (s : State) : State :=
  if (siltUnits s).contains (fld w 0 3, fld w 3 8) then
    modObs (fun o => { o with siltSel := w &&& 0x17FF, frozenSince := s.clk }) s
  else raise 0x9F0 s

/-- A ring has been frozen for 10 ms (R482). -/
def siltThaw (s : State) : State :=
  if bitAt s.obs.siltSel 12 && passed s s.obs.frozenSince 10000000 then modObs (fun o => { o with siltSel := o.siltSel &&& 0x7FF }) s else s

/-- A DUMP is outstanding at the block (R496). -/
def dumpOut (s : State) : Bool := s.obs.dumpPend.any (fun e => !e.done)

/-- The dump area's base or size written: not while a DUMP is outstanding (R496). -/
def dumpAreaW (f : Obs → Obs) (s : State) : State := if dumpOut s then raise 0x9F0 s else modObs f s

/-- A DBG_ register written (R496). -/
def dbgRegW (off : Nat) (w : Word) (s : State) : State :=
  match off with
  | 0x00 => dbgCtlW w s
  | 0x04 => siltSelW w s
  | 0x10 => pumpTrace (modObs (fun o => { o with trcCtl := w &&& 3 }) s)
  | 0x20 => dumpAreaW (fun o => { o with dumpBase := o.dumpBase / 2 ^ 32 * 2 ^ 32 + fld w 12 20 * 4096 }) s
  | 0x24 => dumpAreaW (fun o => { o with dumpBase := fld w 0 15 * 2 ^ 32 + o.dumpBase % 2 ^ 32 }) s
  | 0x28 => dumpAreaW (fun o => { o with dumpSize := fld w 12 20 * 4096 }) s
  | 0x2C =>
    let h := fld w 7 25 * 128
    if h < s.obs.dumpSize then modObs (fun o => { o with dumpHead := h }) s else raise 0x9F0 s
  | _ => s

/-- A word of the Silt window (R482, R496). -/
def siltWin (s : State) (off : Nat) : Word :=
  BitVec.ofNat 32 (((selRing s).ev.getD (off / 16) 0).toNat >>> (8 * (off % 16)))

/-- A word of the trace ring window (R483, R496). -/
def trcWin (s : State) (off : Nat) : Word :=
  BitVec.ofNat 32 ((s.obs.trc.getD (off / 32) 0).toNat >>> (8 * (off % 32)))

end Sys2Proof.Machine
end

