-- ==== Sys2Proof/Machine/PlotOps.lean ====
section
/-! DEFINITION. Plots, their teardown and reset, ownership, heartbeats, handover and the event queue (R379-R401, R409, R410,
R424). -/

namespace Sys2Proof.Machine

/-- A plot action or write that the plot's state refuses. -/
def refusePlot (code p : Nat) (s : State) : State := note code (some p) .block 0 s

/-- Two tally ranges meet. -/
def rangesMeet (a n b m : Nat) : Bool := decide (0 < n ∧ 0 < m ∧ a < b + m ∧ b < a + n)

/-- The other plots that are in use. -/
def otherPlots (s : State) (p : Nat) : List Plot :=
  (s.plots.filter (fun e => e.1 != p && e.2.state != .free)).map (fun e => e.2)

/-- Why an open is refused: zero, or the first code (R381). -/
def openFault (s : State) (p : Nat) : Nat :=
  let x := getPlot s p
  let os := otherPlots s p
  firstFail [
    (x.state != .free, 0x663),
    (x.key == 0 || os.any (fun o => o.key == x.key), 0x664),
    (decide (65536 < x.tallyBase + x.tallyQuota) || os.any (fun o => rangesMeet x.tallyBase x.tallyQuota o.tallyBase o.tallyQuota), 0x665)]

/-- GLB_PLOT_CTL.open (R381, R382). -/
def openPlot (p : Nat) (s : State) : State :=
  let code := openFault s p
  if code ≠ 0 then refusePlot code p s
  else modPlot p (fun x => { x with state := .active, priv := p == 0 || s.start.privKeys.contains x.key }) s

/-- Steps 1 and 2 of a teardown or a plot reset (R386, R390). -/
def drainPlot (p : Nat) (byReset : Bool) (s : State) : State :=
  let x := getPlot s p
  if p = 0 ∨ x.state ≠ .active then refusePlot 0x663 p s
  else
    let s := modPlot p (fun x => { x with state := .draining, gen := (x.gen + 1) % 16, acct := 0, since := s.clk,
                                          byReset := byReset, bound := false, hung := false }) s
    let s := (plotFurrows s p).foldl (fun s f => if (getFur s f).resetting.isSome then s else furReset f s) s
    let s := ((openBeds s).filter (fun c => (getBed s c).plot == p)).foldl (fun s c => closeBed c s) s
    if e64 s then invPlotLines p s else s

/-- Memory-port accesses of a plot that are outstanding (R386, R409). -/
def plotAccesses (s : State) (p : Nat) : Nat :=
  (s.mp.ports.map (fun e => (e.2.tags.filter (fun t => t.2.acc.plot == p)).length + (e.2.queue.filter (fun a => a.plot == p)).length)).sum

/-- The reservations of R161 that are held for a plot. -/
def plotReserved (s : State) (p : Nat) : List (Nat × Rq) :=
  s.xfer.rqs.filter (fun e => e.2.sent && e.2.isReq && e.2.plot == p && (decide (0 < e.2.reply) || e.2.ack))

/-- The reservations of a plot are freed; what is still live behind one ends as failed (R388, R389). -/
def freeReserved (p : Nat) (s : State) : State := (plotReserved s p).foldl (fun s e => endRq e.1 e.2 (some 0x220) false s) s

/-- A plot's drain bound passes (R389, R424). -/
def drainBound (p : Nat) (s : State) : State :=
  let x := getPlot s p
  if !(x.state == .draining) || x.bound || !passed s x.since (x.drain * 1000) then s
  else
    let s := modPlot p (fun x => { x with bound := true }) s
    let s := if (plotReserved s p).isEmpty then s else freeReserved p (note 0x660 (some p) .block 0 s)
    if 0 < plotAccesses s p then raiseEv { code := 0x661, level := .l2, plot := some p } s else s

/-- The tallies of a plot are zeroed (R386). -/
def zeroTallies (p : Nat) (s : State) : State :=
  let x := getPlot s p
  { s with tally := s.tally.filter (fun e => !decide (x.tallyBase ≤ e.1 ∧ e.1 < x.tallyBase + x.tallyQuota)) }

/-- The final step of a teardown or plot reset (R386, R390, R412, R420, R424). -/
def drainComplete (p : Nat) (s : State) : State :=
  let x := getPlot s p
  if x.state == .draining && x.bound && plotAccesses s p == 0 then
    let s := zeroTallies p (freeReserved p s)
    let s := modPlot p (fun x => { x with state := if x.byReset then .active else .free, byReset := false, bound := false, hung := false }) s
    clearCauses (fun e => e.level == .l2 && e.plot == some p) (modFlt (fun f => { f with plotFault := setBit f.plotFault p false }) s)
  else s

/-- Accesses are still outstanding 100 ms after the drain bound (R424). -/
def drainHang (p : Nat) (s : State) : State :=
  let x := getPlot s p
  if x.state == .draining && x.bound && !x.hung && decide (0 < plotAccesses s p) && passed s x.since (x.drain * 1000 + 100000000) then
    raiseEv { code := 0x662, level := .l3, plot := some p } (modPlot p (fun x => { x with hung := true }) s)
  else s

/-- GLB_PLOT_CTL written: the first set bit in the order teardown, reset, open acts (R409). -/
def plotCtlW (p : Nat) (w : Word) (s : State) : State :=
  if bitAt w 1 then drainPlot p false s
  else if bitAt w 2 then drainPlot p true s
  else if bitAt w 0 then openPlot p s
  else s

/-- A field of a FREE plot written (R381). -/
def freePlotW (p : Nat) (f : Plot → Plot) (s : State) : State :=
  if (getPlot s p).state = .free then modPlot p f s else refusePlot 0x663 p s

/-- A plot window's register written (R409). -/
def plotRegW (p off : Nat) (w : Word) (s : State) : State :=
  match off with
  | 0x00 => freePlotW p (fun x => { x with key := fld w 0 12, gen := fld w 12 4 }) s
  | 0x04 => plotCtlW p w s
  | 0x08 => freePlotW p (fun x => { x with tallyBase := fld w 0 16, tallyQuota := fld w 16 16 }) s
  | 0x0C =>
    if (getPlot s p).state = .free ∧ (1024 < fld w 0 11 ∨ 256 < fld w 11 9) then refusePlot 0x665 p s
    else freePlotW p (fun x => { x with bedQuota := fld w 0 11, furQuota := fld w 11 9 }) s
  | 0x10 =>
    if (getPlot s p).state = .draining then refusePlot 0x663 p s
    else if fld w 0 17 < 100 ∨ 100000 < fld w 0 17 then refusePlot 0x665 p s
    else modPlot p (fun x => { x with drain := fld w 0 17 }) s
  | _ => s

/-- The number of a plot state (R409). -/
def PlotState.code (x : PlotState) : Nat := match x with | .free => 0 | .active => 1 | .draining => 2

/-- A plot window's register (R409). -/
def plotReg (s : State) (p off : Nat) : Word :=
  let x := getPlot s p
  match off with
  | 0x00 => pk [(0, x.key), (12, x.gen), (16, x.priv.toNat), (17, x.state.code)]
  | 0x08 => pk [(0, x.tallyBase), (16, x.tallyQuota)]
  | 0x0C => pk [(0, x.bedQuota), (11, x.furQuota)]
  | 0x10 => BitVec.ofNat 32 x.drain
  | 0x14 => x.acct
  | 0x18 => pk [(0, min 65535 (plotAccesses s p)), (16, min 65535 (plotReserved s p).length)]
  | _ => 0

/-- Supervisors changed. -/
def modSup (f : Sup → Sup) (s : State) : State := { s with sup := f s.sup }

/-- A bit of SUP_EVENTS is set. -/
def supEvent (i : Nat) (s : State) : State := modSup (fun x => { x with events := setBit x.events i true }) s

/-- A supervisor becomes the owner, and its heartbeat interval begins (R395-R397). -/
def takeOwnership (sv : Nat) (s : State) : State :=
  modSup (fun x => { x with owner := some sv, target := none, hbSince := s.clk, hbRun := x.hbLimit }) s

/-- SUP_CLAIM.release (R395, R398). -/
def supRelease (sv : Nat) (s : State) : State :=
  if s.sup.owner = some sv then modSup (fun x => { x with owner := none, target := none }) s else denied sv s

/-- SUP_CLAIM.accept (R397). -/
def supAccept (sv : Nat) (s : State) : State :=
  if s.sup.target = some sv ∧ s.clk ≤ s.sup.hoSince + 100000000 then supEvent 2 (takeOwnership sv s) else denied sv s

/-- SUP_CLAIM.handover (R397). -/
def supHandover (sv dst : Nat) (s : State) : State :=
  if s.sup.owner ≠ some sv then denied sv s
  else if dst = sv ∨ s.sup.target.isSome then raise 0x674 s
  else modSup (fun x => { x with target := some dst, hoSince := s.clk }) s

/-- SUP_CLAIM.claim (R395). -/
def supClaim (sv : Nat) (s : State) : State := if s.sup.owner.isNone then takeOwnership sv s else raise 0x670 s

/-- SUP_CLAIM written: the first set bit in the order release, accept, handover, claim acts (R410). -/
def supClaimW (sv : Nat) (w : Word) (s : State) : State :=
  if bitAt w 1 then supRelease sv s
  else if bitAt w 2 then supAccept sv s
  else if bitAt w 3 then supHandover sv (fld w 4 2) s
  else if bitAt w 0 then supClaim sv s
  else s

/-- A pending handover passes its 100 ms (R397). -/
def handoverLate (s : State) : State :=
  if s.sup.target.isSome && passed s s.sup.hoSince 100000000 then
    raise 0x673 (supEvent 1 (modSup (fun x => { x with target := none }) s))
  else s

/-- The owner's heartbeat (R396). -/
def heartbeat (s : State) : State := modSup (fun x => { x with hbSince := s.clk, hbRun := x.hbLimit }) s

/-- An interval passes without a heartbeat: ownership vacates, and a pending handover with it (R396, R398; log 88). A start
restarts the interval when it ends (R399). -/
def heartbeatLate (s : State) : State :=
  if s.sup.owner.isSome && !s.start.running && passed s s.sup.hbSince (s.sup.hbRun * 1000000) then
    raise 0x672 (supEvent 0 (modSup (fun x => { x with owner := none, target := none }) s))
  else s

/-- SUP_EVQ read: the head, which the owner's read pops (R401). -/
def readEvq (sv : Nat) (s : State) : Word × State :=
  (s.sup.evq.headD 0, if s.sup.owner = some sv then modSup (fun x => { x with evq := x.evq.tail }) s else s)

/-- A supervisor register, as SVi reads it (R410). -/
def supReg (s : State) (sv off : Nat) : Word :=
  let x := s.sup
  match off with
  | 0x00 => pk [(0, x.owner.getD 7), (3, x.target.isSome.toNat), (4, x.target.getD 0), (6, sv % 4)]
  | 0x0C => BitVec.ofNat 32 x.hbLimit
  | 0x10 => pk ((List.range 4).map (fun i => (8 * i, x.denied.at i)))
  | 0x14 => x.events.setWidth 32
  | 0x18 => x.evq.headD 0
  | 0x1C => pk [(0, x.evq.length), (7, x.dropped)]
  | _ => 0

/-- A supervisor register written (R410). -/
def supRegW (sv off : Nat) (w : Word) (s : State) : State :=
  match off with
  | 0x04 => supClaimW sv w s
  | 0x08 => heartbeat s
  | 0x0C =>
    if 100 ≤ fld w 0 16 ∧ fld w 0 16 ≤ 60000 then modSup (fun x => { x with hbLimit := fld w 0 16 }) s else raise 0x674 s
  | 0x14 => modSup (fun x => { x with
      events := x.events &&& ~~~(w.setWidth 5),
      dropped := if bitAt w 4 && bitAt x.events 4 then 0 else x.dropped }) s
  | _ => s

end Sys2Proof.Machine
end

