-- ==== Sys2Proof/Machine/ResetOps.lean ====
section
/-! DEFINITION. Block resets: requests, the reset record, what a warm and a cold reset keep, power, and the reset registers
(R2, R425-R428, R431, R447, R454, R456, R460, R505, R506, R533, R565). -/

namespace Sys2Proof.Machine

/-- The reset part changed. -/
def modGlb (f : Glb → Glb) (s : State) : State := { s with glb := f s.glb }

/-- The start part changed. -/
def modStart (f : Start → Start) (s : State) : State := { s with start := f s.start }

/-- The code of the highest open fault, the lowest entry first; zero for none (R427, R447). -/
def highestOpen (s : State) : Nat :=
  match s.flt.entries.foldl (fun (m : Option FltEntry) e =>
    match m with
    | none => some e.2
    | some x => if x.level.code < e.2.level.code then some e.2 else some x) none with
  | some e => e.code
  | none => 0

/-- An open step with the time since which it is open joins a list, oldest first. -/
def insertStep (x : Nat × OpenStep) : List (Nat × OpenStep) → List (Nat × OpenStep)
  | [] => [x]
  | y :: r => if x.1 < y.1 then x :: y :: r else y :: insertStep x r

/-- The oldest open chunk of a step: the least of its slots here, else the step's first. -/
def oldestChunk (s : State) (ctx num first : Nat) : Nat :=
  match (s.coll.slots.filter (fun e => e.2.ctx == ctx && e.2.step == num)).map (fun e => e.2.chunk) with
  | [] => first
  | c :: r => r.foldl min c

/-- The steps of a bed that are open at the block, with their times. -/
def bedSteps (s : State) (ctx : Nat) (b : Bed) : List (Nat × OpenStep) :=
  let mk := fun (t num c : Nat) => (t, ({ bed := b.desc.bed, gen := b.desc.gen, step := num, chunk := c } : OpenStep))
  let own := b.steps.map (fun x => mk x.since x.num (oldestChunk s ctx x.num x.c0))
  let dib := b.dsteps.map (fun x => mk x.since x.num 0)
  let served := ((s.coll.slots.filter (fun e => e.2.ctx == ctx && !(b.steps.any (fun x => x.num == e.2.step)))).map
    (fun e => mk (e.2.first.getD e.2.since) e.2.step (oldestChunk s ctx e.2.step e.2.chunk)))
  own ++ served.eraseDups ++ dib

/-- Up to 16 bed steps open at the block, oldest first (R427). -/
def openSteps (s : State) : List OpenStep :=
  let all := (s.coll.beds.filter (fun e => e.2.isOpen)).flatMap (fun e => bedSteps s e.1 e.2)
  ((all.foldl (fun a x => insertStep x a) []).map (fun x => x.2)).take 16

/-- The reset record joins the Marl's queue (R427, R471). -/
def resetRecord (cause code : Nat) (s : State) : State :=
  queueRec { kind := 4, time := 0, code := code, body := .reset cause code (openSteps s) } s

/-- A port at stage 1 of a warm reset: requests taken and not acted on are answered in error with 0x242 (R533). -/
def stopPorts (s : State) : State :=
  let held := s.rlc.iqHeld
  let s := held.foldl (fun s x => iqRefuse x.1 x.2 0x242 s) { s with rlc := { s.rlc with iqHeld := [] } }
  let waiting := s.rlc.acc.filter (fun a => a.2.state == .held)
  waiting.foldl (fun s a => iqRefuse a.2.port a.2.beat 0x242 (dropAcc a.1 s)) s

/-- A block reset is requested (R427, R431, R456, R465): stage 1 and 2. A warm request is refused in the Safe state, and runs as a
cold start when the last start did not reach RUN. -/
def requestReset (k : ResetKind) (cause : Nat) (s : State) : State :=
  if k = .warm ∧ s.flt.safe then raise 0xF20 s
  else
    let k := if inRun s || s.flt.safe then k else .cold
    match s.glb.req with
    | some r => if k = .cold ∧ r.kind = .warm then modGlb (fun g => { g with req := some { r with kind := .cold, cause := cause } }) s else s
    | none =>
      let code := highestOpen s
      let r : ResetReq := { kind := k, cause := cause, openCode := code, fromL3 := s.flt.l3, fromSafe := s.flt.safe, since := s.clk }
      let s := modStart (fun x => { x with running := false }) (modGlb (fun g => { g with req := some r, stopped := true }) s)
      resetRecord cause code (if k = .warm then stopPorts s else s)

/-- The reset record waits or is being written. -/
def resetQueued (s : State) : Bool :=
  s.mrl.queue.any (fun r => r.kind == 4) || (match s.mrl.cur with | some c => c.record.kind == 4 | none => false)

/-- Some memory port still waits for an OR beat (R533). -/
def tagsOut (s : State) : Bool := e64 s && s.mp.ports.any (fun e => !e.2.tags.isEmpty || !e.2.queue.isEmpty)

/-- A requested reset may act: its record is committed, or 200 us have passed; a warm one also waits for the memory ports, up to
resp_limit (R427, R533). -/
def resetReady (s : State) (r : ResetReq) : Bool :=
  (!resetQueued s || passed s r.since 200000)
    && (r.kind == .cold || !(tagsOut s || (e64 s && !s.rlc.acc.isEmpty)) || passed s r.since (fld s.mp.cfg 1 15 * 1000))

/-- Every access of a core that is still unanswered draws the error response (R533). -/
def answerLeft (s : State) : State :=
  s.rlc.acc.foldl (fun s a => iqRefuse a.2.port a.2.beat 0x242 (dropAcc a.1 s)) s

/-- What the Marl keeps in a reset: the store, the record area and its rings; a commit in progress is rolled back (R426, R470, R475).
`keep` says which waiting records survive. -/
def marlAfter (keep : MarlRec → Bool) (m : Marl) : Marl :=
  { store := { m.store with partialObj := [], partialKind := 0 }, slots := m.slots, nextFault := m.nextFault, nextDump := m.nextDump,
    nextLog := m.nextLog, nextTrace := m.nextTrace, seq := m.seq, dumpNo := m.dumpNo, dumpHalf := m.dumpHalf, dumps := m.dumps,
    queue := m.queue.filter keep }

/-- A plot after a warm reset (R391, R424). -/
def plotWarm (p : Plot) : Plot :=
  let p := { p with bound := false, hung := false, since := 0 }
  if p.state = .draining then { p with state := if p.byReset then .active else .free, byReset := false } else p

/-- A lane after a warm reset: coefficients and the fields whose Warm column reads kept (R343, R426). -/
def laneWarm (x : Lane) : Lane :=
  { ctl := x.ctl &&& 0x18, pre := x.pre, post := x.post, swing := x.swing, stored := x.stored, coef := x.coef, fallow := true }

/-- A link after a warm reset (R343). -/
def linkWarm (k : Link) : Link := { cfg := k.cfg &&& 0x3FFFFF }

/-- A domain after a warm reset: it is left as it is powered, and an interrupted cycle goes on without a fault (R431, R455). -/
def domWarm (cycled : Bool) (x : Dom) : Dom :=
  if cycled && !x.req then { x with noted805 := false, wakeWait := true } else { x with noted805 := false, wakeWait := x.wakeWait }

/-- Memory ports with no state, and down (R533). -/
def portsDown (s : State) : Tbl MPort :=
  (List.range (if e64 s then 16 else 0)).map (fun p => (p, { up := false, upSince := s.clk }))

/-- The start part as a start begins (R454, R455, R467): a warm start begins at step 2. -/
def startBegun (s : State) (warm go : Bool) : Start :=
  { s.start with state := 0, step := if warm then 1 else 0, warm := warm, trellisLoaded := false, holdCode := 0, timeUs := 0, ver := 0,
                 running := go, since := s.clk, stepSince := s.clk, identity := [], wake := 0 }

/-- Power after a warm reset (R558): domains and pins stay, and so do the fields that are kept. -/
def pwrWarm (s : State) : Pwr :=
  { doms := s.pwr.doms.mapVals (fun d x => domWarm (s.glb.cycBusy && s.glb.cycDomain == d) x),
    gateCfg := s.pwr.gateCfg, swLevel := s.pwr.swLevel, thermLimit := s.pwr.thermLimit, thermLow := s.pwr.thermLow,
    thermSince := s.pwr.thermSince, therm2 := s.pwr.therm2, droopLow := s.pwr.droopLow, droopHold := s.pwr.droopHold,
    cpClk := s.pwr.cpClk, mpClkOk := e64 s, lnPgood := s.pwr.lnPgood }

/-- The collector after a warm reset: fences stay, every entry is closed (R426, R448). -/
def fltWarm (x : Flt) : Flt :=
  { inflight := x.inflight, fencedPrt := x.fencedPrt, fencedXfr := x.fencedXfr, fencedFur := x.fencedFur, fencedBank := x.fencedBank }

/-- Rings, dump area and counters after a warm reset (R482, R496). -/
def obsWarm (o : Obs) : Obs :=
  { rings := o.rings, trcCtl := o.trcCtl, trc := o.trc, dumpBase := o.dumpBase, dumpSize := o.dumpSize,
    cnt := o.cnt.mapVals (fun _ c => { sel := c.sel }) }

/-- A warm reset acts: what R426 and the Warm columns keep, and everything else as at reset (R426, R427, R455). -/
def actWarm (r : ResetReq) (s : State) : State :=
  let s := answerLeft s
  let f := State.coldStarted s.glb.ties
  { f with
    pending := s.pending, sram := s.sram, wlog := s.wlog, clk := s.clk, free := s.free, outbox := s.outbox,
    glb := { f.glb with domain := s.glb.domain, cause := r.cause, openCode := r.openCode, fromL3 := r.fromL3, fromSafe := r.fromSafe,
                        coldPin := s.glb.coldPin, warmPin := s.glb.warmPin },
    start := startBegun s true s.glb.warmPin,
    sup := { owner := s.sup.owner, hbRun := s.sup.hbRun, hbLimit := s.sup.hbLimit, hbSince := s.clk },
    mbx := s.mbx.mapVals (fun _ m => { m with taken := none, owed := none, spdm := {} }),
    flt := fltWarm s.flt,
    pwr := pwrWarm s,
    mrl := { marlAfter (fun x => decide (recPrio x.kind ≤ 1)) s.mrl with
             wrapFlag := s.mrl.wrapFlag, uncorr := s.mrl.uncorr, second := s.mrl.second, counts := s.mrl.counts },
    obs := obsWarm s.obs,
    sun := { s.sun with holdoverEvt := false, offsetPs := 0, good := 0, replies := [], mayStep := false, noted922 := false },
    plots := s.plots.mapVals (fun _ p => plotWarm p),
    img := { slots := s.img.slots },
    xfer := { f.xfer with cfg := s.xfer.cfg },
    mp := { f.mp with cfg := s.mp.cfg, bwBase := s.mp.bwBase, tapBase := s.mp.tapBase, dapBase := s.mp.dapBase, localMap := s.mp.localMap,
                      ports := portsDown s },
    rlc := { f.rlc with enable := s.rlc.enable },
    lanes := { lane := s.lanes.lane.mapVals (fun _ x => laneWarm x), link := s.lanes.link.mapVals (fun _ k => linkWarm k),
               trainBatch := s.lanes.trainBatch },
    trl := { f.trl with bankA := s.trl.bankA, bankB := s.trl.bankB, live := s.trl.live, drainLimit := s.trl.drainLimit, arb := s.trl.arb },
    rak := { f.rak with log2 := s.rak.log2, enable := s.rak.enable },
    coll := { f.coll with poolCfg := s.coll.poolCfg, sliceFence := s.coll.sliceFence, sivFence := s.coll.sivFence,
                          dibLimit := s.coll.dibLimit } }

/-- Every switched domain off and isolated; PWR_ACK stays where it is (R508). -/
def domsOff (s : State) (t : Ties) : Tbl Dom :=
  (List.range (if t.build = 1 then 18 else 96)).map (fun d =>
    (d, { on := false, req := false, ack := (getDom s d).ack, reqSince := s.clk, idleSince := s.clk, isolated := true }))

/-- A cold reset acts with tie-offs: everything at its Cold value, domains off, links down, the Marl as its scan will find it
(R426, R427, R454, R508). `go` says that the cold start begins; `keep` which waiting Marl records survive. -/
def actCold (t : Ties) (go : Bool) (keep : MarlRec → Bool) (s : State) : State :=
  let f := State.coldStarted t
  let start := startBegun { s with start := { ({} : Start) with failed := s.start.failed } } false go
  { f with
    pending := s.pending, wlog := s.wlog, clk := s.clk, free := s.free, outbox := s.outbox,
    glb := { f.glb with cause := s.glb.cause, openCode := s.glb.openCode, fromL3 := s.glb.fromL3, fromSafe := s.glb.fromSafe,
                        coldPin := s.glb.coldPin, warmPin := s.glb.warmPin },
    start := start,
    pwr := { f.pwr with doms := domsOff s t, thermLow := s.pwr.thermLow, thermSince := s.pwr.thermSince, therm2 := s.pwr.therm2,
                        droopLow := s.pwr.droopLow, droopHold := s.pwr.droopHold, cpClk := s.pwr.cpClk, lnPgood := s.pwr.lnPgood },
    mrl := marlAfter keep s.mrl,
    sun := { f.sun with state := .free },
    plots := [],
    mp := { f.mp with ports := portsDown { s with glb := { s.glb with ties := t } } },
    lanes := { f.lanes with lane := (List.range (if t.build = 1 then 64 else 512)).map (fun q => (q, { fallow := true })) } }

/-- Nothing that waits for the Marl survives. -/
def dropAll (_ : MarlRec) : Bool := false

/-- The cause of a reset (R447). -/
def setCause (r : ResetReq) (s : State) : State :=
  modGlb (fun g => { g with cause := r.cause, openCode := r.openCode, fromL3 := r.fromL3, fromSafe := r.fromSafe }) s

/-- A cause as it stands when a reset acts at once (R427, R447). -/
def causeNow (cause : Nat) (s : State) : ResetReq :=
  { kind := .cold, cause := cause, openCode := highestOpen s, fromL3 := s.flt.l3, fromSafe := s.flt.safe, since := s.clk }

/-- A requested reset acts (R427). -/
def resetActs (s : State) : State :=
  match s.glb.req with
  | none => s
  | some r =>
    if !resetReady s r then s
    else match r.kind with
      | .warm => actWarm r s
      | .cold => actCold s.glb.ties s.glb.warmPin dropAll (setCause r s)

/-- VDD has gone: the block stops at once, with what the Marl has committed (R427, R450). -/
def powerLost (s : State) : State :=
  let s := setCause (causeNow 0 s) (modStart (fun x => { x with failed := 0 }) s)
  let s := actCold s.glb.ties false dropAll (modGlb (fun g => { g with coldPin := false }) s)
  { s with pwr := { s.pwr with doms := s.pwr.doms.mapVals (fun _ x => { x with ack := false }) } }

/-- COLD_RST_N is taken at a level (R427, R454, R505). -/
def coldInput (level : Bool) (t : Ties) (s : State) : State :=
  if level = s.glb.coldPin then s
  else if level then
    let s := modGlb (fun g => { g with coldPin := true }) s
    actCold t true dropAll s
  else actCold s.glb.ties false dropAll (setCause (causeNow 1 s) (modGlb (fun g => { g with coldPin := false }) s))

/-- WARM_RST_N is taken low (R505). -/
def warmInput (s : State) : State :=
  if s.glb.warmPin && s.glb.coldPin then requestReset .warm 3 (modGlb (fun g => { g with warmPin := false }) s)
  else modGlb (fun g => { g with warmPin := false }) s

/-- WARM_RST_N is taken high again (R505): a start that waits for it begins. -/
def warmReleased (s : State) : State :=
  let waits := !s.glb.warmPin && s.glb.coldPin && s.start.state == 0 && !s.start.running && s.glb.req.isNone
    && decide (s.start.step = if s.start.warm then 1 else 0)
  let s := modGlb (fun g => { g with warmPin := true }) s
  if waits then modStart (fun x => { x with running := true, since := s.clk, stepSince := s.clk }) s else s

/-- GLB_RESET_CTL written (R422, R427, R428, R431, R447, R460, R565): in the Safe state only cold acts for a supervisor that is not
the owner. -/
def resetCtlW (w : Word) (s : State) : State :=
  let d := fld w 3 7
  if domCount s ≤ d then raise 0xF20 s
  else
    let take := modGlb (fun g => { g with domain := d })
    if bitAt w 1 then requestReset .cold 2 (modStart (fun x => { x with failed := 0 }) (take s))
    else if bitAt w 0 then (if s.flt.safe then raise 0xF20 s else requestReset .warm 4 (take s))
    else if bitAt w 2 then
      if s.flt.safe then s
      else if !mayCycle s d || s.glb.cycBusy || (getDom s d).req != (getDom s d).ack then raise 0x853 s
      else startCycle d false (take s)
    else if s.flt.safe then s else take s

/-- GLB_ registers below 0x40 (R6, R447, R467). -/
def glbReg (s : State) (off : Nat) : Word :=
  let g := s.glb
  let x := s.start
  match off with
  | 0x00 => glbId s
  | 0x10 => pk [(3, g.domain)]
  | 0x14 => pk [(0, g.cause), (4, g.openCode), (16, g.fromL3.toNat), (17, g.fromSafe.toNat)]
  | 0x18 => pk [(0, g.cycDomain), (7, g.cycBusy.toNat), (8, g.cycFailed.toNat), (9, g.cycByHang.toNat)]
  | 0x20 => pk [(0, x.state), (2, x.step), (7, x.warm.toNat), (8, x.failed), (10, x.icqCopy.toNat), (11, x.soilCopy.toNat),
                (12, x.trellisLoaded.toNat), (13, x.holdCode)]
  | 0x24 => BitVec.ofNat 32 x.timeUs
  | 0x28 => x.ver
  | 0x2C => x.icqVer
  | 0x30 => x.soilSeq
  | _ => 0

/-- GLB_ registers below 0x40 written (R447). -/
def glbRegW (off : Nat) (w : Word) (s : State) : State :=
  match off with
  | 0x10 => resetCtlW w s
  | 0x18 => modGlb (fun g => { g with cycFailed := g.cycFailed && !bitAt w 8 }) s
  | _ => s

end Sys2Proof.Machine
end

