-- ==== Sys2Proof/Machine/Tilth.lean ====
section
/-! DEFINITION. The meanings of the Tilth commands and of the furrow events (R42-R109). -/

namespace Sys2Proof.Machine

/-- NOP (R82). -/
def execNop (f : Nat) (s : State) : Host.Outcome State Fault Refusal :=
  act (doNop f) s

/-- JUMP (R84). -/
def execJump (f : Nat) (s : State) : Host.Outcome State Fault Refusal :=
  act (doJump f) s

/-- BRANCH (R84). -/
def execBranch (f : Nat) (s : State) : Host.Outcome State Fault Refusal :=
  act (doBranch f) s

/-- LOOP (R85). -/
def execLoop (f : Nat) (s : State) : Host.Outcome State Fault Refusal :=
  act (doLoop f) s

/-- CALL (R86). -/
def execCall (f : Nat) (s : State) : Host.Outcome State Fault Refusal :=
  act (doCall f) s

/-- RETURN (R86). -/
def execRet (f : Nat) (s : State) : Host.Outcome State Fault Refusal :=
  act (doRet f) s

/-- HALT (R87). -/
def execHalt (f : Nat) (s : State) : Host.Outcome State Fault Refusal :=
  act (doHalt f) s

/-- BREAK (R88). -/
def execBrk (f : Nat) (s : State) : Host.Outcome State Fault Refusal :=
  act (doBrk f) s

/-- SETI (R89). -/
def execSeti (f : Nat) (s : State) : Host.Outcome State Fault Refusal :=
  act (doSeti f) s

/-- ADDI (R89). -/
def execAddi (f : Nat) (s : State) : Host.Outcome State Fault Refusal :=
  act (doAddi f) s

/-- MOVG (R89). -/
def execMovg (f : Nat) (s : State) : Host.Outcome State Fault Refusal :=
  act (doMovg f) s

/-- CMP (R90). -/
def execCmp (f : Nat) (s : State) : Host.Outcome State Fault Refusal :=
  act (doCmp f) s

/-- LOADG (R91). -/
def execLoadg (f : Nat) (u : Upset) (s : State) : Host.Outcome State Fault Refusal :=
  run (doLoadg f u) s

/-- STOREG (R91). -/
def execStoreg (f : Nat) (s : State) : Host.Outcome State Fault Refusal :=
  run (doStoreg f) s

/-- COPY (R170). -/
def execCopy (f : Nat) (u : Upset) (s : State) : Host.Outcome State Fault Refusal :=
  run (doCopy f u) s

/-- PUT (R92). -/
def execPut (f : Nat) (s : State) : Host.Outcome State Fault Refusal :=
  run (doPut f) s

/-- GET (R93). -/
def execGet (f : Nat) (u : Upset) (s : State) : Host.Outcome State Fault Refusal :=
  run (doGet f u) s

/-- FILL (R92). -/
def execFill (f : Nat) (s : State) : Host.Outcome State Fault Refusal :=
  run (doFill f) s

/-- ATOM (R95). -/
def execAtom (f : Nat) (s : State) : Host.Outcome State Fault Refusal :=
  run (doAtom f) s

/-- TWAIT (R97). -/
def execTwait (f : Nat) (u : Upset) (s : State) : Host.Outcome State Fault Refusal :=
  act (doTwait f u) s

/-- TADD (R98). -/
def execTadd (f : Nat) (s : State) : Host.Outcome State Fault Refusal :=
  run (doTadd f) s

/-- TSET (R98). -/
def execTset (f : Nat) (s : State) : Host.Outcome State Fault Refusal :=
  act (doTset f) s

/-- FENCE (R99). -/
def execFence (f : Nat) (s : State) : Host.Outcome State Fault Refusal :=
  act (doFence f) s

/-- SIGNAL kind 0x00 (R100). -/
def execSignal (f : Nat) (s : State) : Host.Outcome State Fault Refusal :=
  act (doSignal f) s

/-- SIGNAL kind 0x01 (R100). -/
def execSignalEventPost (f : Nat) (s : State) : Host.Outcome State Fault Refusal :=
  act (doSignalPost f) s

/-- SUNWAIT (R101). -/
def execSunwait (f : Nat) (s : State) : Host.Outcome State Fault Refusal :=
  act (doSunwait f) s

/-- BEDOPEN (R185). -/
def execBedopen (f : Nat) (s : State) : Host.Outcome State Fault Refusal :=
  run (doBedopen f) s

/-- BEDCLOSE (R189). -/
def execBedclose (f : Nat) (s : State) : Host.Outcome State Fault Refusal :=
  run (doBedclose f) s

/-- REDUCE (R203). -/
def execReduce (f : Nat) (s : State) : Host.Outcome State Fault Refusal :=
  run (doReduce f) s

/-- ALLRED (R203). -/
def execAllred (f : Nat) (s : State) : Host.Outcome State Fault Refusal :=
  run (doAllred f) s

/-- REDSCAT (R205). -/
def execRedscat (f : Nat) (s : State) : Host.Outcome State Fault Refusal :=
  run (doRedscat f) s

/-- ALLGATH (R203). -/
def execAllgath (f : Nat) (s : State) : Host.Outcome State Fault Refusal :=
  run (doAllgath f) s

/-- BCAST (R203). -/
def execBcast (f : Nat) (s : State) : Host.Outcome State Fault Refusal :=
  run (doBcast f) s

/-- SHIFT (R203). -/
def execShift (f : Nat) (s : State) : Host.Outcome State Fault Refusal :=
  run (doShift f) s

/-- PERMUTE (R203). -/
def execPermute (f : Nat) (s : State) : Host.Outcome State Fault Refusal :=
  run (doPermute f) s

/-- SCAN (R265). -/
def execScan (f : Nat) (s : State) : Host.Outcome State Fault Refusal :=
  run (doScan f) s

/-- SREDUCE (R256). -/
def execSreduce (f : Nat) (s : State) : Host.Outcome State Fault Refusal :=
  run (doSreduce f) s

/-- TOPK (R262). -/
def execTopk (f : Nat) (s : State) : Host.Outcome State Fault Refusal :=
  run (doTopk f) s

/-- DISPATCH (R275). -/
def execDispatch (f : Nat) (s : State) : Host.Outcome State Fault Refusal :=
  run (doDispatch f) s

/-- COMBINE (R280). -/
def execCombine (f : Nat) (s : State) : Host.Outcome State Fault Refusal :=
  run (doCombine f) s

/-- DREDUCE (R290). -/
def execDreduce (f : Nat) (s : State) : Host.Outcome State Fault Refusal :=
  run (doDreduce f) s

/-- DBARRIER (R291). -/
def execDbarrier (f : Nat) (s : State) : Host.Outcome State Fault Refusal :=
  run (doDbarrier f) s

/-- MARK (R483). -/
def execMark (f : Nat) (s : State) : Host.Outcome State Fault Refusal :=
  act (doMark f) s

/-- DUMP (R484). -/
def execDump (f : Nat) (s : State) : Host.Outcome State Fault Refusal :=
  run (doDump f) s

/-- A furrow fetches its next command (R56, R74). -/
def execCommandFetch (f : Nat) (u : Upset) (s : State) : Host.Outcome State Fault Refusal :=
  run (fetchCmd f u) s

/-- An event of a furrow's issued commands: not in the Safe state, and not while the furrow is being reset (R80, R422). -/
def furEvent (f : Nat) (k : State → State) (s : State) : State :=
  if s.flt.safe || (getFur s f).resetting.isSome || decide (furrowCount s ≤ f) then s else k s

/-- An outstanding command completes (R79). -/
def execCommandComplete (f k : Nat) (s : State) : Host.Outcome State Fault Refusal :=
  act (furEvent f (completeCmd f k)) s

/-- The oldest completed command retires (R77), counted as counter source 0x05 (R491). -/
def execCommandRetire (f : Nat) (s : State) : Host.Outcome State Fault Refusal :=
  act (furEvent f (fun s =>
    let t := retireHead f s
    if (getFur t f).seq = (getFur s f).seq then t else countSrc 5 f 1 t)) s

/-- A TWAIT has waited for its limit (R97). -/
def execTwaitLimitExpiry (f : Nat) (s : State) : Host.Outcome State Fault Refusal :=
  act (twaitExpiry f) s

/-- A write of FUR_CTL whose action bit `k` is set (R49, R50). -/
def furCtlRow (k sv n : Nat) (w : Word) (s : State) : State :=
  if bitAt w k then cpWrite sv (furAddr n 0) (furCtl n w) s else s

/-- A write of FUR_CTL with start set (R54). -/
def execFurCtlStart (sv n : Nat) (w : Word) (s : State) : Host.Outcome State Fault Refusal :=
  run (furCtlRow 0 sv n w) s

/-- A write of FUR_CTL with stop set (R49). -/
def execFurCtlStop (sv n : Nat) (w : Word) (s : State) : Host.Outcome State Fault Refusal :=
  run (furCtlRow 1 sv n w) s

/-- A write of FUR_CTL with resume set (R80). -/
def execFurCtlResume (sv n : Nat) (w : Word) (s : State) : Host.Outcome State Fault Refusal :=
  run (furCtlRow 2 sv n w) s

/-- A write of FUR_CTL with step set (R109). -/
def execFurCtlStep (sv n : Nat) (w : Word) (s : State) : Host.Outcome State Fault Refusal :=
  run (furCtlRow 3 sv n w) s

/-- A write of FUR_CTL with reset set (R80). -/
def execFurCtlReset (sv n : Nat) (w : Word) (s : State) : Host.Outcome State Fault Refusal :=
  run (furCtlRow 4 sv n w) s

/-- A furrow under reset enters Idle (R80). -/
def execFurrowIdle (f : Nat) (s : State) : Host.Outcome State Fault Refusal :=
  act (furIdle f) s

/-- A write of FUR_DOORBELL (R57). -/
def execFurDoorbell (sv n : Nat) (w : Word) (s : State) : Host.Outcome State Fault Refusal :=
  act (cpWrite sv (furAddr n 0x18) (doorbell n w)) s

/-- A read of FUR_NOTIFY returns and pops the head of the FIFO (R53); room for a retirement that waits comes free. -/
def popNotify (n : Nat) (s : State) : Word × State :=
  match (getFur s n).notify with
  | [] => (0, s)
  | w :: r => (w, modFur n (fun g => { g with notify := r }) s)

/-- A read of FUR_NOTIFY (R53). -/
def execFurNotify (sv n : Nat) (s : State) : Host.Outcome State Fault Refusal :=
  act (cpRead sv (furAddr n 0x34) (popNotify n)) s

end Sys2Proof.Machine
end

