-- ==== Sys2Proof/Machine/Trellis.lean ====
section
/-! DEFINITION. Trellis tables and swaps, drains, spraying levels, the cap window and Rake maps (R356-R358, R362-R378). -/

namespace Sys2Proof.Machine

/-- Trellis changed. -/
def modTrl (f : Trl → Trl) (s : State) : State := { s with trl := f s.trl }
/-- Rake changed. -/
def modRak (f : Rak → Rak) (s : State) : State := { s with rak := f s.rak }

/-- A word of a bank at an offset of R373; none where the bank has no table. -/
def bankWord (s : State) (b : Bank) (off : Nat) : Option Word :=
  if off < 0x800 then some (b.route.getD (off / 4) 0)
  else if off < 0xC00 then some (BitVec.ofNat 32 (fld (b.mcast.getD ((off - 0x800) / 64) 0) (8 * (off % 64)) 32))
  else if 0x1000 ≤ off ∧ off < 0x1000 + 32 * linkCount s then
    some (BitVec.ofNat 32 (fld (b.perm.getD ((off - 0x1000) / 32) 0) (8 * (off % 32)) 32))
  else none

/-- A bank with a word written at an offset. On S512 a route entry holds one bit (R362). -/
def bankWrite (s : State) (b : Bank) (off : Nat) (w : Word) : Bank :=
  if off < 0x800 then { b with route := b.route.set (off / 4) (if e64 s then w else w &&& 1) }
  else if off < 0xC00 then
    { b with mcast := b.mcast.set ((off - 0x800) / 64) (setFld (b.mcast.getD ((off - 0x800) / 64) 0) (8 * (off % 64)) 32 w.toNat) }
  else
    let l := (off - 0x1000) / 32
    { b with perm := b.perm.set l (setFld (b.perm.getD l 0) (8 * (off % 32)) 32 w.toNat) }

/-- The bytes of a bank's tables in the order route, multicast, permission (R363). -/
def bankBytes (s : State) (b : Bank) : List Byte :=
  ((List.range 512).map (fun d => leBytes 4 (b.route.getD d 0).toNat)).flatten
    ++ ((List.range 16).map (fun g => leBytes 64 (b.mcast.getD g 0).toNat)).flatten
    ++ ((List.range (linkCount s)).map (fun l => leBytes 32 (b.perm.getD l 0).toNat)).flatten

/-- A bank's checksum (R363). -/
def bankSum (s : State) (b : Bank) : Word := crc32 (bankBytes s b)

/-- A word of a Trellis table is written (R363, R378): the standby bank only, with no swap armed and no guard running, inside
the layout, and no bit of the permission entry of E64 port engine 7. -/
def trellisWrite (a : Nat) (w : Word) (s : State) : State :=
  let isB := decide (0x488000 ≤ a)
  let off := a % 0x8000
  let bank := if isB then s.trl.bankB else s.trl.bankA
  if isB == s.trl.live || s.trl.armed.isSome || s.trl.guardEnd.isSome || (bankWord s bank off).isNone
      || (e64 s && decide (0x10E0 ≤ off ∧ off < 0x1100) && w != 0) then raise 0x630 s
  else if isB then modTrl (fun t => { t with bankB := bankWrite s bank off w }) s
  else modTrl (fun t => { t with bankA := bankWrite s bank off w }) s

/-- TRL_ARB written: no weight may be zero (R378). -/
def arbWrite (w : Word) (s : State) : State :=
  if (List.range 7).any (fun v => fld w (4 * v) 4 == 0) then raise 0x630 s
  else modTrl (fun t => { t with arb := w &&& 0x0FFFFFFF }) s

/-- Sundial time T of an armed swap comes: the standby bank is live and the guard runs (R364). -/
def swapAtTime (s : State) : State :=
  match s.trl.armed with
  | none => s
  | some t =>
    if t ≤ s.sun.time then
      moveRows (modTrl (fun x => { x with live := !x.live, armed := none, guardEnd := some (s.clk + 10000) }) s)
    else s

/-- The time of the next swap (R376). -/
def swapAt (s : State) : Nat := s.trl.swapAtHi.toNat * 2 ^ 32 + s.trl.swapAtLo.toNat

/-- A swap may be armed over a domain of endpoints (R364). -/
def armOk (s : State) (domain : Nat) : Bool :=
  decide (domain ≤ 128) && decide (s.sun.time + 100000 ≤ swapAt s) && s.trl.armed.isNone && s.trl.guardEnd.isNone

/-- TRL_SWAP_CTL written: domain, then disarm, arm and now (R376); a disarm at the time of the swap does nothing (R367). A
refused arm or now leaves the write without effect (R565). -/
def swapCtl (w : Word) (s : State) : State :=
  let u := if bitAt w 12 then modTrl (fun t => { t with armed := none }) (swapAtTime s) else s
  if (bitAt w 10 && !armOk u (fld w 0 10)) || (bitAt w 11 && !s.trl.drainDone) then raise 0x631 s
  else
    let u := modTrl (fun t => { t with domain := fld w 0 10, armed := if bitAt w 10 then some (swapAt u) else t.armed }) u
    if bitAt w 11 then moveRows (modTrl (fun t => { t with live := !t.live }) u) else u

/-- The guard ends (R364). -/
def endGuard (s : State) : State :=
  match s.trl.guardEnd with
  | some t => if t ≤ s.clk then modTrl (fun x => { x with guardEnd := none }) s else s
  | none => s

/-- Credits owed to the fabric go out on every memory port where nothing withholds them. -/
def payAll (s : State) : State := (List.range 16).foldl (fun s p => payCredits p s) s

/-- TRL_CTL written: a drain begins or ends (R366). -/
def trlCtl (w : Word) (s : State) : State :=
  if bitAt w 1 && !s.trl.drain then
    modTrl (fun t => { t with drain := true, drainDone := false, drainSince := s.clk, noted632 := false }) s
  else if !bitAt w 1 && s.trl.drain then payAll (modTrl (fun t => { t with drain := false, drainDone := false }) s)
  else s

/-- Nothing that a drain waits for is left: no reservation outstanding, no slot held, no output queue with a packet that may
still start (R366, R367). -/
def drained (s : State) : Bool :=
  s.trl.guardEnd.isNone && s.coll.slots.isEmpty && s.coll.dslots.isEmpty
    && !(s.xfer.rqs.any (fun e => e.2.sent || mayStart s e.2))

/-- A drain is complete (R366). -/
def endDrain (s : State) : State :=
  if s.trl.drain && !s.trl.drainDone && !s.trl.noted632 && drained s then modTrl (fun t => { t with drainDone := true }) s else s

/-- A drain passes TRL_DRAIN_LIMIT (R366). -/
def drainLate (s : State) : State :=
  if s.trl.drain && !s.trl.drainDone && !s.trl.noted632 && passed s s.trl.drainSince (s.trl.drainLimit * 1000) then
    raise 0x632 (modTrl (fun t => { t with noted632 := true }) s)
  else s

/-- A level falls by one after 1 us with no new hint (R358). -/
def decayHint (d p : Nat) (s : State) : State :=
  let x := s.trl.level.at (pairKey d p)
  if 0 < x.1 ∧ passed s x.2 1000 then modTrl (fun t => { t with level := t.level.set (pairKey d p) (x.1 - 1, s.clk) }) s else s

/-- A link's cap window of 1,024 flit slots ends (R356): a slot lasts 1.2955 ns on one lane. -/
def endCapWindow (l : Nat) (s : State) : State :=
  let k := getLink s l
  if k.up ∧ passed s k.windowSince (1024 * 12955 / 10000 / (activeLanes s l).length) then
    modLink l (fun k => { k with collSlots := 0, windowSince := s.clk }) s
  else s

/-- The credits that a link's far end advertises, over all virtual networks (R344). -/
def advertised (s : State) (l : Nat) : Nat := ((List.range 7).map (bufCount (isMesh s l))).sum

/-- The credits in use of a link: those that its far end has not yet returned (R370). -/
def inUse (s : State) (l : Nat) : Nat :=
  if linkUp s l then advertised s l - ((List.range 7).map (fun v => (getLink s l).cred.getD v 0)).sum else 0

/-- Rake samples every output link (R370). -/
def rakSample (s : State) : State :=
  if s.rak.enable && passed s s.rak.lastSample 1000 then
    modRak (fun r => { r with
      lastSample := s.clk, samples := r.samples + 1, winStart := if r.samples = 0 then s.sun.time else r.winStart,
      sums := (List.range (linkCount s)).map (fun l =>
        let u := inUse s l
        let o := Tbl.getD r.sums l (0, 0)
        (l, (o.1 + u, max o.2 u))) }) s
  else s

/-- An occupancy in 256ths (R370). -/
def in256 (used adv : Nat) : Nat := if adv = 0 then 0 else min 255 (256 * used / adv)

/-- Two maps merged: the older start, the summed length, window-weighted means and larger maxima (R371). -/
def mergeMaps (a b : RakMap) : RakMap :=
  { b with start := a.start, window := a.window + b.window,
           links := a.links.zipWith (fun x y => ((x.1 * a.window + y.1 * b.window) / (a.window + b.window), max x.2 y.2)) b.links }

/-- A map slot, filled or empty. -/
def mapAt (r : Rak) (i : Nat) : RakMap := r.slots.getD (i % 16) { start := 0, window := 0, seq := 0, links := [] }

/-- The two oldest of sixteen maps become one, in the slot of the later (R371). -/
def mergeOldest (r : Rak) : Rak :=
  if r.held < 16 then r
  else { r with slots := r.slots.set ((r.oldest + 1) % 16) (mergeMaps (mapAt r r.oldest) (mapAt r (r.oldest + 1))),
                oldest := (r.oldest + 1) % 16, held := 15, merged := true, decim := r.decim + 1 }

/-- A Rake window closes: its map goes into the next free slot (R370, R371). -/
def rakClose (s : State) : State :=
  if s.rak.enable ∧ 2 ^ s.rak.log2 ≤ s.rak.samples then
    modRak (fun r =>
      let m : RakMap := { start := r.winStart, window := 2 ^ r.log2, seq := r.seq % 65536,
                          links := (List.range (linkCount s)).map (fun l =>
                            let o := Tbl.getD r.sums l (0, 0)
                            (in256 o.1 (advertised s l * r.samples), in256 o.2 (advertised s l))) }
      let r := mergeOldest r
      { r with slots := r.slots.set ((r.oldest + r.held) % 16) m, held := r.held + 1, seq := (r.seq + 1) % 65536,
               samples := 0, sums := [] }) s
  else s

/-- The oldest map is freed (R371). -/
def rakPopOne (s : State) : State :=
  modRak (fun r => if r.held = 0 then r
    else { r with slots := r.slots.del r.oldest, oldest := (r.oldest + 1) % 16, held := r.held - 1 }) s

/-- The oldest `n` maps are freed. -/
def rakPops : Nat → State → State
  | 0, s => s
  | n + 1, s => rakPops n (rakPopOne s)

/-- A Rake map request arrives: the oldest maps wanted go back to the sender, and are freed when it says so (R354, R371;
log 79). -/
def takeRakeRequest (l : Nat) (p : Packet) (s : State) : State :=
  mgmtArrival l p 3 (fun s =>
    let n := min s.rak.held (p.ar 17 1)
    let s := emit (.rakeMaps p.src ((List.range n).map (fun i => mapAt s.rak (s.rak.oldest + i)))) s
    (0, if (p.ar 18 1).testBit 0 then rakPops n s else s)) s

/-- The bytes of a map (R370). -/
def mapBytes (m : RakMap) : List Byte :=
  leBytes 8 m.start ++ leBytes 4 m.window ++ leBytes 2 m.links.length ++ leBytes 2 m.seq ++ List.replicate 48 0
    ++ (m.links.map (fun x => [BitVec.ofNat 8 x.1, BitVec.ofNat 8 x.2])).flatten

/-- A word of the map slots; a slot with no map reads zero (R377). -/
def mapWord (s : State) (off : Nat) : Word :=
  match s.rak.slots.find (off / 0x800) with
  | some m => BitVec.ofNat 32 (leNat (((mapBytes m).drop (off % 0x800)).take 4))
  | none => 0

/-- A register of the Trellis and Rake blocks, or a word of their tables (R373-R377). -/
def trlReg (s : State) (a : Nat) : Word :=
  let t := s.trl
  if a < 0x488000 then (bankWord s t.bankA (a % 0x8000)).getD 0
  else if a < 0x490000 then (bankWord s t.bankB (a % 0x8000)).getD 0
  else if 0x498000 ≤ a then mapWord s (a - 0x498000)
  else if 0x491800 ≤ a then peerMask s ((a - 0x491800) / 4)
  else if 0x491000 ≤ a then reachEntry s ((a - 0x491000) / 4)
  else match a - 0x490000 with
  | 0x000 => pk [(0, t.live.toNat), (1, t.drain.toNat), (2, t.drainDone.toNat), (3, t.armed.isSome.toNat), (4, t.guardEnd.isSome.toNat)]
  | 0x004 => t.swapAtLo
  | 0x008 => t.swapAtHi
  | 0x00C => BitVec.ofNat 32 t.domain
  | 0x010 => bankSum s t.bankA
  | 0x014 => bankSum s t.bankB
  | 0x018 => BitVec.ofNat 32 t.drainLimit
  | 0x01C => t.noRoute
  | 0x020 => t.arb
  | 0x100 => pk [(0, s.rak.log2), (4, s.rak.enable.toNat)]
  | 0x104 => pk [(0, s.rak.oldest), (4, s.rak.held), (9, s.rak.merged.toNat)]
  | 0x10C => s.rak.decim
  | _ => 0

/-- RAK_CFG written (R377); a new window length begins a new window. -/
def rakCfg (w : Word) (s : State) : State :=
  let k := fld w 0 4
  if k < 6 ∨ 13 < k then raise 0x640 s
  else modRak (fun r => if k = r.log2 then { r with enable := bitAt w 4 }
    else { r with enable := bitAt w 4, log2 := k, samples := 0, sums := [] }) s

/-- TRL_DRAIN_LIMIT written (R376). -/
def drainLimitW (w : Word) (s : State) : State :=
  let v := fld w 0 24
  if v < 100 ∨ 1000000 < v then raise 0x630 s else modTrl (fun t => { t with drainLimit := v }) s

/-- A register of the Trellis and Rake blocks, or a word of their tables, written (R373-R378). -/
def trlRegW (a : Nat) (w : Word) (s : State) : State :=
  if a < 0x490000 then trellisWrite a w s
  else match a - 0x490000 with
  | 0x000 => trlCtl w s
  | 0x004 => modTrl (fun t => { t with swapAtLo := w }) s
  | 0x008 => modTrl (fun t => { t with swapAtHi := w }) s
  | 0x00C => swapCtl w s
  | 0x018 => drainLimitW w s
  | 0x020 => arbWrite w s
  | 0x100 => rakCfg w s
  | 0x104 => modRak (fun r => { r with merged := r.merged && !bitAt w 9 }) s
  | 0x108 => if bitAt w 0 then rakPopOne s else s
  | _ => s

end Sys2Proof.Machine
end

