-- ==== Sys2Proof/Machine/Windows.lean ====
section
/-! DEFINITION. The meanings of core requests on the memory ports and of the remote-line cache's events (R58, R62, R134-R147,
R172-R175, R528-R531). -/

namespace Sys2Proof.Machine

/-- A core's board-window read arrives on IQ (R173). -/
def execBoardWindowLoad (port : Nat) (b : IqBeat) (u : Upset) (s : State) : Host.Outcome State Fault Refusal :=
  run (iqRequest .window false port b u) s

/-- A core's board-window write arrives on IQ (R174). -/
def execBoardWindowStore (port : Nat) (b : IqBeat) (s : State) : Host.Outcome State Fault Refusal :=
  run (iqRequest .window true port b .none) s

/-- A held board-window access goes on (R135, R144). -/
def execBoardWindowRelease (id : Nat) (s : State) : Host.Outcome State Fault Refusal :=
  run (bwTry id) s

/-- A held access of a board-window pair goes to the home's memory port (R136). -/
def execHomeAccessRelease (id : Nat) (s : State) : Host.Outcome State Fault Refusal :=
  run (releaseJob id) s

/-- Withheld request credit returns on a memory port (R138). -/
def execCreditWithholdRelease (port : Nat) (s : State) : Host.Outcome State Fault Refusal :=
  run (releaseCredit port) s

/-- A write of MEM_RLC_CTL: clearing enable empties the cache (R142, R147). -/
def rlcCtl (w : Word) (s : State) : State :=
  let s := modRlc (fun c => { c with enable := bitAt w 0, plotSel := fld w 8 8 }) s
  let s := if bitAt w 2 then invPlotLines (fld w 8 8) s else s
  if bitAt w 1 || !bitAt w 0 then invAllLines s else s

/-- A write of MEM_RLC_CTL with inv_all set (R142). -/
def execInvAll (sv : Nat) (w : Word) (s : State) : Host.Outcome State Fault Refusal :=
  act (fun s => if bitAt w 1 then cpWrite sv 0x3C0000 (rlcCtl w) s else s) s

/-- A write of MEM_RLC_CTL with inv_plot set (R142). -/
def execInvPlot (sv : Nat) (w : Word) (s : State) : Host.Outcome State Fault Refusal :=
  act (fun s => if bitAt w 2 then cpWrite sv 0x3C0000 (rlcCtl w) s else s) s

/-- The epoch sweep ends (R145). -/
def execEpochSweepDone (s : State) : Host.Outcome State Fault Refusal :=
  act (fun s => if s.rlc.sweeping then sweepDone s else s) s

/-- A core reads a tally (R62). -/
def execTallyApertureRead (port : Nat) (b : IqBeat) (u : Upset) (s : State) : Host.Outcome State Fault Refusal :=
  run (iqRequest .tally false port b u) s

/-- A core adds to a tally (R62). -/
def execTallyApertureWrite (port : Nat) (b : IqBeat) (s : State) : Host.Outcome State Fault Refusal :=
  run (iqRequest .tally true port b .none) s

/-- A core rings a furrow's doorbell (R531). -/
def execDoorbellApertureWrite (port : Nat) (b : IqBeat) (s : State) : Host.Outcome State Fault Refusal :=
  run (iqRequest .doorbell true port b .none) s

end Sys2Proof.Machine
end

