-- ==== Sys2Proof/Machine/RegMap.lean ====
section
/-! DEFINITION. The control-port address map: every register's read and write, and a request with its parity (R7, R15, R18, R19,
R43-R54, R63, R147, R183, R402-R404, R411, R512-R516, R540, R541, R559-R565). -/

namespace Sys2Proof.Machine

/-- A furrow's registers can be reached (R48). -/
def furOpen (g : Furrow) : Bool := g.state == .idle || g.state == .stopped || g.state == .halted || g.state == .faulted

/-- A furrow register access refused (R44, R48, R54). -/
def furRefuse (n code : Nat) (s : State) : State := note code (some (getFur s n).plot) .furrow n s

/-- FUR_STATUS (R51). -/
def furStatus (g : Furrow) : Word :=
  let wait := match g.wait with
    | .none => 0 | .ringEmpty => 1 | .twait => 2 | .sunwait => 3 | .outstanding => 4 | .fence => 5 | .notifyFull => 6 | .scoreboard => 7
  let cause := match g.cause with
    | .none => 0 | .stopRequest => 1 | .stepDone => 2 | .brk => 3 | .breakFlag => 4 | .breakMatch => 5
  pk [(0, g.state.code), (3, wait), (6, cause), (9, g.haltedEvt.toNat), (10, g.stopEvt.toNat), (11, g.faultEvt.toNat),
      (12, (!g.notify.isEmpty).toNat), (13, g.ctlIgnored.toNat)]

/-- FUR_PC (R53). -/
def furPcReg (g : Furrow) : Word :=
  let p := furPlace g
  if p.inImage then pk [(0, p.idx % 2 ^ 20), (20, p.slot), (31, 1)] else 0

/-- A word of a register g0 to g15: low words at even places. -/
def gWord (g : Furrow) (off : Nat) : Word :=
  let v := g.g.at ((off - 0x80) / 8)
  BitVec.ofNat 32 (if off % 8 = 0 then v.toNat else v.toNat / 2 ^ 32)

/-- A furrow window's register, for the reads with no effect (R47). -/
def furReg (g : Furrow) (off : Nat) : Word :=
  match off with
  | 0x00 => g.ctl
  | 0x04 => furStatus g
  | 0x08 => BitVec.ofNat 32 g.plot
  | 0x0C => g.ringCfg
  | 0x10 => g.baseLo
  | 0x14 => g.baseHi
  | 0x1C => g.prod
  | 0x20 => g.cons
  | 0x24 => g.seq
  | 0x28 => furPcReg g
  | 0x2C => pk [(0, g.faultCode), (16, (decide (0 < g.abandoned)).toNat), (17, g.abandoned % 32)]
  | 0x30 => g.faultSeq
  | 0x38 => g.brkMatch
  | 0x3C => BitVec.ofNat 32 g.twLimit
  | 0x40 => BitVec.ofNat 32 g.loop.iters
  | 0x44 => BitVec.ofNat 32 g.stack.length
  | 0x4C => BitVec.ofNat 32 g.outstanding
  | _ => 0

/-- A furrow window is read (R19, R48). -/
def furRead (n off : Nat) (s : State) : Word × State :=
  let g := getFur s n
  if off = 0x34 then popNotify n s
  else if off = 0x48 ∨ 0x80 ≤ off then
    if furOpen g then (if off = 0x48 then g.preds.setWidth 32 else gWord g off, s) else (0, furRefuse n 0x180 s)
  else (furReg g off, s)

/-- A register that may be written in Idle only (R44, R54). -/
def idleOnly (n : Nat) (f : Furrow → Furrow) (s : State) : State :=
  if (getFur s n).state = .idle then modFur n f s else furRefuse n 0x180 s

/-- FUR_STATUS written: event bits are cleared (R51). -/
def furEvents (w : Word) (g : Furrow) : Furrow :=
  { g with haltedEvt := g.haltedEvt && !bitAt w 9, stopEvt := g.stopEvt && !bitAt w 10, faultEvt := g.faultEvt && !bitAt w 11,
           ctlIgnored := g.ctlIgnored && !bitAt w 13 }

/-- FUR_FAULT written: all ones clear the code, which acknowledges the furrow's entries (R53, R417). -/
def furFaultW (n : Nat) (w : Word) (s : State) : State :=
  if fld w 0 12 = 0xFFF then ackFurrow n (modFur n (fun g => { g with faultCode := 0 }) s) else s

/-- A register g0 to g15 with one of its words written. -/
def gWordW (off : Nat) (w : Word) (g : Furrow) : Furrow :=
  let k := (off - 0x80) / 8
  { g with g := g.g.set k (setFld (g.g.at k) (if off % 8 = 0 then 0 else 32) 32 w.toNat) }

/-- A furrow window is written (R44, R47-R54, R57). -/
def furWrite (n off : Nat) (w : Word) (s : State) : State :=
  match off with
  | 0x00 => furCtl n w s
  | 0x04 => modFur n (furEvents w) s
  | 0x08 => idleOnly n (fun g => { g with plot := fld w 0 8 }) s
  | 0x0C => idleOnly n (fun g => { g with ringCfg := w &&& 0x11F }) s
  | 0x10 => idleOnly n (fun g => { g with baseLo := w &&& 0xFFFFF000 }) s
  | 0x14 => idleOnly n (fun g => { g with baseHi := w &&& 0x7FFF }) s
  | 0x18 => doorbell n w s
  | 0x2C => furFaultW n w s
  | 0x38 => modFur n (fun g => { g with brkMatch := w }) s
  | 0x3C => if w.toNat = 0 ∨ 10000000 < w.toNat then furRefuse n 0x181 s else modFur n (fun g => { g with twLimit := w.toNat }) s
  | _ =>
    if off = 0x48 ∨ 0x80 ≤ off then
      if furOpen (getFur s n) then modFur n (fun g => if off = 0x48 then { g with preds := w.setWidth 8 } else gWordW off w g) s
      else furRefuse n 0x180 s
    else s

/-- The interrupt of a furrow group (R52). -/
def groupIrq (s : State) (k : Nat) : Bool :=
  s.fur.any (fun e => decide (e.1 / 64 = k) && ((e.2.haltedEvt && bitAt e.2.ctl 11) || (e.2.stopEvt && bitAt e.2.ctl 12)
    || (e.2.faultEvt && bitAt e.2.ctl 13) || (!e.2.notify.isEmpty && bitAt e.2.ctl 14)))

/-- A supervisor's mailbox. -/
def getMbx (s : State) (i : Nat) : Mbx := s.mbx.at i
/-- A supervisor's mailbox changed. -/
def modMbx (i : Nat) (f : Mbx → Mbx) (s : State) : State := { s with mbx := s.mbx.mod i f }

/-- MBX_IRQ_CAUSE (R400, R512, R541). -/
def irqCause (s : State) (i : Nat) : Word :=
  let mine := s.sup.owner == none || s.sup.owner == some i
  pk ((List.range 4).map (fun k => (k, (mine && groupIrq s k).toNat))
    ++ [(4, (mine && !s.sup.evq.isEmpty).toNat), (5, (mine && s.flt.isNew).toNat), (6, (s.sup.events != 0).toNat),
        (7, (getMbx s i).rspGo.toNat)])

/-- SV_IRQ of a supervisor (R512). -/
def svIrq (s : State) (i : Nat) : Bool := (irqCause s i &&& (getMbx s i).irqEn) != 0

/-- SV_WAKE of a supervisor (R513). -/
def svWake (s : State) (i : Nat) : Bool := (getMbx s i).rspGo && (getMbx s i).wakeEn

/-- A mailbox window's register (R411, R541). -/
def mbxReg (s : State) (i off : Nat) : Word :=
  let m := getMbx s i
  match off with
  | 0x40 => pk [(0, m.reqGo.toNat)]
  | 0xC0 => pk [(0, m.rspGo.toNat), (1, m.wakeEn.toNat)]
  | 0xC4 => m.irqEn
  | 0xC8 => irqCause s i
  | _ => if off < 0x40 then m.req.at (off / 4) else if 0x80 ≤ off ∧ off < 0xC0 then m.rsp.at ((off - 0x80) / 4) else 0

/-- Sixteen words as reply registers. -/
def rspWords (ws : List Word) : Tbl Word := (List.range 16).map (fun k => (k, ws.getD k 0))

/-- A reply is posted, or waits while the last one has not been taken (R403). -/
def postReply (i : Nat) (ws : List Word) (s : State) : State :=
  modMbx i (fun m => if m.rspGo then { m with owed := some ws } else { m with rsp := rspWords ws, rspGo := true, owed := none }) s

/-- MBX_RSP_CTL written: clearing go takes the reply, and one that waits is posted (R403, R404). -/
def rspCtlW (i : Nat) (w : Word) (s : State) : State :=
  let s := modMbx i (fun m => { m with wakeEn := bitAt w 1, rspGo := m.rspGo && !bitAt w 0 }) s
  match (getMbx s i).owed with
  | some ws => if (getMbx s i).rspGo then s else postReply i ws s
  | none => s

/-- A request is posted: it wakes the management domain (R403, R404). -/
def reqGoW (i : Nat) (w : Word) (s : State) : State :=
  if bitAt w 0 && !(getMbx s i).reqGo then wakeDom (mgmtDom s) (modMbx i (fun m => { m with reqGo := true }) s) else s

/-- A mailbox window is written (R402-R404, R411, R541). -/
def mbxWrite (i off : Nat) (w : Word) (s : State) : State :=
  match off with
  | 0x40 => reqGoW i w s
  | 0xC0 => rspCtlW i w s
  | 0xC4 => modMbx i (fun m => { m with irqEn := w &&& 0xFF }) s
  | _ =>
    if off < 0x40 then
      if (getMbx s i).reqGo then raise 0x680 s else modMbx i (fun m => { m with req := m.req.set (off / 4) w }) s
    else s

/-- A MEM_RLC_ or MEM_ORD_ register (R147). -/
def rlcReg (s : State) (off : Nat) : Word :=
  let c := s.rlc
  match off with
  | 0x00 => pk [(0, c.enable.toNat), (8, c.plotSel)]
  | 0x04 => pk [(0, (c.lines.filter (fun l => l.epoch == curEpoch s l.plot)).length), (16, c.sweeping.toNat), (17, c.eccEvt.toNat)]
  | 0x08 => pk [(0, activeCores s), (12, c.acc.length), (27, (s.mp.ports.any (fun e => e.2.withheld)).toNat)]
  | _ => 0

/-- A MEM_RLC_ register written (R147). -/
def rlcRegW (off : Nat) (w : Word) (s : State) : State :=
  match off with
  | 0x00 => rlcCtl w s
  | 0x04 => modRlc (fun c => { c with eccEvt := c.eccEvt && !bitAt w 17 }) s
  | _ => s

/-- The memory-port part changed. -/
def modMp (f : Mp → Mp) (s : State) : State := { s with mp := f s.mp }

/-- Two of the three inbound regions overlap (R540). -/
def regionsOverlap (m : Mp) : Bool := m.tapBase == m.dapBase || m.tapBase / 2 ^ 26 == m.bwBase || m.dapBase / 2 ^ 26 == m.bwBase

/-- MEM_CFG written (R524, R540, R565). -/
def memCfgW (w : Word) (s : State) : State :=
  let lim := fld w 1 15
  if lim = 0 ∨ 10000 < lim ∨ (bitAt w 0 && regionsOverlap s.mp) then raise 0x24A s
  else (List.range 16).foldl (fun s p => payCredits p s) (modMp (fun m => { m with cfg := w &&& 0xFFFF }) s)

/-- A base of an inbound region written (R540). -/
def memBaseW (f : Mp → Mp) (s : State) : State := if bitAt s.mp.cfg 0 then raise 0x24A s else modMp f s

/-- MEM_PORT_STATUSp (R540). -/
def memPortStatus (p : MPort) : Word := pk [(0, p.up.toNat), (1, min 1023 p.oq), (11, min 1023 p.od), (21, p.quar.length % 1024)]

/-- A MEM_ register of the memory ports (R540). -/
def memReg (s : State) (off : Nat) : Word :=
  let m := s.mp
  match off with
  | 0x00 => m.cfg
  | 0x04 => BitVec.ofNat 32 m.bwBase
  | 0x08 => BitVec.ofNat 32 m.tapBase
  | 0x0C => BitVec.ofNat 32 m.dapBase
  | 0x10 => m.localMap
  | 0x14 => pk [(0, m.errCode % 4096), (12, m.errPort % 16), (16, m.errCore % 4096), (28, m.errValid.toNat)]
  | _ => if 0x40 ≤ off then memPortStatus (m.ports.at ((off - 0x40) / 4)) else 0

/-- A MEM_ register of the memory ports written (R540, R567). -/
def memRegW (off : Nat) (w : Word) (s : State) : State :=
  match off with
  | 0x00 => memCfgW w s
  | 0x04 => memBaseW (fun m => { m with bwBase := fld w 0 6 }) s
  | 0x08 => memBaseW (fun m => { m with tapBase := w.toNat }) s
  | 0x0C => memBaseW (fun m => { m with dapBase := w.toNat }) s
  | 0x10 => modMp (fun m => { m with localMap := w }) s
  | 0x14 => modMp (fun m => { m with errValid := m.errValid && !bitAt w 28 }) s
  | _ => s

/-- A PRT_XFR_ register (R183). -/
def xferReg (s : State) (off : Nat) : Word :=
  let x := s.xfer
  match off with
  | 0x00 => x.cfg
  | 0x04 => pk [(0, min 4096 (ceilDiv (poolUsed s) 1024)), (14, ackUsed s)]
  | 0x08 => pk [(0, copyDepth s % 128), (7, x.busyWrap.toNat)]
  | 0x0C => x.busyCnt
  | 0x10 => pk [(0, x.errCode % 4096), (12, x.errEnd % 512), (21, x.errSide.toNat), (22, x.errValid.toNat), (24, x.errPlot % 256)]
  | _ => 0

/-- A PRT_XFR_ register written (R183, R565). -/
def xferRegW (off : Nat) (w : Word) (s : State) : State :=
  match off with
  | 0x00 =>
    if fld w 0 24 < 10 ∨ 100000 < fld w 0 24 ∨ 8 < fld w 24 4 then raise 0x281 s
    else { s with xfer := { s.xfer with cfg := w &&& 0x1FFFFFFF } }
  | 0x08 => { s with xfer := { s.xfer with busyWrap := s.xfer.busyWrap && !bitAt w 7 } }
  | 0x10 => { s with xfer := { s.xfer with errValid := s.xfer.errValid && !bitAt w 22 } }
  | _ => s

/-- FUR_IMG_VALID (R63). -/
def imgValid (s : State) (hi : Bool) : Word :=
  BitVec.ofNat 32 ((List.range 32).foldl (fun m i => if (s.img.slots.find (i + if hi then 32 else 0)).isSome then m + 2 ^ i else m) 0)

/-- A register is read at an offset by a supervisor: its value and what the read does (R19, R559-R562). -/
def regRead (sv a : Nat) (s : State) : Word × State :=
  if a < 0x010000 then (glbReg s a, s)
  else if a < 0x020000 then (if a = 0x010018 then readEvq sv s else (supReg s sv (a - 0x010000), s))
  else if a < 0x030000 then (mbxReg s ((a - 0x020000) / 0x100) (a % 0x100), s)
  else if a < 0x100000 then (if a = 0x030008 then readLost s else (fltReg s (a - 0x030000), s))
  else if a < 0x110000 then furRead ((a - 0x100000) / 0x100) (a % 0x100) s
  else if a < 0x200000 then (imgValid s (a == 0x110004), s)
  else if a < 0x280000 then (laneReg s ((a - 0x200000) / 0x40) (a % 0x40), s)
  else if a < 0x2A0000 then (portReg s ((a - 0x280000) / 0x40) (a % 0x40), s)
  else if a < 0x2C0000 then (linkWinReg s ((a - 0x2A0000) / 0x40) (a % 0x40), s)
  else if a < 0x2C1000 then (groupReg s ((a - 0x2C0000) / 0x40) (a % 0x40), s)
  else if a < 0x3C0000 then (BitVec.ofNat 32 s.lanes.trainBatch, s)
  else if a < 0x3C0100 then (rlcReg s (a - 0x3C0000), s)
  else if a < 0x3D0000 then (memReg s (a - 0x3C0100), s)
  else if a < 0x400000 then (xferReg s (a - 0x3D0000), s)
  else if a < 0x440000 then (plotReg s ((a - 0x400000) / 0x20) (a % 0x20), s)
  else if a < 0x450000 then (bedReg s ((a - 0x440000) / 0x80) (a % 0x80), s)
  else if a < 0x450100 then (poolReg s (a - 0x450000), s)
  else if a < 0x460000 then (harrowReg s (a - 0x450100), s)
  else if a < 0x470000 then (sieveReg s (a - 0x460000), s)
  else if a < 0x480000 then (dibReg s (a - 0x470000), s)
  else if a < 0x4A0000 then (trlReg s a, s)
  else if a < 0x4B0000 then (if a = 0x4A0000 then readSunLo s else (sunReg s (a - 0x4A0000), s))
  else if a < 0x4C0000 then (mrlReg s (a - 0x4B0000), s)
  else if a < 0x4D0000 then
    if 0x4C0100 ≤ a ∧ a % 0x20 = 4 then readCntLo ((a - 0x4C0100) / 0x20) s else (cntReg s (a - 0x4C0000), s)
  else if a < 0x4D1000 then (dbgReg s (a - 0x4D0000), s)
  else if a < 0x4E0000 then (siltWin s (a - 0x4D1000), s)
  else if a < 0x4F0000 then (trcWin s (a - 0x4E0000), s)
  else (pwrReg s (a - 0x4F0000), s)

/-- A port or link window is written (R328, R343, R375). -/
def linkWinW (a : Nat) (w : Word) (s : State) : State :=
  let off := a % 0x40
  if off = 0 then laneOffReady (linkCfgAt a w s)
  else
    let ls := if a < 0x2A0000 then (match portLinks s ((a - 0x280000) / 0x40) with | [l] => [l] | _ => [])
      else (windowLink s ((a - 0x2A0000) / 0x40)).toList
    ls.foldl (fun s l => linkFlags l off w s) s

/-- A register is written at an offset by a supervisor, under the register's own rule (R559-R562). -/
def regWrite (sv a : Nat) (w : Word) (s : State) : State :=
  if a < 0x010000 then glbRegW a w s
  else if a < 0x020000 then (if a = 0x010004 then supClaimW sv w s else supRegW sv (a - 0x010000) w s)
  else if a < 0x030000 then mbxWrite ((a - 0x020000) / 0x100) (a % 0x100) w s
  else if a < 0x100000 then fltRegW (a - 0x030000) w s
  else if a < 0x110000 then furWrite ((a - 0x100000) / 0x100) (a % 0x100) w s
  else if a < 0x200000 then s
  else if a < 0x280000 then laneRegW ((a - 0x200000) / 0x40) (a % 0x40) w s
  else if a < 0x2C0000 then linkWinW a w s
  else if a < 0x2C1000 then (if a % 0x40 = 0 then escanCtl ((a - 0x2C0000) / 0x40) w s else s)
  else if a < 0x3C0000 then trainCfg w s
  else if a < 0x3C0100 then rlcRegW (a - 0x3C0000) w s
  else if a < 0x3D0000 then memRegW (a - 0x3C0100) w s
  else if a < 0x400000 then xferRegW (a - 0x3D0000) w s
  else if a < 0x440000 then plotRegW ((a - 0x400000) / 0x20) (a % 0x20) w s
  else if a < 0x450000 then bedRegW ((a - 0x440000) / 0x80) (a % 0x80) w s
  else if a < 0x450100 then poolRegW (a - 0x450000) w s
  else if a < 0x460000 then harrowRegW (a - 0x450100) w s
  else if a < 0x470000 then sieveRegW (a - 0x460000) w s
  else if a < 0x480000 then dibRegW (a - 0x470000) w s
  else if a < 0x4A0000 then trlRegW a w s
  else if a < 0x4B0000 then sunRegW (a - 0x4A0000) w s
  else if a < 0x4C0000 then mrlRegW (a - 0x4B0000) w s
  else if a < 0x4D0000 then cntRegW (a - 0x4C0000) w s
  else if a < 0x4D1000 then dbgRegW (a - 0x4D0000) w s
  else if a < 0x4F0000 then s
  else pwrRegW (a - 0x4F0000) w s

/-- The even parity bit over WR, MASTER and ADDR that a request must carry (R514). -/
def reqParity (sv : Nat) (write : Bool) (a : Nat) : Bool := oddParity (BitVec.ofNat 27 (a % 2 ^ 24 + (sv % 4) * 2 ^ 24 + write.toNat * 2 ^ 26))

/-- A request whose parity is wrong is refused with status 1 and 0x8F2 (R516). -/
def parityChecked (sv : Nat) (ok : Bool) (k : State → State) (s : State) : State :=
  if ok then k s else if cpServes s sv then cpAnswer sv 1 0 (raise 0x8F2 s) else s

end Sys2Proof.Machine
end

