-- ==== Sys2Proof/Machine/Soil.lean ====
section
/-! DEFINITION. The objects of the Marl's store: soil profiles and their records, Tilth images, Icquel images, and what makes a copy
valid (R64, R65, R363, R373, R382, R409, R450-R453, R457, R459). -/

namespace Sys2Proof.Machine

/-- A little-endian field of an object. -/
def objNat (m : Memory) (a n : Nat) : Nat := leNat (m.readBytes a n)

/-- Bytes of an object that are all zero. -/
def objZero (m : Memory) (a n : Nat) : Bool := (m.readBytes a n).all (fun b => b == 0)

/-- A record of a soil profile: its type and where its body lies (R451). -/
structure SoilRec where
  type : Nat
  body : Nat
  len : Nat
  deriving DecidableEq, Repr, Inhabited

/-- The records of a profile from an offset, none when one is malformed or reaches past `limit` (R451). -/
def soilRecs (m : Memory) (limit : Nat) : Nat → Nat → Option (List SoilRec)
  | 0, _ => some []
  | k + 1, a =>
    let len := objNat m (a + 4) 4
    if limit < a + 8 + len ∨ !objZero m (a + 2) 2 then none
    else (soilRecs m limit k ((a + 8 + len + 7) / 8 * 8)).map (fun r => { type := objNat m a 2, body := a + 8, len := len } :: r)

/-- A profile's records; the signature follows them. -/
def profileRecs (m : Memory) : Option (List SoilRec) := soilRecs m (objNat m 8 4 - 96) (objNat m 28 4) 128

/-- The header checks of R451 against the block's tie-offs. -/
def soilHeaderOk (s : State) (m : Memory) : Bool :=
  let t := s.glb.ties
  objNat m 0 4 == 0x4C494F53 && objNat m 4 2 == 1 && objNat m 6 2 == 128 && decide (512 ≤ objNat m 8 4 ∧ objNat m 8 4 ≤ 1048576)
    && objNat m 16 1 == t.build.toNat && decide (objNat m 17 1 < 2) && (objNat m 17 1 == 1 || objNat m 18 2 == t.inst.toNat)
    && objZero m 32 96

/-- The bytes of a Trellis bank record's tables: the layout of R373. -/
def bankSize (s : State) : Nat := 0x1000 + 32 * linkCount s

/-- A Trellis bank from a record in the layout of R373. -/
def bankOf (s : State) (m : Memory) (a : Nat) : Bank :=
  { route := (List.range 512).map (fun d => (d, (BitVec.ofNat 32 (objNat m (a + 4 * d) 4)) &&& (if e64 s then 0xFFFFFFFF else 1))),
    mcast := (List.range 16).map (fun g => (g, BitVec.ofNat 512 (objNat m (a + 0x800 + 64 * g) 64))),
    perm := (List.range (linkCount s)).map (fun l => (l, BitVec.ofNat 256 (objNat m (a + 0x1000 + 32 * l) 32))) }

/-- The bits of a register whose Warm column reads kept and that software may write: all that a register setting may name (R451);
none for other offsets. -/
def keptMask (a : Nat) : Word :=
  if 0x200000 ≤ a ∧ a < 0x208000 then (match a % 0x40 with | 0x00 => 0x18 | 0x08 => 0x3E0000 | _ => 0)
  else if isLinkCfg a then 0x3FFFFF
  else if 0x400000 ≤ a ∧ a < 0x402000 then
    (match a % 0x20 with | 0x00 => 0xFFFF | 0x08 => 0xFFFFFFFF | 0x0C => 0xFFFFF | 0x10 => 0x1FFFF | _ => 0)
  else if 0x020000 ≤ a ∧ a < 0x020400 then
    (if a % 0x100 < 0x40 then 0xFFFFFFFF else match a % 0x100 with | 0xC0 => 2 | 0xC4 => 0xFF | _ => 0)
  else if 0x4C0100 ≤ a ∧ a < 0x4C0500 then (if a % 0x20 = 0 then 0x1FFFFFF else 0)
  else match a with
  | 0x000010 => 0x3F8
  | 0x01000C => 0xFFFF
  | 0x2C1000 => 0xF
  | 0x3C0000 => 1
  | 0x3C0100 => 0xFFFF
  | 0x3C0104 => 0x3F
  | 0x3C0108 | 0x3C010C | 0x3C0110 => 0xFFFFFFFF
  | 0x3D0000 => 0x1FFFFFFF
  | 0x450000 => 0x7FF
  | 0x470000 => 0x3FFF
  | 0x490018 => 0xFFFFFF
  | 0x490020 => 0x0FFFFFFF
  | 0x490100 => 0x1F
  | 0x4A0008 => 0x1F
  | 0x4D0010 => 3
  | 0x4D0020 | 0x4D0028 => 0xFFFFF000
  | 0x4D0024 => 0x7FFF
  | 0x4F0010 => 0x00FFFF3F
  | 0x4F0014 => 0xFF03
  | _ => 0

/-- The register settings of a record: offsets and values in order. -/
def settingsOf (m : Memory) (r : SoilRec) : List (Nat × Word) :=
  (List.range (r.len / 8)).map (fun i => (objNat m (r.body + 8 * i) 4, BitVec.ofNat 32 (objNat m (r.body + 8 * i + 4) 4)))

/-- A record is well formed (R451, R452). -/
def recOk (s : State) (m : Memory) (r : SoilRec) : Bool :=
  match r.type with
  | 0x01 => r.len == 12 && decide (objNat m r.body 4 < 4096) && decide (objNat m (r.body + 8) 4 % 2 ^ 11 ≤ 1024)
      && decide (objNat m (r.body + 8) 4 / 2 ^ 11 ≤ 256)
  | 0x02 => r.len % 2 == 0 && (List.range (r.len / 2)).all (fun i => decide (objNat m (r.body + 2 * i) 2 < 4096))
  | 0x03 | 0x04 => r.len == bankSize s + 4 && objNat m (r.body + bankSize s) 4 == (bankSum s (bankOf s m r.body)).toNat
  | 0x05 => decide (32 ≤ r.len)
  | 0x06 => r.len % 8 == 0 && (settingsOf m r).all (fun x => keptMask x.1 != 0 && (x.2 &&& ~~~keptMask x.1) == 0)
  | 0x07 => r.len == 97 && objNat m r.body 1 == 4
  | _ => false

/-- The records of a type. -/
def recsOf (m : Memory) (type : Nat) : List SoilRec := ((profileRecs m).getD []).filter (fun r => r.type == type)

/-- The key of a profile's own record 0x07. -/
def ownKey (m : Memory) : Option (List Byte) := (recsOf m 0x07).head?.map (fun r => m.readBytes r.body 97)

/-- A soil profile is valid (R451, R452). -/
def profileOk (s : State) (m : Memory) : Bool :=
  let len := objNat m 8 4
  let key := match s.mrl.store.soilKey with | some k => some k | none => ownKey m
  soilHeaderOk s m
    && (match profileRecs m with | some rs => rs.all (fun r => recOk s m r) | none => false)
    && (match key with | some k => Config.ecdsaVerify k (m.readBytes 0 (len - 96)) (m.readBytes (len - 96) 96) | none => false)

/-- An Icquel image is valid under a least security version (R453, R459). -/
def icqOk (minSvn : Nat) (m : Memory) : Bool :=
  let n := objNat m 16 4
  objNat m 0 4 == 0x4C514349 && decide (4096 ≤ n ∧ n ≤ 3145368) && objZero m 20 44 && objZero m 161 95
    && Config.sha384 (m.readBytes 64 97) == Config.romKeyDigest
    && Config.ecdsaVerify (m.readBytes 64 97) (m.readBytes 0 (256 + n)) (m.readBytes (256 + n) 96)
    && decide (minSvn ≤ objNat m 7 1)

/-- A copy of the soil profile: `b` names copy B. -/
def soilCopy (st : Store) (b : Bool) : Memory := if b then st.soilB else st.soilA
/-- A copy of Icquel. -/
def icqCopyOf (st : Store) (b : Bool) : Memory := if b then st.icqB else st.icqA

/-- The soil profile in use. -/
def soilInUse (s : State) : Memory := soilCopy s.mrl.store s.mrl.store.soilActive

/-- The active profile's least security version, zero when it is not valid. -/
def minSvn (s : State) : Nat := if profileOk s (soilInUse s) then objNat (soilInUse s) 26 2 else 0

/-- The digest of a soil profile (R461, R462). -/
def soilDigestOf (m : Memory) : BitVec 384 := Config.sha384 (m.readBytes 0 (objNat m 8 4))
/-- The digest of an Icquel image: header, code and signature (R462). -/
def icqDigestOf (m : Memory) : BitVec 384 := Config.sha384 (m.readBytes 0 (352 + objNat m 16 4))

/-- Icquel's and the profile's major versions: of what runs (R457, R462). -/
def runningAbi (s : State) : Nat := fld s.start.block5 32 16

/-- A Tilth image whose bytes `rd` gives, with its slot; none when its header fails a check of R64 or it does not fit (R65). -/
def parseImage (rd : Nat → Nat → List Byte) (room : Nat) : Option (Nat × Image) :=
  let h := rd 0 32
  let f := fun a n => leNat ((h.drop a).take n)
  let count := f 8 4
  let whole := 32 + 32 * count
  if room < 32 ∨ f 0 4 ≠ 0x48544C54 ∨ count = 0 ∨ 2 ^ 20 < count ∨ room < whole ∨ 64 ≤ f 12 1 ∨ 2 ≤ f 14 1 ∨ f 15 1 ≠ 0
      ∨ f 20 10 ≠ 0 ∨ f 30 2 ≠ (crc16 (h.take 30)).toNat then none
  else
    let body := rd 32 (32 * count)
    if f 16 4 ≠ (crc32 body).toNat then none
    else some (f 12 1, { plot := f 13 1, shared := f 14 1 == 1, abiMajor := f 4 2,
                         cmds := (List.range count).map (fun i => BitVec.ofNat 256 (leNat ((body.drop (32 * i)).take 32))),
                         bytes := h ++ body })

/-- The Tilth image of a record 0x05. -/
def recImage (m : Memory) (r : SoilRec) : Option (Nat × Image) := parseImage (fun a n => m.readBytes (r.body + a) n) r.len

/-- An image takes its slot (R63). -/
def putImage (slot : Nat) (x : Image) (s : State) : State := { s with img := { s.img with slots := s.img.slots.set slot x } }

end Sys2Proof.Machine
end

