-- ==== Sys2Proof/Machine/Icquel.lean ====
section
/-! DEFINITION. Icquel's mailbox service: requests and replies, ECHO, image installs, SOIL_UPDATE, MEASURE with its SPDM subset,
MARL_READ and relays (R63, R65, R66, R402-R407, R422, R452, R453, R458, R459, R461-R465, R469, R471, R476-R479, R483). -/

namespace Sys2Proof.Machine

/-- The words of a message that its header counts, header first (R406). -/
def msgWords (ws : List Word) : List Word := ws.take (1 + fld (ws.headD 0) 16 4)

/-- Word `k` of a message; an absent word is zero. -/
def wordAt (ws : List Word) (k : Nat) : Word := (msgWords ws).getD k 0

/-- A reply: the request's command and tag, a status, and the words that follow (R406). -/
def mbxReply (ws : List Word) (status : Nat) (body : List Word) : List Word :=
  pk [(0, fld (ws.headD 0) 0 16), (16, body.length % 16), (20, status % 4096)] :: body

/-- Words as bytes. -/
def wordsBytes (ws : List Word) : List Byte := (ws.map (fun w => leBytes 4 w.toNat)).flatten

/-- Bytes as words, padded with zeros. -/
def bytesWords (bs : List Byte) : List Word :=
  (List.range (ceilDiv bs.length 4)).map (fun i => BitVec.ofNat 32 (leNat ((bs.drop (4 * i)).take 4)))

/-- The payload bytes of a fragment: words 2 to 15 (R459, R463). -/
def fragBytes (ws : List Word) : List Byte := wordsBytes ((msgWords ws).drop 2)

/-- A mbxRefusal: the reply's status is the code, which is noted (R406, R408, R466). -/
def mbxRefusal (ws : List Word) (code : Nat) (s : State) : List Word × State := (mbxReply ws code [], raise code s)

/-- A fragment of a byte string, 56 bytes from an offset, behind a word with total length and offset (R463). -/
def mbxFragment (bs : List Byte) (off : Nat) : List Word :=
  pk [(0, bs.length % 65536), (16, off % 65536)] :: bytesWords ((bs.drop off).take 56)

/-! ### SPDM -/

/-- Measurement block 4: the digest of the 64 image-slot digests (R462). -/
def imageDigest (s : State) : BitVec 384 :=
  Config.sha384 ((List.range 64).flatMap (fun k =>
    match s.img.slots.find k with
    | some x => leBytes 48 (Config.sha384 x.bytes).toNat
    | none => List.replicate 48 0))

/-- The value of a measurement block with its value type (R462). -/
def blockValue (s : State) (i : Nat) : Nat × List Byte :=
  match i with
  | 1 => (0x00, leBytes 48 Config.romDigest.toNat)
  | 2 => (0x01, leBytes 48 s.start.icqDigest.toNat)
  | 3 => (0x03, leBytes 48 s.start.soilDigest.toNat)
  | 4 => (0x03, leBytes 48 (imageDigest s).toNat)
  | _ => (0x82, leBytes 8 s.start.block5.toNat)

/-- A measurement block: index, specification, size, value type, value size, value (R462). -/
def measBlock (s : State) (i : Nat) : List Byte :=
  let v := blockValue s i
  leBytes 1 i ++ [0x01] ++ leBytes 2 (3 + v.2.length) ++ leBytes 1 v.1 ++ leBytes 2 v.2.length ++ v.2

/-- An SPDM ERROR (R464). -/
def spdmError (code data : Nat) : List Byte := [0x12, 0x7F] ++ leBytes 1 code ++ leBytes 1 data

/-- GET_VERSION: one entry, 1.2; the state starts anew (R463, R464). -/
def spdmVersion (req : List Byte) : Spdm :=
  let r : List Byte := [0x10, 0x04, 0, 0, 0, 1, 0x00, 0x12]
  { phase := 1, rsp := r, transcript := req ++ r }

/-- GET_CAPABILITIES: signed measurements, the public key identity, and 1,024 bytes (R464). -/
def spdmCaps (req : List Byte) (s : State) (x : Spdm) : Spdm :=
  let r := [0x12, 0x61, 0, 0, 0] ++ ((Config.spdmOpen 1 s.free) ++ [0]).take 1 ++ [0, 0] ++ leBytes 4 0x10010
    ++ leBytes 4 1024 ++ leBytes 4 1024
  { x with phase := 2, rsp := r, transcript := x.transcript ++ req ++ r }

/-- NEGOTIATE_ALGORITHMS: ECDSA P-384, SHA-384, the DMTF measurement specification (R464). -/
def spdmAlgs (req : List Byte) (x : Spdm) : Spdm :=
  let r := [0x12, 0x63, 0, 0] ++ leBytes 2 36 ++ [1, 0] ++ leBytes 4 4 ++ leBytes 4 0x80 ++ leBytes 4 2 ++ List.replicate 16 0
  { x with phase := 3, rsp := r, transcript := x.transcript ++ req ++ r, vca := (x.transcript ++ req ++ r).length }

/-- GET_MEASUREMENTS: the count, one block or all, signed under the alias key when asked (R464). -/
def spdmMeas (req : List Byte) (s : State) (x : Spdm) : Spdm :=
  let b := fun i => (req.getD i 0).toNat
  let sign := (b 2).testBit 0
  let sel := b 3
  if (sign && b 36 != 0xF) || !(decide (sel ≤ 5) || sel == 0xFF) then { x with rsp := spdmError 0x07 0xE0 }
  else
    let blocks := if sel = 0 then [] else if sel = 0xFF then [1, 2, 3, 4, 5] else [sel]
    let record := (blocks.map (measBlock s)).flatten
    let nonce := ((Config.spdmOpen 2 s.free) ++ List.replicate 32 0).take 32
    let body := [0x12, 0x60] ++ leBytes 1 (if sel = 0 then 5 else 0) ++ [0x0F] ++ leBytes 1 blocks.length ++ leBytes 3 record.length
      ++ record ++ nonce ++ [0, 0]
    let seen := x.transcript ++ req ++ body
    if sign then
      { x with rsp := body ++ (Config.aliasSign s.start.icqDigest s.start.soilDigest seen ++ List.replicate 96 0).take 96,
               transcript := x.transcript.take x.vca }
    else { x with rsp := body, transcript := seen }

/-- An SPDM request is processed (R464). -/
def spdmRun (req : List Byte) (s : State) (x : Spdm) : Spdm :=
  let code := (req.getD 1 0).toNat
  let err := fun c => { x with rsp := spdmError c (if c = 0x07 then code else 0) }
  match code with
  | 0x84 => spdmVersion req
  | 0xE1 => if x.phase = 1 then spdmCaps req s x else err 0x04
  | 0xE3 => if x.phase = 2 then spdmAlgs req x else err 0x04
  | 0xE0 => if x.phase = 3 then spdmMeas req s x else err 0x04
  | _ => err 0x07

/-- MEASURE (R463): the SPDM state is that of mailbox `i`. -/
def measure (i : Nat) (ws : List Word) (s : State) : List Word × State :=
  let x := (getMbx s i).spdm
  let off := fld (wordAt ws 1) 16 16
  match fld (wordAt ws 1) 0 2 with
  | 0 =>
    let bs := fragBytes ws
    let x := if off = 0 then { x with req := [], reqLen := 0 } else x
    let x := { x with req := x.req.writeAll (cellsAt off bs), reqLen := max x.reqLen (off + bs.length) }
    let x := if bitAt (wordAt ws 1) 2 then { spdmRun (x.req.readBytes 0 x.reqLen) s x with req := [], reqLen := 0 } else x
    (mbxReply ws 0 [], takeFree (modMbx i (fun m => { m with spdm := x }) s))
  | 1 => (mbxReply ws 0 (mbxFragment x.rsp off), s)
  | 2 => (mbxReply ws 0 (mbxFragment s.start.identity off), s)
  | _ => mbxRefusal ws 0x681 s

/-! ### Marl records -/

/-- The numbers that a record's body holds, for a body whose bytes the manual does not lay out (log 23). -/
def bodyNats (b : MarlBody) : List Nat :=
  match b with
  | .fault l e c k u n d ctx =>
    [l.code, e.toNat, c.toNat, k.code, u, (match n with | none => 0 | some x => x + 1), d] ++ ctx.map BitVec.toNat
  | .stepAbort a g n c x m => [a, g, n, c, x, m.toNat]
  | .reset c x ss => [c, x] ++ ss.flatMap (fun o => [o.bed, o.gen, o.step, o.chunk])
  | .start w n c f i p u => [w.toNat, n, c, f, i.toNat, p.toNat, u]
  | .safe c => [c]
  | .dumpPart d p n t => [d, p, n, t]
  | .summary _ | .log _ | .trace _ => []

/-- The body bytes of a record (R471, R474, R476, R483). -/
def bodyBytes (kind : Nat) (b : MarlBody) : List Byte :=
  match b with
  | .summary es => es.flatMap (fun e =>
      leBytes 4 (e.1 % 4096 + (match e.2.1 with | some p => (p % 256) * 4096 | none => 2 ^ 20)) ++ leBytes 4 e.2.2)
  | .log es => es.flatMap (fun e => leBytes 64 e.toNat)
  | .trace rs => rs.flatMap (fun e => leBytes 32 e.toNat)
  | _ => (Config.marlBody kind (bodyNats b)).take 462

/-- The 512 bytes of a slot (R469). -/
def slotBytes (x : MarlSlot) : List Byte :=
  let r := x.record
  let body := bodyBytes r.kind r.body
  let head := leBytes 1 r.kind ++ [1] ++ leBytes 2 body.length ++ leBytes 4 x.seq ++ leBytes 8 r.time ++ leBytes 2 (r.code % 4096)
    ++ leBytes 2 r.layer ++ leBytes 2 r.op ++ leBytes 1 (r.plot.getD 0)
    ++ leBytes 1 (r.unlocked.toNat + 2 * r.plot.isNone.toNat) ++ leBytes 4 r.object ++ leBytes 2 r.part ++ leBytes 2 r.parts
  let data := (head ++ body ++ List.replicate 462 0).take 494
  data ++ leBytes 13 (Config.bchParity data).toNat ++ [0] ++ List.replicate 4 (if x.committed then 0xA5 else 0x00)

/-- A crash-dump record whose dump is not wholly in the Marl (R475, R479). -/
def dumpCut (s : State) (r : MarlRec) : Bool :=
  r.kind == 0x10 && decide ((s.mrl.slots.filter (fun e => e.2.record.kind == 0x10 && e.2.record.object == r.object)).length < r.parts)

/-- MARL_READ, read: 56 bytes of a slot, with what the read met (R478, R479). -/
def marlReadSlot (ws : List Word) (met : MarlReadout) (s : State) : List Word × State :=
  let slot := fld (wordAt ws 2) 0 15
  let off := fld (wordAt ws 2) 16 9
  match s.mrl.slots.find slot with
  | none => (mbxReply ws 0 (0 :: List.replicate 14 0), s)
  | some x =>
    let word := fun (corr : Nat) (bad : Bool) =>
      pk [(0, x.record.kind % 256), (8, x.committed.toNat), (9, corr), (13, bad.toNat), (14, (dumpCut s x.record).toNat)]
    let data := fun (bs : List Byte) => bytesWords (((bs ++ List.replicate 64 0).drop off).take 56)
    let lost := modMrl (fun m => { m with slots := m.slots.set slot { x with bad := true }, uncorr := satInc 65535 m.uncorr })
    match met with
    | .ok n =>
      if n ≤ 8 then
        (mbxReply ws 0 (word n false :: data (slotBytes x)),
         modMrl (fun m => { m with corr := m.corr + BitVec.ofNat 32 n, slots := m.slots.set slot { x with corrected := n } }) s)
      else (mbxReply ws 0 (word 0 true :: data (Config.marlBody 0x100 [slot, s.free])), raise 0x901 (takeFree (lost s)))
    | .uncorrectable => (mbxReply ws 0 (word 0 true :: data (Config.marlBody 0x100 [slot, s.free])), raise 0x901 (takeFree (lost s)))

/-- The committed record of a kind with the lowest seq at or above a number (R479). -/
def findRec (s : State) (kind seq : Nat) : Option (Nat × Nat) :=
  s.mrl.slots.foldl (fun best e =>
    if e.2.committed && !e.2.bad && e.2.record.kind == kind && decide (seq ≤ e.2.seq) then
      match best with
      | some b => if b.2 ≤ e.2.seq then best else some (e.1, e.2.seq)
      | none => some (e.1, e.2.seq)
    else best) none

/-- MARL_READ, find (R479). -/
def marlFindRec (ws : List Word) (s : State) : List Word :=
  match findRec s (fld (wordAt ws 2) 0 8) (wordAt ws 3).toNat with
  | some (slot, seq) => mbxReply ws 0 [pk [(0, slot), (15, 1)], BitVec.ofNat 32 seq]
  | none => mbxReply ws 0 [0, 0]

/-! ### Objects -/

/-- A checked object goes into the inactive copy, which becomes the active one (R450, R452, R459). -/
def commitObject (kind : Nat) (m : Memory) (s : State) : State :=
  wakeDom (marlDom s) (modMrl (fun x =>
    let st := x.store
    { x with store :=
        if kind = 1 then
          let st := if st.soilActive then { st with soilA := m } else { st with soilB := m }
          { st with soilActive := !st.soilActive, soilKey := if (ownKey m).isSome then ownKey m else st.soilKey, partialObj := [], partialKind := 0 }
        else
          let st := if st.icqActive then { st with icqA := m } else { st with icqB := m }
          { st with icqActive := !st.icqActive, partialObj := [], partialKind := 0 } }) s)

/-- A whole object passes the checks of step 6 or 7; a profile's sequence is at least the active one's (R459). -/
def objectOk (kind : Nat) (m : Memory) (s : State) : Bool :=
  if kind = 1 then profileOk s m && (!profileOk s (soilInUse s) || decide (objNat (soilInUse s) 12 4 ≤ objNat m 12 4))
  else icqOk (minSvn s) m

/-- SOIL_UPDATE (R459). -/
def soilUpdate (ws : List Word) (s : State) : List Word × State :=
  let w := wordAt ws 1
  let kind := fld w 0 2
  let off := fld w 8 24
  let bs := fragBytes ws
  let st := s.mrl.store
  let room := if kind = 1 then 2 ^ 20 else 3 * 2 ^ 20
  if kind = 0 ∨ kind = 3 ∨ (!bitAt w 2 ∧ st.partialKind ≠ kind) ∨ room < off + bs.length then mbxRefusal ws 0x713 s
  else
    let obj := Memory.writeAll (if bitAt w 2 then [] else st.partialObj) (cellsAt off bs)
    if !bitAt w 3 then
      (mbxReply ws 0 [], modMrl (fun x => { x with store := { x.store with partialObj := obj, partialKind := kind } }) s)
    else if objectOk kind obj s then (mbxReply ws 0 [], commitObject kind obj s)
    else mbxRefusal ws 0x713 (modMrl (fun x => { x with store := { x.store with partialObj := [], partialKind := 0 } }) s)

/-! ### Taking and answering requests -/

/-- A supervisor's request as words. -/
def reqWords (s : State) (i : Nat) : List Word := (List.range 16).map (fun k => (getMbx s i).req.at k)

/-- The command of a request (R406). -/
def reqCmd (ws : List Word) : Nat := fld (ws.headD 0) 0 8

/-- Icquel serves a command in the block's state: all of them in RUN, those of R458 in the hold state, two in the Safe state (R422). -/
def servesCmd (s : State) (cmd : Nat) : Bool :=
  if s.flt.safe then cmd == 0x04 || cmd == 0x05
  else if s.start.state = 1 then cmd == 0x01 || cmd == 0x03 || cmd == 0x04 || cmd == 0x05
  else true

/-- From step 9 until RUN other commands than those of R458 stay posted (R465). -/
def staysPosted (s : State) (cmd : Nat) : Bool := s.start.state == 0 && !(cmd == 0x01 || cmd == 0x03 || cmd == 0x04 || cmd == 0x05)

/-- A command is the owner's alone (R406). -/
def ownerOnly (cmd : Nat) : Bool := cmd == 0x02 || cmd == 0x03 || cmd == 0x06

/-- A mailbox holds a request that Icquel may take now. -/
def canTake (s : State) (i : Nat) : Bool :=
  let m := getMbx s i
  m.reqGo && m.taken.isNone && m.owed.isNone && icqRuns s && !staysPosted s (reqCmd (reqWords s i))

/-- Icquel takes a request, clearing go, and replies (R403, R406). `k` is what an allowed command does. -/
def takeReq (i : Nat) (mine : List Word → Bool) (k : List Word → State → List Word × State) (s : State) : State :=
  let ws := reqWords s i
  if !(decide (i < 4) && canTake s i && mine ws) then s
  else
    let s := modMbx i (fun m => { m with reqGo := false }) s
    let r := if !servesCmd s (reqCmd ws) then mbxRefusal ws 0x681 s
      else if ownerOnly (reqCmd ws) && s.sup.owner != some i then mbxRefusal ws 0x671 s
      else k ws s
    postReply i r.1 r.2

/-- The op field of a MEASURE or MARL_READ (R463, R479). -/
def reqOp (ws : List Word) : Nat := fld (wordAt ws 1) 0 2

/-- ECHO, or a command that is not listed (R406). -/
def doEcho (ws : List Word) (s : State) : List Word × State :=
  if reqCmd ws = 0x01 then (mbxReply ws 0 ((msgWords ws).drop 1), s) else mbxRefusal ws 0x681 s

/-- A listed command other than ECHO (R406). -/
def otherCmd (ws : List Word) : Bool := decide (2 ≤ reqCmd ws ∧ reqCmd ws ≤ 6)

/-- IMAGE_INSTALL: refused, installed, or waiting for its slot (R63, R65, R66, R406). -/
def doInstall (i : Nat) (s : State) : State :=
  let ws := reqWords s i
  if !(decide (i < 4) && canTake s i && reqCmd ws == 0x02) then s
  else
    let s := modMbx i (fun m => { m with reqGo := false }) s
    let n := fld (ws.headD 0) 16 4
    let off := (wordAt ws 1).toNat + (wordAt ws 2).toNat * 2 ^ 32
    let post := fun (code : Nat) (s : State) => (let r := mbxRefusal ws code s; postReply i r.1 r.2)
    if !servesCmd s 0x02 ∨ n = 0 ∨ 2 < n then post 0x681 s
    else if s.sup.owner ≠ some i then post 0x671 s
    else if sramSize s ≤ off then post 0x722 s
    else match parseImage (fun a n => sramRead s (off + a) n) (sramSize s - off) with
      | none => post 0x722 s
      | some (slot, x) =>
        if x.abiMajor ≠ runningAbi s then post 0x722 s
        else if slotInUse s slot then
          modMbx i (fun m => { m with taken := some (.image slot (ws.headD 0)) })
            { s with img := { s.img with waiting := s.img.waiting.set slot x } }
        else postReply i (mbxReply ws 0 []) (putImage slot x s)

/-- A mailbox whose IMAGE_INSTALL waited for a slot is answered (R66, R406). -/
def imageAnswer (slot i : Nat) (s : State) : State :=
  match (getMbx s i).taken with
  | some (.image k h) => if k = slot then postReply i (mbxReply [h] 0 []) (modMbx i (fun m => { m with taken := none }) s) else s
  | _ => s

/-- A waiting image replacement takes effect, and its replies are posted (R66). -/
def replaceImage (slot : Nat) (s : State) : State :=
  match s.img.waiting.find slot with
  | none => s
  | some x =>
    if slotInUse s slot then s
    else
      let s := putImage slot x { s with img := { s.img with waiting := s.img.waiting.del slot } }
      (List.range 4).foldl (fun s i => imageAnswer slot i s) s

/-! ### Relays -/

/-- The pseudo-mailbox that keeps the SPDM state and a waiting MARL_READ of a node whose requests are relayed (log 92). -/
def relayBox (node : Nat) : Nat := 16 + node

/-- A message goes to a node as one or two fragments of a type (R407). -/
def sendRelay (dst type origin : Nat) (ws : List Word) (s : State) : State :=
  let bs := (wordsBytes (msgWords ws)).take 56
  let part := fun (k : Nat) => leNat ((bs.drop (40 * k)).take 40)
  let frag := fun (k : Nat) (last : Bool) => [(16, 1, type), (17, 1, k + 2 * last.toNat), (18, 2, origin), (20, 40, part k)]
  if bs.length ≤ 40 then sendMgmt dst (frag 0 true) s
  else sendMgmt dst (frag 1 true) (sendMgmt dst (frag 0 false) s)

/-- RELAY: words 2 to 15 go to the destination's Icquel (R407). -/
def doRelay (i : Nat) (s : State) : State :=
  let ws := reqWords s i
  if !(decide (i < 4) && canTake s i && reqCmd ws == 0x06) then s
  else
    let s := modMbx i (fun m => { m with reqGo := false }) s
    if !servesCmd s 0x06 then (let r := mbxRefusal ws 0x681 s; postReply i r.1 r.2)
    else if s.sup.owner ≠ some i then (let r := mbxRefusal ws 0x671 s; postReply i r.1 r.2)
    else
      let dst := fld (wordAt ws 1) 0 10
      let s := modMbx i (fun m => { m with taken := some (.relay (ws.headD 0) dst s.clk none none) }) s
      sendRelay dst 0x10 (selfNode s) ((msgWords ws).drop 2) s

/-- A relayable command is served here; MARL_READ's read waits for the Marl (R406, R407). -/
def serveRelayed (node : Nat) (ws : List Word) (s : State) : State :=
  let answer := fun (r : List Word × State) => sendRelay node 0x11 node r.1 r.2
  if !servesCmd s (reqCmd ws) then answer (mbxRefusal ws 0x681 s)
  else match reqCmd ws with
    | 0x01 => answer (doEcho ws s)
    | 0x04 => answer (measure (relayBox node) ws s)
    | 0x05 =>
      if reqOp ws = 1 then answer (marlFindRec ws s, s)
      else if reqOp ws = 0 then
        wakeDom (marlDom s) (modMbx (relayBox node) (fun m => { m with reqGo := true, req := rspWords (msgWords ws) }) s)
      else answer (mbxRefusal ws 0x681 s)
    | _ => answer (mbxRefusal ws 0x681 s)

/-- The 40 bytes of a fragment. -/
def fragOf (p : Packet) : List Byte := leBytes 40 (p.ar 20 40)

/-- A relayed request's fragment arrives (R407): the request is served when it is whole. -/
def takeRelayed (l : Nat) (p : Packet) (s : State) : State :=
  mgmtArrival l p 0x10 (fun s =>
    let node := p.ar 18 2 % 1024
    let k := p.ar 17 1 % 2
    if !icqRuns s || (getMbx s (relayBox node)).reqGo then (1, s)
    else
      let s := { s with mgt := { s.mgt with relayIn := s.mgt.relayIn.set (2 * node + k) (fragOf p, (p.ar 17 1).testBit 1) } }
      let whole := match s.mgt.relayIn.find (2 * node), s.mgt.relayIn.find (2 * node + 1) with
        | some (a, true), _ => some a
        | some (a, false), some (b, _) => some (a ++ b)
        | _, _ => none
      match whole with
      | none => (0, s)
      | some bs =>
        let s := { s with mgt := { s.mgt with relayIn := (s.mgt.relayIn.del (2 * node)).del (2 * node + 1) } }
        (0, serveRelayed node (bytesWords bs) s)) s

/-- A relay's answer is complete: it goes to the supervisor as the words that follow the header (R407; log 92). -/
def relayDone (i : Nat) (hdr : Word) (bs : List Byte) (s : State) : State :=
  postReply i (mbxReply [hdr] 0 (msgWords (bytesWords bs))) (modMbx i (fun m => { m with taken := none }) s)

/-- A fragment of a relay's answer arrives (R407). -/
def takeRelayReply (l : Nat) (p : Packet) (s : State) : State :=
  mgmtArrival l p 0x11 (fun s =>
    (0, (List.range 4).foldl (fun s i =>
      match (getMbx s i).taken with
      | some (.relay hdr dst since a b) =>
        if dst ≠ p.src then s
        else if (p.ar 17 1) = 2 then relayDone i hdr (fragOf p) s
        else
          let a := if p.ar 17 1 % 2 = 0 then some (fragOf p) else a
          let b := if p.ar 17 1 % 2 = 1 then some (fragOf p) else b
          match a, b with
          | some x, some y => relayDone i hdr (x ++ y) s
          | _, _ => modMbx i (fun m => { m with taken := some (.relay hdr dst since a b) }) s
      | _ => s) s)) s

/-- No answer to a relay has come in 100 ms (R407). -/
def relayLate (i : Nat) (s : State) : State :=
  match (getMbx s i).taken with
  | some (.relay hdr _ since _ _) =>
    if decide (i < 4) && passed s since 100000000 then
      let r := mbxRefusal [hdr] 0x682 (modMbx i (fun m => { m with taken := none }) s)
      postReply i r.1 r.2
    else s
  | _ => s

/-- MARL_READ's read, of a supervisor or of a relaying node: it waits while the Marl is off (R479, R548). -/
def doMarlRead (i : Nat) (met : MarlReadout) (s : State) : State :=
  let ws := reqWords s i
  let mine := reqCmd ws == 0x05 && reqOp ws != 1
  if !(domOn s (marlDom s)) then (if (getMbx s i).reqGo && mine then wakeDom (marlDom s) s else s)
  else
    let k := fun (ws : List Word) (s : State) => if reqOp ws = 0 then marlReadSlot ws met s else mbxRefusal ws 0x681 s
    if i < 4 then takeReq i (fun ws => reqCmd ws == 0x05 && reqOp ws != 1) k s
    else if (getMbx s i).reqGo && icqRuns s && decide (16 ≤ i) then
      let r := k ws (modMbx i (fun m => { m with reqGo := false }) s)
      sendRelay (i - 16) 0x11 (i - 16) r.1 r.2
    else s

end Sys2Proof.Machine
end

