-- ==== Sys2Proof/Machine/Mailboxes.lean ====
section
/-! DEFINITION. The meanings of mailbox writes, Icquel's requests and relays (R66, R402-R407, R411, R459, R463, R479). -/

namespace Sys2Proof.Machine

/-- An image slot that a replacement waits for comes free (R66). -/
def execImageReplacement (slot : Nat) (s : State) : Host.Outcome State Fault Refusal :=
  act (replaceImage slot) s

/-- A write of MBX_REQ_CTL with go set (R403, R411). -/
def execMbxReqCtlGo (sv i : Nat) (w : Word) (s : State) : Host.Outcome State Fault Refusal :=
  act (fun s => if bitAt w 0 && decide (i < 4) then cpWrite sv (0x020040 + 0x100 * i) (reqGoW i w) s else s) s

/-- A write of MBX_RSP_CTL that clears go (R403, R411). -/
def execMbxRspCtlGoClear (sv i : Nat) (w : Word) (s : State) : Host.Outcome State Fault Refusal :=
  act (fun s => if bitAt w 0 && decide (i < 4) then cpWrite sv (0x0200C0 + 0x100 * i) (rspCtlW i w) s else s) s

/-- Icquel takes an ECHO, or a command that is not listed (R406). -/
def execEcho (i : Nat) (s : State) : Host.Outcome State Fault Refusal :=
  act (takeReq i (fun ws => !otherCmd ws) doEcho) s

/-- Icquel takes an IMAGE_INSTALL (R63-R66, R406). -/
def execImageInstall (i : Nat) (s : State) : Host.Outcome State Fault Refusal :=
  act (doInstall i) s

/-- Icquel takes a SOIL_UPDATE (R459). -/
def execSoilUpdate (i : Nat) (s : State) : Host.Outcome State Fault Refusal :=
  act (takeReq i (fun ws => reqCmd ws == 0x03) soilUpdate) s

/-- Icquel takes a MEASURE request fragment, or one with an op that is not listed (R463, R464). -/
def execMeasureRequestFragment (i : Nat) (s : State) : Host.Outcome State Fault Refusal :=
  act (takeReq i (fun ws => reqCmd ws == 0x04 && (reqOp ws == 0 || reqOp ws == 3)) (measure i)) s

/-- Icquel takes a MEASURE response fragment read (R463). -/
def execMeasureResponseRead (i : Nat) (s : State) : Host.Outcome State Fault Refusal :=
  act (takeReq i (fun ws => reqCmd ws == 0x04 && reqOp ws == 1) (measure i)) s

/-- Icquel takes a MEASURE identity read (R463). -/
def execMeasureIdentityRead (i : Nat) (s : State) : Host.Outcome State Fault Refusal :=
  act (takeReq i (fun ws => reqCmd ws == 0x04 && reqOp ws == 2) (measure i)) s

/-- Icquel takes a MARL_READ read (R479). -/
def execMarlRead (i : Nat) (r : MarlReadout) (s : State) : Host.Outcome State Fault Refusal :=
  act (doMarlRead i r) s

/-- Icquel takes a MARL_READ find (R479). -/
def execMarlFind (i : Nat) (s : State) : Host.Outcome State Fault Refusal :=
  act (takeReq i (fun ws => reqCmd ws == 0x05 && reqOp ws == 1) (fun ws s => (marlFindRec ws s, s))) s

/-- Icquel takes a RELAY (R407). -/
def execRelay (i : Nat) (s : State) : Host.Outcome State Fault Refusal :=
  act (doRelay i) s

/-- A relayed request's fragment arrives (R407). -/
def execRelayRequest (l : Nat) (p : Packet) (s : State) : Host.Outcome State Fault Refusal :=
  run (takeRelayed l p) s

/-- A fragment of a relay's answer arrives (R407). -/
def execRelayReply (l : Nat) (p : Packet) (s : State) : Host.Outcome State Fault Refusal :=
  run (takeRelayReply l p) s

/-- No answer to a relay has come in 100 ms (R407). -/
def execRelayTimeout (i : Nat) (s : State) : Host.Outcome State Fault Refusal :=
  act (relayLate i) s

end Sys2Proof.Machine
end

