-- ==== Sys2Proof/Machine/MemPorts.lean ====
section
/-! DEFINITION. The meanings of the memory ports' responses, credits and timers (R518-R534). -/

namespace Sys2Proof.Machine

/-- A fault of the outbound channels, noted and captured by MEM_ERR with core zero (R539, R567). -/
def outboundFault (code port : Nat) (s : State) : State := memErr code port 0 (portFault code none port s)

/-- The OR kind that answers a request (R521). -/
def AccKind.answer (k : AccKind) : Nat :=
  match k with | .read => 0 | .write => 1 | .lockRead => 2 | .unlockWrite => 3

/-- The credits kept for an unlock write that will not be sent are free (R527). -/
def freeResv (port : Nat) (a : Access) (s : State) : State :=
  if a.kind = .lockRead then modPort port (fun p => { p with resv := p.resv - 1 }) s else s

/-- The bytes that an access moved count for its port (R491; log 75). -/
def countMoved (port : Nat) (a : Access) (s : State) : State :=
  match a.kind with
  | .read | .lockRead => countSrc 0xA port 128 s
  | .write | .unlockWrite => countSrc 0xB port ((List.range 128).filter (fun i => a.be.getLsbD i)).length s

/-- An outstanding access ends in error: its tag is free, and no unlock write follows a lock read (R521, R527). -/
def failAcc (port tag : Nat) (a : Access) (s : State) : State :=
  finishAcc a true 0 (freeResv port a (modPort port (fun p => { p with tags := p.tags.filter (fun e => e.1 != tag) }) s))

/-- Lock data has arrived: the unlock write goes out on the same tag, whatever the compare outcome (R527). -/
def unlockOf (port tag : Nat) (a : Access) (job : Nat) (l : Line) (s : State) : State :=
  let new := match atomNewLine s job l with | some (l', _, _) => l' | none => l
  sendUnlock port tag { a with kind := .unlockWrite, data := new, be := BitVec.allOnes 128 } (pushFin (.lock job false l) s)

/-- An access is answered (R521, R525, R527). -/
def endAcc (port tag : Nat) (a : Access) (l : Line) (s : State) : State :=
  let s := countMoved port a s
  match a.kind, a.what with
  | .lockRead, .lock job => unlockOf port tag a job l s
  | _, _ => finishAcc a false l (modPort port (fun p => { p with tags := p.tags.filter (fun e => e.1 != tag) }) s)

/-- An OR beat of a kind arrives (R521, R525, R532, R538): a port that is down takes none. -/
def orBeat (kind port : Nat) (b : OrBeat) (s : State) : State :=
  let p := s.mp.ports.at port
  let tag := b.tag.toNat
  if !(e64 s && decide (port < 16) && p.up && b.kind.toNat == kind) then s
  else match p.tags.lookup tag with
    | none =>
      if p.quar.contains tag then modPort port (fun p => { p with quar := p.quar.filter (fun t => t != tag) }) s
      else outboundFault 0x246 port s
    | some t =>
      if t.acc.kind.answer ≠ kind then outboundFault 0x246 port s
      else if !orParityOk b then failAcc port tag t.acc (outboundFault 0x247 port s)
      else if b.status then failAcc port tag t.acc s
      else endAcc port tag t.acc b.data s

/-- Read data arrives on OR (R521). -/
def execMpReadData (port : Nat) (b : OrBeat) (s : State) : Host.Outcome State Fault Refusal :=
  run (orBeat 0 port b) s

/-- A write response arrives on OR (R521). -/
def execMpWriteResponse (port : Nat) (b : OrBeat) (s : State) : Host.Outcome State Fault Refusal :=
  run (orBeat 1 port b) s

/-- Lock data arrives on OR (R527). -/
def execMpLockData (port : Nat) (b : OrBeat) (s : State) : Host.Outcome State Fault Refusal :=
  run (orBeat 2 port b) s

/-- An unlock response arrives on OR (R527). -/
def execMpUnlockResponse (port : Nat) (b : OrBeat) (s : State) : Host.Outcome State Fault Refusal :=
  run (orBeat 3 port b) s

/-- The fabric returns a credit (R524). -/
def mpCredit (port : Nat) (od : Bool) (s : State) : State :=
  let p := s.mp.ports.at port
  if !(e64 s && decide (port < 16) && p.up) then s
  else if 1023 ≤ (if od then p.od else p.oq) then outboundFault 0x245 port s
  else if od then modPort port (fun p => { p with od := p.od + 1, gotOd := satInc 32 p.gotOd }) s
  else modPort port (fun p => { p with oq := p.oq + 1, gotOq := satInc 32 p.gotOq }) s

/-- A credit arrives (R524). -/
def execMpCredit (port : Nat) (od : Bool) (s : State) : Host.Outcome State Fault Refusal :=
  run (mpCredit port od) s

/-- A request has had no answer within resp_limit: it ends in error and its tag is quarantined (R532). -/
def respExpiry (port tag : Nat) (s : State) : State :=
  match (s.mp.ports.at port).tags.lookup tag with
  | none => s
  | some t =>
    if passed s t.since (fld s.mp.cfg 1 15 * 1000) then
      modPort port (fun p => { p with quar := tag :: p.quar }) (failAcc port tag t.acc (outboundFault 0x248 port s))
    else s

/-- A request's response limit passes (R532). -/
def execMpRespLimitExpiry (port tag : Nat) (s : State) : Host.Outcome State Fault Refusal :=
  run (respExpiry port tag) s

/-- Fewer than 32 initial credits of a kind have come 10 us after the port came up (R524). -/
def initialExpiry (port : Nat) (s : State) : State :=
  let p := s.mp.ports.at port
  if e64 s && decide (port < 16) && p.up && passed s p.upSince 10000 && !p.noted249 && (decide (p.gotOq < 32) || decide (p.gotOd < 32)) then
    memErr 0x249 port 0 (raiseEv { code := 0x249, level := .l3, unit := port } (modPort port (fun p => { p with noted249 := true }) s))
  else s

/-- The time for a port's initial credits passes (R524). -/
def execMpInitialCreditExpiry (port : Nat) (s : State) : Host.Outcome State Fault Refusal :=
  act (initialExpiry port) s

/-- MP_CLK has been out of range for 10 us: every port goes down (R518). -/
def mpClkLost (s : State) : State :=
  if e64 s ∧ s.pwr.mpClkOk then
    raise 0x24B ((List.range 16).foldl (fun s p => modPort p (fun x => { x with up := false }) s)
      { s with pwr := { s.pwr with mpClkOk := false } })
  else s

/-- MP_CLK has been out of range for 10 us (R518). -/
def execMpClkRangeExpiry (s : State) : Host.Outcome State Fault Refusal :=
  act mpClkLost s

end Sys2Proof.Machine
end

