-- ==== Sys2Proof/Machine/Observe.lean ====
section
/-! DEFINITION. The meanings of Marl, Silt, counter and Sundial events and of writes and reads of their registers (R470-R496). -/

namespace Sys2Proof.Machine

/-- A Marl write ends (R470, R478). -/
def execMarlCommitDone (r : MarlWrite) (s : State) : Host.Outcome State Fault Refusal :=
  act (marlCommit r) s

/-- The Sundial enters another second (R474). -/
def execSundialSecond (s : State) : Host.Outcome State Fault Refusal :=
  act secondTurn s

/-- A write of DBG_CTL with crash_dump set (R475). -/
def execCrashDump (sv : Nat) (w : Word) (s : State) : Host.Outcome State Fault Refusal :=
  act (fun s => if bitAt w 0 then cpWrite sv 0x4D0000 (dbgCtlW w) s else s) s

/-- A write of DBG_CTL with missed_clr set (R496). -/
def execMissedClr (sv : Nat) (w : Word) (s : State) : Host.Outcome State Fault Refusal :=
  act (fun s => if bitAt w 10 then cpWrite sv 0x4D0000 (dbgCtlW w) s else s) s

/-- A write of DBG_SILT_SEL (R482). -/
def execDbgSiltSel (sv : Nat) (w : Word) (s : State) : Host.Outcome State Fault Refusal :=
  act (cpWrite sv 0x4D0004 (siltSelW w)) s

/-- A Silt ring has been frozen for 10 ms (R482). -/
def execSiltFreezeExpiry (s : State) : Host.Outcome State Fault Refusal :=
  act siltThaw s

/-- A write of CNT_CTL with snap set (R493). -/
def execSnap (sv : Nat) (w : Word) (s : State) : Host.Outcome State Fault Refusal :=
  act (fun s => if bitAt w 0 then cpWrite sv 0x4C0000 (cntCtlW w) s else s) s

/-- A write of CNT_CTL with clear set (R496). -/
def execCntClear (sv : Nat) (w : Word) (s : State) : Host.Outcome State Fault Refusal :=
  act (fun s => if bitAt w 1 then cpWrite sv 0x4C0000 (cntCtlW w) s else s) s

/-- A read of CNT_LO of a counter (R492). -/
def execCntLo (sv k : Nat) (s : State) : Host.Outcome State Fault Refusal :=
  act (fun s => if k < 32 then cpRead sv (0x4C0104 + 0x20 * k) (readCntLo k) s else s) s

/-- A read of SUN_TIME_LO (R496). -/
def execSunTimeLo (sv : Nat) (s : State) : Host.Outcome State Fault Refusal :=
  act (cpRead sv 0x4A0000 readSunLo) s

/-- A write of MRL_FLOOD with rearm set (R473). -/
def execRearm (sv : Nat) (w : Word) (s : State) : Host.Outcome State Fault Refusal :=
  act (fun s => if bitAt w 0 then cpWrite sv 0x4B0004 rearmFlood s else s) s

/-- Icquel writes a log entry (R476). -/
def execFirmwareLogEntry (severity source code : Nat) (text : BitVec 384) (s : State) : Host.Outcome State Fault Refusal :=
  act (firmwareLog severity source code text) s

/-- The exchange period of the Sundial has passed (R489). -/
def execSundialSyncTick (s : State) : Host.Outcome State Fault Refusal :=
  act syncTick s

/-- A sync arrives (R489). -/
def execSync (l : Nat) (p : Packet) (t : Nat) (s : State) : Host.Outcome State Fault Refusal :=
  run (takeSync l p t) s

/-- A sync reply arrives (R489, R490). -/
def execSyncReply (l : Nat) (p : Packet) (t : Nat) (s : State) : Host.Outcome State Fault Refusal :=
  run (takeSyncReply l p t) s

/-- No permitted partner has replied for 10 ms (R490). -/
def execHoldoverExpiry (s : State) : Host.Outcome State Fault Refusal :=
  act holdoverLate s

/-- A write of SUN_CFG (R490, R496). -/
def execSunCfg (sv : Nat) (w : Word) (s : State) : Host.Outcome State Fault Refusal :=
  act (cpWrite sv 0x4A0008 (setSource (fld w 0 5))) s

end Sys2Proof.Machine
end

