-- ==== Sys2Proof/Machine/Plots.lean ====
section
/-! DEFINITION. The meanings of plot actions, ownership, heartbeats and the event queue (R381-R401). -/

namespace Sys2Proof.Machine

/-- A write of a plot's GLB_PLOT_CTL whose acting bit is the given one (R409). -/
def plotCtlAt (sv p : Nat) (w : Word) (acts : Bool) (s : State) : State :=
  if p < 256 ∧ acts then cpWrite sv (0x400000 + 0x20 * p + 4) (plotCtlW p w) s else s

/-- GLB_PLOT_CTL.open (R381). -/
def execOpen (sv p : Nat) (w : Word) (s : State) : Host.Outcome State Fault Refusal :=
  run (plotCtlAt sv p w (bitAt w 0 && !bitAt w 1 && !bitAt w 2)) s

/-- GLB_PLOT_CTL.teardown (R386). -/
def execTeardown (sv p : Nat) (w : Word) (s : State) : Host.Outcome State Fault Refusal :=
  run (plotCtlAt sv p w (bitAt w 1)) s

/-- GLB_PLOT_CTL.reset (R390). -/
def execPlotReset (sv p : Nat) (w : Word) (s : State) : Host.Outcome State Fault Refusal :=
  run (plotCtlAt sv p w (bitAt w 2 && !bitAt w 1)) s

/-- A plot's drain bound passes (R389). -/
def execDrainBoundExpiry (p : Nat) (s : State) : Host.Outcome State Fault Refusal :=
  run (drainBound p) s

/-- A teardown or plot reset completes (R386, R390). -/
def execPlotDrainComplete (p : Nat) (s : State) : Host.Outcome State Fault Refusal :=
  run (drainComplete p) s

/-- A plot's accesses are outstanding 100 ms after its drain bound (R424). -/
def execPlotDrainHangExpiry (p : Nat) (s : State) : Host.Outcome State Fault Refusal :=
  act (drainHang p) s

/-- A write of SUP_CLAIM whose acting bit is the given one (R410). -/
def claimAt (sv : Nat) (w : Word) (acts : Bool) (s : State) : State :=
  if acts then cpWrite sv 0x010004 (supClaimW sv w) s else s

/-- SUP_CLAIM.claim (R395). -/
def execClaim (sv : Nat) (w : Word) (s : State) : Host.Outcome State Fault Refusal :=
  act (claimAt sv w (bitAt w 0 && !bitAt w 1 && !bitAt w 2 && !bitAt w 3)) s

/-- SUP_CLAIM.release (R395). -/
def execRelease (sv : Nat) (w : Word) (s : State) : Host.Outcome State Fault Refusal :=
  act (claimAt sv w (bitAt w 1)) s

/-- SUP_CLAIM.handover (R397). -/
def execHandover (sv : Nat) (w : Word) (s : State) : Host.Outcome State Fault Refusal :=
  act (claimAt sv w (bitAt w 3 && !bitAt w 1 && !bitAt w 2)) s

/-- SUP_CLAIM.accept (R397). -/
def execAccept (sv : Nat) (w : Word) (s : State) : Host.Outcome State Fault Refusal :=
  act (claimAt sv w (bitAt w 2 && !bitAt w 1)) s

/-- A handover passes its 100 ms (R397). -/
def execHandoverExpiry (s : State) : Host.Outcome State Fault Refusal :=
  act handoverLate s

/-- The owner's heartbeat (R396). -/
def execSupHeartbeat (sv : Nat) (w : Word) (s : State) : Host.Outcome State Fault Refusal :=
  act (cpWrite sv 0x010008 (supRegW sv 0x08 w)) s

/-- The owner's heartbeat interval passes (R396). -/
def execHeartbeatExpiry (s : State) : Host.Outcome State Fault Refusal :=
  act heartbeatLate s

/-- SUP_EVQ is read (R401). -/
def execSupEvq (sv : Nat) (s : State) : Host.Outcome State Fault Refusal :=
  act (cpRead sv 0x010018 (readEvq sv)) s

end Sys2Proof.Machine
end

