-- ==== Sys2Proof/Machine/Power.lean ====
section
/-! DEFINITION. The meanings of power requests, the power handshake, gating, throttling and clock events (R502-R518, R545-R558). -/

namespace Sys2Proof.Machine

/-- A write of PWR_DOM_REQ with go set (R552, R558). -/
def execPwrDomReq (sv : Nat) (w : Word) (s : State) : Host.Outcome State Fault Refusal :=
  run (fun s => if bitAt w 8 then cpWrite sv 0x4F000C (domReqW w) s else s) s

/-- PWR_ACK of a domain is taken at a level (R508, R509). -/
def execPwrAck (d : Nat) (level : Bool) (s : State) : Host.Outcome State Fault Refusal :=
  run (powerAck d level) s

/-- A domain has been idle for idle_us (R548, R553). -/
def execSelfGateIdleExpiry (d : Nat) (s : State) : Host.Outcome State Fault Refusal :=
  run (selfGate d) s

/-- THERM_WARN_N is taken at a level (R508, R556). -/
def execThermWarnN (level : Bool) (s : State) : Host.Outcome State Fault Refusal :=
  act (thermPin level) s

/-- VDROOP_N is taken at a level (R508, R556). -/
def execVdroopN (level : Bool) (s : State) : Host.Outcome State Fault Refusal :=
  act (droopPin level) s

/-- THERM_WARN_N has been low for longer than therm_limit (R556). -/
def execThermLimitExpiry (s : State) : Host.Outcome State Fault Refusal :=
  act thermLate s

/-- The 1 us after VDROOP_N rose are over (R556). -/
def execDroopHoldExpiry (s : State) : Host.Outcome State Fault Refusal :=
  act droopOver s

/-- The reference PLL has been out of lock for 1 us (R504). -/
def execRefPllLockLoss (s : State) : Host.Outcome State Fault Refusal :=
  act refLost s

/-- A core PLL has been out of lock for 1 us (R557). -/
def execCorePllLockLoss (pll : Nat) (s : State) : Host.Outcome State Fault Refusal :=
  act (coreLost pll) s

/-- CP_CLK has been absent for 10 us (R517). -/
def execCpClkAbsent (s : State) : Host.Outcome State Fault Refusal :=
  act cpClkLost s

/-- CP_CLK is there again (R517). -/
def execCpClkReturn (s : State) : Host.Outcome State Fault Refusal :=
  act (modPwr (fun p => { p with cpClk := true })) s

/-- A register behind the control port has not answered in time (R516): status 3 and 0x8F1. -/
def execCpAnswerTimeout (sv : Nat) (_write : Bool) (addr : BitVec 24) (s : State) : Host.Outcome State Fault Refusal :=
  act (fun s => if cpServes s sv then cpGate sv addr.toNat (fun s => cpAnswer sv 3 0 (raise 0x8F1 s)) s else s) s

end Sys2Proof.Machine
end

