-- ==== Sys2Proof/Machine/Registers.lean ====
section
/-! DEFINITION. The meanings of control-port accesses to registers without a row of their own (R18, R19, R514-R516, R559-R565). -/

namespace Sys2Proof.Machine

/-- A write arrives with its parity: that of the request, then that of the data (R514, R516). -/
def writeAccess (sv a : Nat) (w : Word) (par : BitVec 2) (s : State) : State :=
  parityChecked sv (par.getLsbD 0 == reqParity sv true a && par.getLsbD 1 == oddParity w) (cpWrite sv a (regWrite sv a w)) s

/-- A read arrives with its parity (R514, R516). -/
def readAccess (sv a : Nat) (par : Bool) (s : State) : State :=
  parityChecked sv (par == reqParity sv false a) (cpRead sv a (regRead sv a)) s

/-- A control-port write (R565). -/
def execRegisterWrite (sv : Nat) (addr : BitVec 24) (w : Word) (par : BitVec 2) (s : State) : Host.Outcome State Fault Refusal :=
  run (writeAccess sv addr.toNat w par) s

/-- A control-port read (R18, R19, R48). -/
def execRegisterRead (sv : Nat) (addr : BitVec 24) (par : Bool) (s : State) : Host.Outcome State Fault Refusal :=
  run (readAccess sv addr.toNat par) s

end Sys2Proof.Machine
end

