-- ==== Sys2Proof/Machine/Resets.lean ====
section
/-! DEFINITION. The meanings of reset requests, reset inputs and power (R425-R431, R447, R454, R505, R506). -/

namespace Sys2Proof.Machine

/-- A write of GLB_RESET_CTL in which a bit is set (R447). -/
def resetWrite (sv k : Nat) (w : Word) (s : State) : State :=
  if bitAt w k then cpWrite sv 0x000010 (resetCtlW w) s else s

/-- A write of GLB_RESET_CTL.warm (R427, R447). -/
def execWarm (sv : Nat) (w : Word) (s : State) : Host.Outcome State Fault Refusal :=
  run (resetWrite sv 0 w) s

/-- A write of GLB_RESET_CTL.cold (R427, R447, R460). -/
def execCold (sv : Nat) (w : Word) (s : State) : Host.Outcome State Fault Refusal :=
  run (resetWrite sv 1 w) s

/-- A write of GLB_RESET_CTL.dom_cycle (R428, R447). -/
def execDomCycle (sv : Nat) (w : Word) (s : State) : Host.Outcome State Fault Refusal :=
  run (resetWrite sv 2 w) s

/-- A requested reset acts (R427). -/
def execResetAct (s : State) : Host.Outcome State Fault Refusal :=
  act resetActs s

/-- VDD ramps with cold reset held (R447, R460, R506): everything is at its cold value, and the cause is a power-on. -/
def execPowerOn (s : State) : Host.Outcome State Fault Refusal :=
  act powerLost s

/-- COLD_RST_N is taken at a level (R454, R505). -/
def execColdRstN (level : Bool) (ties : Ties) (s : State) : Host.Outcome State Fault Refusal :=
  act (coldInput level ties) s

/-- WARM_RST_N is taken low (R427, R505). -/
def execWarmRstN (s : State) : Host.Outcome State Fault Refusal :=
  run warmInput s

/-- WARM_RST_N is taken high again (R505). -/
def execWarmRstNRelease (s : State) : Host.Outcome State Fault Refusal :=
  act warmReleased s

/-- A pulse too short for the filter (R505): noted once the block has reached RUN. -/
def execResetPulseRejected (s : State) : Host.Outcome State Fault Refusal :=
  act (fun s => if decide (2 ≤ s.start.state) && s.glb.coldPin then raise 0x802 s else s) s

/-- VDD has gone (R427, R450). -/
def execPowerLoss (s : State) : Host.Outcome State Fault Refusal :=
  act powerLost s

end Sys2Proof.Machine
end

