-- ==== Sys2Proof/Machine/Routes.lean ====
section
/-! DEFINITION. The meanings of management messages, routing events and Trellis and Rake register writes (R346-R378). -/

namespace Sys2Proof.Machine

/-- A reach notice arrives (R347). -/
def execReachNotice (l : Nat) (p : Packet) (s : State) : Host.Outcome State Fault Refusal := run (takeReach l p) s

/-- A peer notice arrives (R353). -/
def execPeerNotice (l : Nat) (p : Packet) (s : State) : Host.Outcome State Fault Refusal := run (takePeer l p) s

/-- A Rake map request arrives (R371). -/
def execRakeMapRequest (l : Nat) (p : Packet) (s : State) : Host.Outcome State Fault Refusal := run (takeRakeRequest l p) s

/-- A management acknowledgement arrives (R354). -/
def execManagementAcknowledgement (l : Nat) (p : Packet) (s : State) : Host.Outcome State Fault Refusal := run (mgmtAcked l p) s

/-- A management NAK arrives (R354). -/
def execManagementNak (l : Nat) (p : Packet) (s : State) : Host.Outcome State Fault Refusal := run (mgmtNaked l p) s

/-- A management message is sent again (R354). -/
def execManagementResend (id : Nat) (s : State) : Host.Outcome State Fault Refusal := act (mgmtResend id) s

/-- A hint level decays (R358). -/
def execHintDecay (d p : Nat) (s : State) : Host.Outcome State Fault Refusal := act (decayHint d p) s

/-- A cap window ends (R356). -/
def execCapWindowEnd (l : Nat) (s : State) : Host.Outcome State Fault Refusal := act (endCapWindow l) s

/-- A supervisor writes a word of a Trellis table (R363). -/
def execTrellisTableWrite (sv : Nat) (addr : BitVec 24) (w : Word) (s : State) : Host.Outcome State Fault Refusal :=
  act (fun s => if 0x480000 ≤ addr.toNat ∧ addr.toNat ≤ 0x48FFFF then cpWrite sv addr.toNat (trellisWrite addr.toNat w) s else s) s

/-- A write of TRL_ARB (R378). -/
def execTrlArb (sv : Nat) (w : Word) (s : State) : Host.Outcome State Fault Refusal := act (cpWrite sv 0x490020 (arbWrite w)) s

/-- A write of TRL_SWAP_CTL whose bit `k` is set. -/
def swapCtlRow (k sv : Nat) (w : Word) (s : State) : State := if bitAt w k then cpWrite sv 0x49000C (swapCtl w) s else s

/-- A write of TRL_SWAP_CTL with arm set (R364). -/
def execArm (sv : Nat) (w : Word) (s : State) : Host.Outcome State Fault Refusal := act (swapCtlRow 10 sv w) s

/-- A write of TRL_SWAP_CTL with disarm set (R367). -/
def execDisarm (sv : Nat) (w : Word) (s : State) : Host.Outcome State Fault Refusal := act (swapCtlRow 12 sv w) s

/-- A write of TRL_SWAP_CTL with now set (R366). -/
def execNow (sv : Nat) (w : Word) (s : State) : Host.Outcome State Fault Refusal := act (swapCtlRow 11 sv w) s

/-- The Sundial reaches the time of an armed swap (R364). -/
def execSwapTime (s : State) : Host.Outcome State Fault Refusal := act swapAtTime s

/-- The guard of a swap ends (R364). -/
def execGuardEnd (s : State) : Host.Outcome State Fault Refusal := act endGuard s

/-- A write of TRL_CTL for drain (R366). -/
def execDrain (sv : Nat) (w : Word) (s : State) : Host.Outcome State Fault Refusal := act (cpWrite sv 0x490000 (trlCtl w)) s

/-- A drain is complete (R366). -/
def execDrainDone (s : State) : Host.Outcome State Fault Refusal := act endDrain s

/-- A drain passes its limit (R366). -/
def execDrainLimitExpiry (s : State) : Host.Outcome State Fault Refusal := act drainLate s

/-- Rake samples (R370). -/
def execRakeSample (s : State) : Host.Outcome State Fault Refusal := act rakSample s

/-- A Rake window closes (R370). -/
def execRakeWindowClose (s : State) : Host.Outcome State Fault Refusal := act rakClose s

/-- A write of RAK_POP (R371). -/
def execRakPop (sv : Nat) (w : Word) (s : State) : Host.Outcome State Fault Refusal :=
  act (cpWrite sv 0x490108 (fun s => if bitAt w 0 then rakPopOne s else s)) s

end Sys2Proof.Machine
end

