-- ==== Sys2Proof/Machine/StartOps.lean ====
section
/-! DEFINITION. The start sequence: steps, bounds, skips, the hold state, failed starts, management wakes and the start record
(R2-R4, R382, R409, R433, R450-R467, R473, R475, R490, R533, R535, R551). -/

namespace Sys2Proof.Machine

/-- The bound of a start step in ns (R454): cold, then warm. -/
def startBound (s : State) (n : Nat) : Nat :=
  let big := !e64 s
  match n, s.start.warm with
  | 1, _ => 500000
  | 2, _ => 1000
  | 3, _ => 1000000
  | 4, false => 8400000
  | 4, true => 200000
  | 5, _ => 1000000
  | 6, _ => 3000000
  | 7, _ => 4000000
  | 8, _ => 100000
  | 9, _ => 100000
  | 10, false => if big then 100000000 else 5000000
  | 10, true => if big then 4000000 else 1000000
  | 11, false => if big then 10000000 else 3000000
  | 11, true => 500000
  | 12, _ => 3000000
  | 13, _ => 3000000
  | 14, false => if big then 208800000 else 26100000
  | 14, true => 40000
  | 15, _ => 1000000
  | _, _ => 200000

/-- The step that runs: the next of a start, or the one of a management wake (R551); zero when none does. -/
def curStep (s : State) : Nat :=
  if s.start.state = 0 ∧ s.start.running then s.start.step + 1
  else if s.start.state = 2 ∧ domOn s (mgmtDom s) then s.start.wake
  else 0

/-- A start has taken this long, in us, saturating (R467). -/
def startUs (s : State) : Nat := min 0xFFFFFFFF ((s.clk - s.start.since) / 1000)

/-- The start record (R454, R460, R471): the step, the fault that failed it or zero, and the failed-start count. -/
def startRecord (step code : Nat) (s : State) : State :=
  queueRec { kind := 5, time := 0, code := code,
             body := .start s.start.warm step code s.start.failed s.start.icqCopy s.start.soilCopy (startUs s) } s

/-- A start record waits or is being written. -/
def startQueued (s : State) : Bool :=
  s.mrl.queue.any (fun r => r.kind == 5) || (match s.mrl.cur with | some c => c.record.kind == 5 | none => false)

/-- A start fails (R460): its record, its crash dump, the count, and a cold start; after the third failure 0x742. -/
def failStart (code : Nat) (s : State) : State :=
  let s := takeDump code (startRecord (curStep s) code s)
  let n := s.start.failed + 1
  if 3 ≤ n then raise 0x742 (raise code (modStart (fun x => { x with failed := 3, running := false, wake := 0 }) s))
  else
    let s := actCold s.glb.ties s.glb.warmPin (fun _ => true) (modStart (fun x => { x with failed := n }) s)
    raise code (modMrl (fun m => { m with dumpLeft := (m.queue.filter (fun r => r.kind == 0x10)).length }) s)

/-- A domain that is off is asked for, once the controller has ended an earlier power-off (R508). -/
def needDom (d : Nat) (s : State) : State :=
  let x := getDom s d
  if x.req then s else if x.ack then modDom d (fun x => { x with wakeWait := true }) s else raiseReq d s

/-- The hold state (R458): management and Marl powered, every other domain off, the lanes Fallow with their transmitters off, and
an L3 entry that takes no action. -/
def holdBlock (code : Nat) (s : State) : State :=
  let n := curStep s
  let s := modStart (fun x => { x with state := 1, step := n, holdCode := code, running := false, wake := 0, timeUs := startUs s }) s
  let s := (List.range (domCount s)).foldl (fun s d =>
    if d = mgmtDom s ∨ d = marlDom s then needDom d s
    else if (getDom s d).req then lowerReq d (domLost d s) else s) s
  let s := { s with lanes := { s.lanes with lane := s.lanes.lane.mapVals (fun _ x => { x with fallow := true }) } }
  raise code s

/-- The tie-offs pass R3 and R4. -/
def tiesOk (t : Ties) : Bool := t.build == 1 || (t.build == 2 && decide (t.inst.toNat < 32))

/-- The full scan of step 4 leaves records that do not decode out of the index (R454, R478). -/
def scanMarl (s : State) : State :=
  let bad := (s.mrl.slots.filter (fun e => e.2.bad)).length
  (List.range bad).foldl (fun s _ => raise 0x901 s) (modMrl (fun m => { m with uncorr := min 65535 bad }) s)

/-- Step 6 (R454, R459): the active soil profile copy, else the other one; none when the block holds. -/
def pickSoil (s : State) : State × Bool :=
  let st := s.mrl.store
  let use := fun (b : Bool) (s : State) =>
    let m := soilCopy s.mrl.store b
    (modStart (fun x => { x with soilCopy := b, soilSeq := BitVec.ofNat 32 (objNat m 12 4), soilDigest := soilDigestOf m,
                                 privKeys := (recsOf m 0x02).flatMap (fun r => (List.range (r.len / 2)).map (fun i => objNat m (r.body + 2 * i) 2)) })
      (modMrl (fun x => { x with store := { x.store with soilActive := b } }) s), true)
  if profileOk s (soilCopy st st.soilActive) then use st.soilActive s
  else
    let s := raise 0x711 s
    if profileOk s (soilCopy st (!st.soilActive)) then use (!st.soilActive) s
    else (modStart (fun x => { x with soilDigest := 0 }) s, false)

/-- The values that the device key endorses: blocks 1, 2, 3 and 5 (R461). -/
def endorsed (s : State) : List Byte :=
  Config.aliasKey s.start.icqDigest s.start.soilDigest ++ (blockValue s 1).2 ++ (blockValue s 2).2 ++ (blockValue s 3).2 ++ (blockValue s 5).2

/-- The identity object: device key, alias key, signature (R461, R463). -/
def identityOf (s : State) : List Byte :=
  (Config.deviceKey ++ List.replicate 97 0).take 97 ++ (Config.aliasKey s.start.icqDigest s.start.soilDigest ++ List.replicate 97 0).take 97
    ++ (Config.deviceSign (endorsed s) ++ List.replicate 96 0).take 96

/-- Icquel of a digest runs: what is measured, its version, and the endorsement (R454, R461, R462). `m` is the image. -/
def measured (m : Memory) (digest : BitVec 384) (s : State) : State :=
  let s := modStart (fun x => { x with
    icqDigest := digest,
    icqVer := pk [(0, objNat m 6 1), (8, objNat m 5 1), (16, objNat m 4 1), (24, objNat m 7 1)],
    block5 := BitVec.ofNat 64 ((glbId s).toNat + objNat m 8 2 * 2 ^ 32 + objNat m 12 2 * 2 ^ 48) }) s
  modStart (fun x => { x with identity := identityOf s }) s

/-- Step 7 (R454, R459, R460): the active Icquel copy, on the second retry the other one if it is valid; none when the block
holds. -/
def pickIcq (s : State) : State × Bool :=
  let st := s.mrl.store
  let ok := fun b => icqOk (minSvn s) (icqCopyOf st b)
  let use := fun (b : Bool) (s : State) =>
    let m := icqCopyOf s.mrl.store b
    (measured m (icqDigestOf m) (modStart (fun x => { x with icqCopy := b }) (modMrl (fun x => { x with store := { x.store with icqActive := b } }) s)), true)
  if s.start.state = 0 ∧ s.start.failed = 2 ∧ ok (!st.icqActive) then use (!st.icqActive) s
  else if ok st.icqActive then use st.icqActive s
  else
    let s := raise 0x720 s
    if ok (!st.icqActive) then use (!st.icqActive) s else (measured [] 0 s, false)

/-- The checks of step 8 in order (R457): the fault and the two values found, or none. -/
def versionFault (s : State) : Option (Nat × Nat × Nat) :=
  let q := icqCopyOf s.mrl.store s.mrl.store.icqActive
  let p := soilInUse s
  let abi := objNat q 8 2
  let others := objNat p 20 2 :: (recsOf p 0x05).map (fun r => objNat p (r.body + 4) 2)
  match others.find? (fun v => v != abi) with
  | some v => some (0x730, abi, v)
  | none =>
    if objNat q 12 2 ≠ objNat p 22 2 then some (0x731, objNat q 12 2, objNat p 22 2)
    else if objNat q 14 2 < objNat p 24 2 then some (0x731, objNat q 14 2, objNat p 24 2)
    else none

/-- Step 9: Icquel starts with no SPDM state, and its heartbeat with it (R445, R463). -/
def icqStarts (s : State) : State :=
  modFlt (fun x => { x with beatSince := s.clk }) { s with mbx := s.mbx.mapVals (fun _ m => { m with spdm := {} }) }

/-- Step 10 of a cold start: self-test, then every byte of buffer SRAM is zeroed (R433, R454, R460). -/
def selfTest (r : StepReport) (s : State) : State × Bool :=
  if r.ramBad || r.badBanks.any (fun b => !(fenceable s 3).contains b) then (s, false)
  else (sramZero (r.badBanks.eraseDups.foldl (fun s b => fenceBank b (note 0xF13 none .bank b s)) s), true)

/-- The memory ports come into service (R524, R533). -/
def portsUp (s : State) : State :=
  (List.range (if e64 s then 16 else 0)).foldl (fun s p => payCredits p (modPort p (fun x => { x with up := true, upSince := s.clk }) s)) s

/-- Records 0x03 and 0x04 with the bank each loads. -/
def bankRecs (s : State) : List (Bool × SoilRec) :=
  let p := soilInUse s
  (recsOf p 0x03).map (fun r => (false, r)) ++ (recsOf p 0x04).map (fun r => (true, r))

/-- Both checksums equal the records' CRCs (R454). -/
def sumsEqual (s : State) : Bool :=
  let p := soilInUse s
  (bankRecs s).all (fun e => objNat p (e.2.body + bankSize s) 4 == (bankSum s (if e.1 then s.trl.bankB else s.trl.bankA)).toNat)

/-- Step 12: the banks are loaded (R363, R454). -/
def loadBanks (s : State) : State :=
  let p := soilInUse s
  let s := (bankRecs s).foldl (fun s e =>
    let b := bankOf s p e.2.body
    { s with trl := if e.1 then { s.trl with bankB := b } else { s.trl with bankA := b } }) s
  modStart (fun x => { x with trellisLoaded := true }) s

/-- Step 13 (R382, R409, R451, R454, R466): plot 0, images and register settings. -/
def applyProfile (s : State) : State :=
  let p := soilInUse s
  let zero : Plot := { state := .active, priv := true }
  let own := match (recsOf p 0x01).head? with
    | some r => { zero with key := objNat p r.body 4 % 4096, tallyBase := objNat p (r.body + 4) 2, tallyQuota := objNat p (r.body + 6) 2,
                            bedQuota := objNat p (r.body + 8) 4 % 2 ^ 11, furQuota := objNat p (r.body + 8) 4 / 2 ^ 11 % 512 }
    | none => zero
  let s := { s with plots := s.plots.set 0 own }
  let s := (recsOf p 0x05).foldl (fun s r => match recImage p r with | some (k, x) => putImage k x s | none => raise 0x722 s) s
  (recsOf p 0x06).foldl (fun s r => (settingsOf p r).foldl (fun s x => regWrite 0 x.1 x.2 s) s) s

/-- Step 14 begins (R454, R455): on a warm start only lanes with stored coefficients train now. -/
def trainAll (s : State) : State :=
  (List.range (laneCount s)).foldl (fun s q => if s.start.warm && !(getLane s q).stored then s else startTraining q .detect s) s

/-- Step 14's bound has passed: the lanes of a warm start without stored coefficients train in full (R455). -/
def trainRest (s : State) : State :=
  if s.start.warm then (List.range (laneCount s)).foldl (fun s q => if (getLane s q).stored then s else startTraining q .detect s) s else s

/-- Every lane that may train is up or held down. -/
def lanesTrained (s : State) : Bool :=
  (List.range (laneCount s)).all (fun q => !mayTrain s q || (getLane s q).tstate == .up || (getLane s q).tstate == .held)

/-- What a step of a start does as it begins. -/
def enterStep (n : Nat) (s : State) : State :=
  match n with
  | 3 => needDom (marlDom s) (needDom (mgmtDom s) s)
  | 11 => if s.start.warm then s else (List.range (domCount s)).foldl (fun s d => needDom d s) s
  | 14 => trainAll s
  | 15 => beginLock s
  | 16 => startRecord 16 0 s
  | _ => s

/-- The last step done once what a warm start skips after step `n` is skipped (R454, R455). -/
def skipped (s : State) (n : Nat) : Nat :=
  if !s.start.warm then n else if n = 12 then 13 else if n = 11 ∧ sumsEqual s then 13 else n

/-- The start ends in RUN (R399, R454, R460, R467). -/
def toRun (s : State) : State :=
  let us := startUs s
  modFlt (fun x => { x with beatSince := s.clk })
    (modSup (fun x => { x with hbSince := s.clk, hbRun := x.hbLimit })
      (modStart (fun x => { x with state := 2, step := 16, running := false, failed := 0, timeUs := us }) s))

/-- A step of a start has done its work: the next one begins. -/
def advance (n : Nat) (s : State) : State :=
  if n = 16 then toRun s
  else
    let k := skipped s n
    enterStep (k + 1) (modStart (fun x => { x with step := k, stepSince := s.clk }) s)

/-- A step of a management wake has done its work (R551). -/
def wakeOn (n : Nat) (s : State) : State :=
  modStart (fun x => { x with wake := match n with | 3 => 5 | 9 => 0 | _ => n + 1, stepSince := s.clk }) s

/-- The step is done: the next step of a start or of a wake. -/
def startOn (n : Nat) (s : State) : State := if s.start.state = 0 then advance n s else wakeOn n s

/-- Everything that a domain step waits for is on (R454). -/
def domsUp (s : State) (ds : List Nat) : Bool := ds.all (fun d => domOn s d && (getDom s d).ack)

/-- A step ends (R454): what the hardware found in it decides. -/
def finishStep (r : StepReport) (s : State) : State :=
  let n := curStep s
  match n with
  | 0 => s
  | 1 =>
    if s.glb.ties.tstEn then modStart (fun x => { x with step := 1, running := false }) s
    else if tiesOk s.glb.ties then startOn 1 s else holdBlock 0x710 s
  | 2 => if s.start.failed = 3 then raise 0x742 (modStart (fun x => { x with running := false }) s) else startOn 2 s
  | 3 =>
    if r.domBad then failStart 0x741 s
    else if domsUp s [mgmtDom s] && (s.start.state == 2 || domsUp s [marlDom s]) then startOn 3 s else s
  | 4 => startOn 4 (if s.start.warm then s else scanMarl s)
  | 5 => if r.pufOk then startOn 5 s else failStart 0x725 s
  | 6 => let x := pickSoil s; if x.2 then startOn 6 x.1 else holdBlock 0x712 x.1
  | 7 => let x := pickIcq s; if x.2 then startOn 7 x.1 else holdBlock 0x721 x.1
  | 8 =>
    match versionFault s with
    | some (code, a, b) => holdBlock code (modStart (fun x => { x with ver := pk [(0, a), (16, b)] }) s)
    | none => startOn 8 s
  | 9 => startOn 9 (icqStarts s)
  | 10 =>
    if s.start.warm then startOn 10 s
    else
      let x := selfTest r s
      if x.2 then startOn 10 x.1 else failStart 0x741 s
  | 11 =>
    if s.start.warm then startOn 11 (portsUp s)
    else if r.domBad then failStart 0x741 s
    else if domsUp s (List.range (domCount s)) then startOn 11 (portsUp s) else s
  | 12 => startOn 12 (loadBanks s)
  | 13 => startOn 13 (applyProfile s)
  | 14 => if lanesTrained s then startOn 14 (trainRest s) else s
  | 15 => if s.sun.state = .locked then startOn 15 (endLock s) else s
  | _ => if startQueued s then s else startOn 16 s

/-- A step passes its bound (R460): a start fails, for another step than 14 and 15. -/
def stepLate (s : State) : State :=
  let n := curStep s
  if n ≠ 0 ∧ n ≠ 14 ∧ n ≠ 15 ∧ passed s s.start.stepSince (startBound s n) then failStart 0x740 s else s

/-- FLT_ICQ_BEAT has not advanced for 10 ms after step 9 (R460). -/
def icqStalled (s : State) : State :=
  if s.start.state = 0 ∧ s.start.running ∧ 9 ≤ s.start.step ∧ passed s s.flt.beatSince 10000000 then failStart 0x740 s else s

/-- Step 14's bound passes (R456): the start proceeds, and untrained lanes go on training. -/
def trainLate (s : State) : State :=
  if curStep s = 14 ∧ s.start.state = 0 ∧ passed s s.start.stepSince (startBound s 14) then startOn 14 (trainRest s) else s

/-- Step 15's bound passes (R456, R490): 0x921 unless the Sundial is locked then, and the start proceeds. -/
def lockLate (s : State) : State :=
  if curStep s = 15 ∧ s.start.state = 0 ∧ passed s s.start.stepSince (startBound s 15) then
    let s := endLock s
    startOn 15 (noteIf (s.sun.state != .locked) 0x921 s)
  else s

/-- Icquel advances FLT_ICQ_BEAT every 1 ms from step 9 on (R445). -/
def beat (s : State) : State :=
  if icqRuns s && decide (9 ≤ s.start.step) && passed s s.flt.beatSince 1000000
  then modFlt (fun x => { x with icqBeat := x.icqBeat + 1, beatSince := s.clk }) s else s

/-- PWR_ACK has not followed PWR_REQ for 1 ms (R509): a start fails with 0x741, else a domain cycle has failed. -/
def ackTimeout (d : Nat) (s : State) : State :=
  if !ackDue s d then s
  else if s.start.state = 0 ∧ s.start.running then failStart 0x741 s
  else ackLate d s

end Sys2Proof.Machine
end

