-- ==== Sys2Proof/Machine/Starts.lean ====
section
/-! DEFINITION. The meanings of start events (R445, R454-R460, R509, R551). -/

namespace Sys2Proof.Machine

/-- A start step completes (R454). -/
def execStartStepDone (r : StepReport) (s : State) : Host.Outcome State Fault Refusal :=
  run (finishStep r) s

/-- A start step passes its bound (R460). -/
def execStartStepTimeout (s : State) : Host.Outcome State Fault Refusal :=
  run stepLate s

/-- FLT_ICQ_BEAT has stood still for 10 ms in a start (R460). -/
def execIcquelStallExpiry (s : State) : Host.Outcome State Fault Refusal :=
  run icqStalled s

/-- Start step 14 passes its bound (R456). -/
def execStartTrainingBoundExpiry (s : State) : Host.Outcome State Fault Refusal :=
  run trainLate s

/-- Start step 15 passes its bound (R456). -/
def execSundialLockBoundExpiry (s : State) : Host.Outcome State Fault Refusal :=
  run lockLate s

/-- Icquel's millisecond (R445). -/
def execIcqBeat (s : State) : Host.Outcome State Fault Refusal :=
  act beat s

/-- PWR_ACK has not followed PWR_REQ within 1 ms (R509). -/
def execPwrAckTimeout (d : Nat) (s : State) : Host.Outcome State Fault Refusal :=
  run (ackTimeout d) s

end Sys2Proof.Machine
end

