-- ==== Sys2Proof/Machine/TestAccess.lean ====
section
/-! DEFINITION. The meanings of the lane boundary-scan segment's modes and of the wrapper's instructions (R535-R537). The operand of
a capturing or loading instruction is what its cells take (log 94). -/

namespace Sys2Proof.Machine

/-- The test part changed. -/
def modTst (f : Tst → Tst) (s : State) : State := { s with tst := f s.tst }

/-- The cells of the lane segment (R536): two for each lane, the transmit cell first. -/
def laneCells (s : State) (cells : List Bool) : List Bool :=
  (List.range (2 * laneCount s)).map (fun i => cells.getD i false)

/-- A test instruction that needs TST_EN = 1 (R535): without it, `bypass` and 0x871. -/
def testOnly (bypass f : State → State) (s : State) : State :=
  if s.glb.ties.tstEn then f s else raise 0x871 (bypass s)

/-- LBS_MODE 0 (R536): the segment's cells shift out, and take what is sampled or preloaded. -/
def sampleLanes (cells : List Bool) (s : State) : State :=
  let new := laneCells s cells
  modTst (fun t => { t with lbsMode := 0, laneCells := new, lanePreload := new }) (emit (.testOut s.tst.laneCells) s)

/-- LBS_MODE 1 to 3 (R536): the transmit cells drive what they were preloaded with, the receive cells take the pins, and every lane
is out of service. -/
def externTest (mode : Nat) (cells : List Bool) (s : State) : State :=
  testOnly (modTst (fun t => { t with lbsMode := 0 })) (fun s =>
    let s := (List.range (laneCount s)).foldl (fun s q => laneDown q 0 .down s) (modTst (fun t => { t with lbsMode := mode }) s)
    let pins := (List.range (2 * laneCount s)).map (fun i => if i % 2 = 0 then s.tst.lanePreload.getD i false else cells.getD i false)
    modTst (fun t => { t with laneCells := pins }) (emit (.testOut s.tst.lanePreload) s)) s

/-- The wrapper takes an instruction (R537). -/
def setWir (k : Nat) (s : State) : State :=
  modTst (fun t => { t with wir := k, driveOut := k == 3, driveIn := k == 4, clamp := k == 5, scan := k == 9 }) s

/-- The wrapper's boundary register takes its cells. -/
def setBound (cells : List Bool) (s : State) : State := modTst (fun t => { t with bound := cells }) s

/-- WS_SAMPLE (R537). -/
def wrapSample (cells : List Bool) (s : State) : State := setBound cells (setWir 1 s)

/-- WS_PRELOAD (R537). -/
def wrapPreload (cells : List Bool) (s : State) : State :=
  testOnly (setWir 0) (fun s => modTst (fun t => { t with bound := cells, boundPreload := cells }) (setWir 2 s)) s

/-- WS_EXTEST and WS_INTEST (R537): one side is driven from the preloaded cells, the other captured. -/
def wrapDrive (k : Nat) (cells : List Bool) (s : State) : State :=
  testOnly (setWir 0) (fun s => setBound cells (emit (.testOut s.tst.boundPreload) (setWir k s))) s

/-- WS_ID (R537). -/
def wrapId (s : State) : State :=
  modTst (fun t => { t with idReg := glbId s })
    (emit (.testOut ((List.range 32).map (fun i => bitAt (glbId s) i))) (setWir 6 s))

/-- WS_MBIST (R537): the result register takes what the self-test found. -/
def wrapMbist (result : BitVec 64) (s : State) : State :=
  testOnly (setWir 0) (fun s => modTst (fun t => { t with mbist := result })
    (emit (.testOut ((List.range 64).map (fun i => result.getLsbD i))) (setWir 8 s))) s

/-- SAMPLE/PRELOAD of the lane segment (R535, R536). -/
def execSamplePreload (cells : List Bool) (s : State) : Host.Outcome State Fault Refusal :=
  act (sampleLanes cells) s

/-- EXTEST of the lane segment (R535, R536). -/
def execExtest (cells : List Bool) (s : State) : Host.Outcome State Fault Refusal :=
  run (externTest 1 cells) s

/-- EXTEST_PULSE of the lane segment (R535, R536). -/
def execExtestPulse (cells : List Bool) (s : State) : Host.Outcome State Fault Refusal :=
  run (externTest 2 cells) s

/-- EXTEST_TRAIN of the lane segment (R535, R536). -/
def execExtestTrain (cells : List Bool) (s : State) : Host.Outcome State Fault Refusal :=
  run (externTest 3 cells) s

/-- WS_BYPASS (R535, R537). -/
def execWsBypass (s : State) : Host.Outcome State Fault Refusal :=
  act (setWir 0) s

/-- WS_SAMPLE (R535, R537). -/
def execWsSample (cells : List Bool) (s : State) : Host.Outcome State Fault Refusal :=
  act (wrapSample cells) s

/-- WS_PRELOAD (R535, R537). -/
def execWsPreload (cells : List Bool) (s : State) : Host.Outcome State Fault Refusal :=
  act (wrapPreload cells) s

/-- WS_EXTEST (R535, R537). -/
def execWsExtest (cells : List Bool) (s : State) : Host.Outcome State Fault Refusal :=
  act (wrapDrive 3 cells) s

/-- WS_INTEST (R535, R537). -/
def execWsIntest (cells : List Bool) (s : State) : Host.Outcome State Fault Refusal :=
  act (wrapDrive 4 cells) s

/-- WS_CLAMP (R535, R537). -/
def execWsClamp (s : State) : Host.Outcome State Fault Refusal :=
  act (testOnly (setWir 0) (setWir 5)) s

/-- WS_ID (R535, R537). -/
def execWsId (s : State) : Host.Outcome State Fault Refusal :=
  act wrapId s

/-- WS_MBIST (R535, R537). -/
def execWsMbist (result : BitVec 64) (s : State) : Host.Outcome State Fault Refusal :=
  act (wrapMbist result) s

/-- WS_SCAN (R535, R537). -/
def execWsScan (s : State) : Host.Outcome State Fault Refusal :=
  act (testOnly (setWir 0) (setWir 9)) s

end Sys2Proof.Machine
end

