-- ==== Sys2Proof/Machine/Transfers.lean ====
section
/-! DEFINITION. The meanings of the transfer packets and their timers (R118-R181, R434-R442). -/

namespace Sys2Proof.Machine

/-- A request that no path takes ends with 0x610 (R160, R349); board-window packets and collective packets wait. -/
def noPath (id : Nat) (r : Rq) (s : State) : State :=
  match r.who with
  | .bwLoad _ | .bwStore _ | .bwReply => s
  | _ => if r.pkt.vn = 0 ∧ r.isReq then endRq id r (some 0x610) false s else s

/-- A queued packet leaves on the link of its path (R161, R331, R355, R435). -/
def sendRq (id : Nat) (s : State) : State :=
  match getRq s id with
  | none => s
  | some r =>
    if r.sent || r.busy || !mayStart s r || collTwin s id r then s
    else match pathOf s r with
      | none => noPath id r s
      | some (l, p, cur) =>
        if windowOk s r && roomFor s r && maySendPkt s l p && mayEnter s l p && !outranked s id l p then
          let s := freshRound l p s
          afterSend id l r (sendPkt l p { s with trl := { s.trl with cur := cur } })
        else s

/-- An engine sends a packet (R161). -/
def execPacketSend (id : Nat) (s : State) : Host.Outcome State Fault Refusal :=
  run (sendRq id) s

/-- A request's end-to-end timer expires (R164). -/
def execE2eTimerExpiry (id : Nat) (s : State) : Host.Outcome State Fault Refusal :=
  run (e2eExpiry id) s

/-- A request that was answered busy goes out again (R165). -/
def execCopyBusyResend (id : Nat) (s : State) : Host.Outcome State Fault Refusal :=
  run (busyResend id) s

/-- A collective packet that was answered busy goes out again (R234). -/
def execDeepBusyResend (id : Nat) (s : State) : Host.Outcome State Fault Refusal :=
  run (deepResend id) s

/-- Held acknowledgements go out after 100 ns (R162). -/
def ackExpiry (node : Nat) (s : State) : State :=
  match s.home.acks.at node with
  | [] => s
  | h :: _ => if passed s h.since 100 then flushAcks node s else s

/-- A held acknowledgement has waited 100 ns (R162). -/
def execAckCoalesceExpiry (node : Nat) (s : State) : Host.Outcome State Fault Refusal :=
  run (ackExpiry node) s

/-- Write data arrives at its home (R118). -/
def execWriteData (l : Nat) (p : Packet) (s : State) : Host.Outcome State Fault Refusal :=
  run (memRequest l p 0x10) s

/-- A board-window store's partial write arrives at its home (R174). -/
def execPartialWrite (l : Nat) (p : Packet) (s : State) : Host.Outcome State Fault Refusal :=
  run (memRequest l p 0x11) s

/-- A STOREG's write arrives at its home (R91). -/
def execShortWrite (l : Nat) (p : Packet) (s : State) : Host.Outcome State Fault Refusal :=
  run (memRequest l p 0x12) s

/-- A read request arrives at its home (R158). -/
def execReadRequest (l : Nat) (p : Packet) (s : State) : Host.Outcome State Fault Refusal :=
  run (memRequest l p 0x13) s

/-- A LOADG's read arrives at its home (R158). -/
def execShortRead (l : Nat) (p : Packet) (s : State) : Host.Outcome State Fault Refusal :=
  run (memRequest l p 0x14) s

/-- A copy request arrives at its source home (R170). -/
def execCopyRequest (l : Nat) (p : Packet) (s : State) : Host.Outcome State Fault Refusal :=
  run (copyRequest l p) s

/-- An ATOM arrives at its home (R178). -/
def execAtomicRequest (l : Nat) (p : Packet) (s : State) : Host.Outcome State Fault Refusal :=
  run (memRequest l p 0x16) s

/-- A tally add arrives at its home (R171). -/
def execTallyAdd (l : Nat) (p : Packet) (s : State) : Host.Outcome State Fault Refusal :=
  run (memRequest l p 0x17) s

/-- Manifest entries arrive at an expert's home (R276). -/
def execManifestWrite (l : Nat) (p : Packet) (s : State) : Host.Outcome State Fault Refusal :=
  run (memRequest l p 0x18) s

/-- Read data arrives at its requester (R169). -/
def execReadData (l : Nat) (p : Packet) (s : State) : Host.Outcome State Fault Refusal :=
  run (reply l p 0x20 (takeReadData p)) s

/-- A short reply arrives at its requester (R151). -/
def execShortReply (l : Nat) (p : Packet) (s : State) : Host.Outcome State Fault Refusal :=
  run (reply l p 0x21 (takeShort p)) s

/-- An acknowledgement arrives at its requester (R163). -/
def execAcknowledgement (l : Nat) (p : Packet) (s : State) : Host.Outcome State Fault Refusal :=
  run (takeAcks l p) s

/-- Copy done arrives at its requester (R170). -/
def execCopyDone (l : Nat) (p : Packet) (s : State) : Host.Outcome State Fault Refusal :=
  run (reply l p 0x23 (fun id r s => endRq id r none false s)) s

/-- A busy answer puts its request to rest for 1 us (R165). -/
def restRq (id : Nat) (r : Rq) (s : State) : State :=
  if r.dead then dropRq id s else modRq id (fun x => { x with busy := true, at1 := s.clk }) s

/-- Copy busy arrives at its requester (R165). -/
def execCopyBusy (l : Nat) (p : Packet) (s : State) : Host.Outcome State Fault Refusal :=
  run (reply l p 0x24 restRq) s

/-- An error reply ends its request with the home's code, as a consequence (R180, R415). -/
def execErrorReply (l : Nat) (p : Packet) (s : State) : Host.Outcome State Fault Refusal :=
  run (reply l p 0x25 (fun id r s => endRq id r (some (p.ar 16 2 % 4096)) true s)) s

/-- A step-abort notice arrives (R216). -/
def execStepAbortNotice (l : Nat) (p : Packet) (s : State) : Host.Outcome State Fault Refusal :=
  run (collArrival l p 0x26 (fun plot p s => takeColl plot p .none s)) s

end Sys2Proof.Machine
end

