-- ==== Sys2Proof/Machine/Dispatch.lean ====
section
/-! DEFINITION. Which meaning each command has. -/

namespace Sys2Proof.Machine

/-- The effect of a command on everything but the queue. -/
def exec (i : Instr) (s : State) : Host.Outcome State Fault Refusal :=
  match i with
  | .nop f => Sys2Proof.Machine.execNop f s
  | .jump f => Sys2Proof.Machine.execJump f s
  | .branch f => Sys2Proof.Machine.execBranch f s
  | .loop f => Sys2Proof.Machine.execLoop f s
  | .call f => Sys2Proof.Machine.execCall f s
  | .ret f => Sys2Proof.Machine.execRet f s
  | .halt f => Sys2Proof.Machine.execHalt f s
  | .brk f => Sys2Proof.Machine.execBrk f s
  | .seti f => Sys2Proof.Machine.execSeti f s
  | .addi f => Sys2Proof.Machine.execAddi f s
  | .movg f => Sys2Proof.Machine.execMovg f s
  | .cmp f => Sys2Proof.Machine.execCmp f s
  | .loadg f u => Sys2Proof.Machine.execLoadg f u s
  | .storeg f => Sys2Proof.Machine.execStoreg f s
  | .copy f u => Sys2Proof.Machine.execCopy f u s
  | .put f => Sys2Proof.Machine.execPut f s
  | .get f u => Sys2Proof.Machine.execGet f u s
  | .fill f => Sys2Proof.Machine.execFill f s
  | .atom f => Sys2Proof.Machine.execAtom f s
  | .twait f u => Sys2Proof.Machine.execTwait f u s
  | .tadd f => Sys2Proof.Machine.execTadd f s
  | .tset f => Sys2Proof.Machine.execTset f s
  | .fence f => Sys2Proof.Machine.execFence f s
  | .signal f => Sys2Proof.Machine.execSignal f s
  | .signalEventPost f => Sys2Proof.Machine.execSignalEventPost f s
  | .sunwait f => Sys2Proof.Machine.execSunwait f s
  | .bedopen f => Sys2Proof.Machine.execBedopen f s
  | .bedclose f => Sys2Proof.Machine.execBedclose f s
  | .reduce f => Sys2Proof.Machine.execReduce f s
  | .allred f => Sys2Proof.Machine.execAllred f s
  | .redscat f => Sys2Proof.Machine.execRedscat f s
  | .allgath f => Sys2Proof.Machine.execAllgath f s
  | .bcast f => Sys2Proof.Machine.execBcast f s
  | .shift f => Sys2Proof.Machine.execShift f s
  | .permute f => Sys2Proof.Machine.execPermute f s
  | .scan f => Sys2Proof.Machine.execScan f s
  | .sreduce f => Sys2Proof.Machine.execSreduce f s
  | .topk f => Sys2Proof.Machine.execTopk f s
  | .dispatch f => Sys2Proof.Machine.execDispatch f s
  | .combine f => Sys2Proof.Machine.execCombine f s
  | .dreduce f => Sys2Proof.Machine.execDreduce f s
  | .dbarrier f => Sys2Proof.Machine.execDbarrier f s
  | .mark f => Sys2Proof.Machine.execMark f s
  | .dump f => Sys2Proof.Machine.execDump f s
  | .commandFetch f u => Sys2Proof.Machine.execCommandFetch f u s
  | .commandComplete f k => Sys2Proof.Machine.execCommandComplete f k s
  | .commandRetire f => Sys2Proof.Machine.execCommandRetire f s
  | .twaitLimitExpiry f => Sys2Proof.Machine.execTwaitLimitExpiry f s
  | .furCtlStart sv n w => Sys2Proof.Machine.execFurCtlStart sv n w s
  | .furCtlStop sv n w => Sys2Proof.Machine.execFurCtlStop sv n w s
  | .furCtlResume sv n w => Sys2Proof.Machine.execFurCtlResume sv n w s
  | .furCtlStep sv n w => Sys2Proof.Machine.execFurCtlStep sv n w s
  | .furCtlReset sv n w => Sys2Proof.Machine.execFurCtlReset sv n w s
  | .furrowIdle f => Sys2Proof.Machine.execFurrowIdle f s
  | .furDoorbell sv n w => Sys2Proof.Machine.execFurDoorbell sv n w s
  | .furNotify sv n => Sys2Proof.Machine.execFurNotify sv n s
  | .imageReplacement slot => Sys2Proof.Machine.execImageReplacement slot s
  | .packetSend id => Sys2Proof.Machine.execPacketSend id s
  | .e2eTimerExpiry id => Sys2Proof.Machine.execE2eTimerExpiry id s
  | .copyBusyResend id => Sys2Proof.Machine.execCopyBusyResend id s
  | .deepBusyResend id => Sys2Proof.Machine.execDeepBusyResend id s
  | .ackCoalesceExpiry node => Sys2Proof.Machine.execAckCoalesceExpiry node s
  | .writeData l p => Sys2Proof.Machine.execWriteData l p s
  | .partialWrite l p => Sys2Proof.Machine.execPartialWrite l p s
  | .shortWrite l p => Sys2Proof.Machine.execShortWrite l p s
  | .readRequest l p => Sys2Proof.Machine.execReadRequest l p s
  | .shortRead l p => Sys2Proof.Machine.execShortRead l p s
  | .copyRequest l p => Sys2Proof.Machine.execCopyRequest l p s
  | .atomicRequest l p => Sys2Proof.Machine.execAtomicRequest l p s
  | .tallyAdd l p => Sys2Proof.Machine.execTallyAdd l p s
  | .manifestWrite l p => Sys2Proof.Machine.execManifestWrite l p s
  | .readData l p => Sys2Proof.Machine.execReadData l p s
  | .shortReply l p => Sys2Proof.Machine.execShortReply l p s
  | .acknowledgement l p => Sys2Proof.Machine.execAcknowledgement l p s
  | .copyDone l p => Sys2Proof.Machine.execCopyDone l p s
  | .copyBusy l p => Sys2Proof.Machine.execCopyBusy l p s
  | .errorReply l p => Sys2Proof.Machine.execErrorReply l p s
  | .stepAbortNotice l p => Sys2Proof.Machine.execStepAbortNotice l p s
  | .collectiveAcknowledgement l p => Sys2Proof.Machine.execCollectiveAcknowledgement l p s
  | .stepReady l p => Sys2Proof.Machine.execStepReady l p s
  | .grant l p => Sys2Proof.Machine.execGrant l p s
  | .contribution l p u => Sys2Proof.Machine.execContribution l p u s
  | .loamFormPartial l p u => Sys2Proof.Machine.execLoamFormPartial l p u s
  | .result l p => Sys2Proof.Machine.execResult l p s
  | .sparseStream l p u => Sys2Proof.Machine.execSparseStream l p u s
  | .tagCount l p => Sys2Proof.Machine.execTagCount l p s
  | .offsets l p => Sys2Proof.Machine.execOffsets l p s
  | .filledCounts l p => Sys2Proof.Machine.execFilledCounts l p s
  | .expect l p => Sys2Proof.Machine.execExpect l p s
  | .combineContribution l p u => Sys2Proof.Machine.execCombineContribution l p u s
  | .refusal l p => Sys2Proof.Machine.execRefusal l p s
  | .candidateList l p => Sys2Proof.Machine.execCandidateList l p s
  | .dibberContribution l p => Sys2Proof.Machine.execDibberContribution l p s
  | .dibberPartial l p => Sys2Proof.Machine.execDibberPartial l p s
  | .dibberResult l p => Sys2Proof.Machine.execDibberResult l p s
  | .barrierRelease l p => Sys2Proof.Machine.execBarrierRelease l p s
  | .slotAllocate ctx => Sys2Proof.Machine.execSlotAllocate ctx s
  | .dibberSlotAllocate ctx => Sys2Proof.Machine.execDibberSlotAllocate ctx s
  | .memberStepTimerExpiry ctx step => Sys2Proof.Machine.execMemberStepTimerExpiry ctx step s
  | .servingStepTimerExpiry slot => Sys2Proof.Machine.execServingStepTimerExpiry slot s
  | .dibberMemberTimerExpiry ctx step => Sys2Proof.Machine.execDibberMemberTimerExpiry ctx step s
  | .dibberServingTimerExpiry slot => Sys2Proof.Machine.execDibberServingTimerExpiry slot s
  | .packetForward l p => Sys2Proof.Machine.execPacketForward l p s
  | .boardForward l p => Sys2Proof.Machine.execBoardForward l p s
  | .ringForward l p => Sys2Proof.Machine.execRingForward l p s
  | .boardWindowLoad port b u => Sys2Proof.Machine.execBoardWindowLoad port b u s
  | .boardWindowStore port b => Sys2Proof.Machine.execBoardWindowStore port b s
  | .boardWindowRelease id => Sys2Proof.Machine.execBoardWindowRelease id s
  | .homeAccessRelease id => Sys2Proof.Machine.execHomeAccessRelease id s
  | .creditWithholdRelease port => Sys2Proof.Machine.execCreditWithholdRelease port s
  | .invAll sv w => Sys2Proof.Machine.execInvAll sv w s
  | .invPlot sv w => Sys2Proof.Machine.execInvPlot sv w s
  | .epochSweepDone => Sys2Proof.Machine.execEpochSweepDone s
  | .tallyApertureRead port b u => Sys2Proof.Machine.execTallyApertureRead port b u s
  | .tallyApertureWrite port b => Sys2Proof.Machine.execTallyApertureWrite port b s
  | .doorbellApertureWrite port b => Sys2Proof.Machine.execDoorbellApertureWrite port b s
  | .mpReadData port b => Sys2Proof.Machine.execMpReadData port b s
  | .mpWriteResponse port b => Sys2Proof.Machine.execMpWriteResponse port b s
  | .mpLockData port b => Sys2Proof.Machine.execMpLockData port b s
  | .mpUnlockResponse port b => Sys2Proof.Machine.execMpUnlockResponse port b s
  | .mpCredit port od => Sys2Proof.Machine.execMpCredit port od s
  | .mpRespLimitExpiry port tag => Sys2Proof.Machine.execMpRespLimitExpiry port tag s
  | .mpInitialCreditExpiry port => Sys2Proof.Machine.execMpInitialCreditExpiry port s
  | .mpClkRangeExpiry => Sys2Proof.Machine.execMpClkRangeExpiry s
  | .trainingFrame q ctl => Sys2Proof.Machine.execTrainingFrame q ctl s
  | .trainingStepDone q => Sys2Proof.Machine.execTrainingStepDone q s
  | .trainingStepTimeout q => Sys2Proof.Machine.execTrainingStepTimeout q s
  | .detectTimeout q => Sys2Proof.Machine.execDetectTimeout q s
  | .detectRetry q => Sys2Proof.Machine.execDetectRetry q s
  | .codewordReceived q cw => Sys2Proof.Machine.execCodewordReceived q cw s
  | .ackWaitExpiry q => Sys2Proof.Machine.execAckWaitExpiry q s
  | .correctedRatioWindow q corrected => Sys2Proof.Machine.execCorrectedRatioWindow q corrected s
  | .quietIdleExpiry l => Sys2Proof.Machine.execQuietIdleExpiry l s
  | .quietRefresh l => Sys2Proof.Machine.execQuietRefresh l s
  | .fallow sv addr w => Sys2Proof.Machine.execFallow sv addr w s
  | .fallowPowerDown l => Sys2Proof.Machine.execFallowPowerDown l s
  | .lanCtlRetrain sv q w => Sys2Proof.Machine.execLanCtlRetrain sv q w s
  | .prtLinkCfgRetrain sv addr w => Sys2Proof.Machine.execPrtLinkCfgRetrain sv addr w s
  | .lanCtlTest sv q w => Sys2Proof.Machine.execLanCtlTest sv q w s
  | .holdDown sv q w => Sys2Proof.Machine.execHoldDown sv q w s
  | .escanStart sv g w => Sys2Proof.Machine.execEscanStart sv g w s
  | .escanDone g n => Sys2Proof.Machine.execEscanDone g n s
  | .lanInjOnce sv q w => Sys2Proof.Machine.execLanInjOnce sv q w s
  | .injectionInterval q => Sys2Proof.Machine.execInjectionInterval q s
  | .lnPgood g level => Sys2Proof.Machine.execLnPgood g level s
  | .lanePllLockLoss g => Sys2Proof.Machine.execLanePllLockLoss g s
  | .reachNotice l p => Sys2Proof.Machine.execReachNotice l p s
  | .peerNotice l p => Sys2Proof.Machine.execPeerNotice l p s
  | .rakeMapRequest l p => Sys2Proof.Machine.execRakeMapRequest l p s
  | .managementAcknowledgement l p => Sys2Proof.Machine.execManagementAcknowledgement l p s
  | .managementNak l p => Sys2Proof.Machine.execManagementNak l p s
  | .managementResend id => Sys2Proof.Machine.execManagementResend id s
  | .hintDecay d p => Sys2Proof.Machine.execHintDecay d p s
  | .capWindowEnd l => Sys2Proof.Machine.execCapWindowEnd l s
  | .trellisTableWrite sv addr w => Sys2Proof.Machine.execTrellisTableWrite sv addr w s
  | .trlArb sv w => Sys2Proof.Machine.execTrlArb sv w s
  | .arm sv w => Sys2Proof.Machine.execArm sv w s
  | .disarm sv w => Sys2Proof.Machine.execDisarm sv w s
  | .now sv w => Sys2Proof.Machine.execNow sv w s
  | .swapTime => Sys2Proof.Machine.execSwapTime s
  | .guardEnd => Sys2Proof.Machine.execGuardEnd s
  | .drain sv w => Sys2Proof.Machine.execDrain sv w s
  | .drainDone => Sys2Proof.Machine.execDrainDone s
  | .drainLimitExpiry => Sys2Proof.Machine.execDrainLimitExpiry s
  | .rakeSample => Sys2Proof.Machine.execRakeSample s
  | .rakeWindowClose => Sys2Proof.Machine.execRakeWindowClose s
  | .rakPop sv w => Sys2Proof.Machine.execRakPop sv w s
  | .open_ sv p w => Sys2Proof.Machine.execOpen sv p w s
  | .teardown sv p w => Sys2Proof.Machine.execTeardown sv p w s
  | .plotReset sv p w => Sys2Proof.Machine.execPlotReset sv p w s
  | .drainBoundExpiry p => Sys2Proof.Machine.execDrainBoundExpiry p s
  | .plotDrainComplete p => Sys2Proof.Machine.execPlotDrainComplete p s
  | .plotDrainHangExpiry p => Sys2Proof.Machine.execPlotDrainHangExpiry p s
  | .claim sv w => Sys2Proof.Machine.execClaim sv w s
  | .release sv w => Sys2Proof.Machine.execRelease sv w s
  | .handover sv w => Sys2Proof.Machine.execHandover sv w s
  | .accept sv w => Sys2Proof.Machine.execAccept sv w s
  | .handoverExpiry => Sys2Proof.Machine.execHandoverExpiry s
  | .supHeartbeat sv w => Sys2Proof.Machine.execSupHeartbeat sv w s
  | .heartbeatExpiry => Sys2Proof.Machine.execHeartbeatExpiry s
  | .supEvq sv => Sys2Proof.Machine.execSupEvq sv s
  | .mbxReqCtlGo sv idx w => Sys2Proof.Machine.execMbxReqCtlGo sv idx w s
  | .mbxRspCtlGoClear sv idx w => Sys2Proof.Machine.execMbxRspCtlGoClear sv idx w s
  | .echo idx => Sys2Proof.Machine.execEcho idx s
  | .imageInstall idx => Sys2Proof.Machine.execImageInstall idx s
  | .soilUpdate idx => Sys2Proof.Machine.execSoilUpdate idx s
  | .measureRequestFragment idx => Sys2Proof.Machine.execMeasureRequestFragment idx s
  | .measureResponseRead idx => Sys2Proof.Machine.execMeasureResponseRead idx s
  | .measureIdentityRead idx => Sys2Proof.Machine.execMeasureIdentityRead idx s
  | .marlRead idx r => Sys2Proof.Machine.execMarlRead idx r s
  | .marlFind idx => Sys2Proof.Machine.execMarlFind idx s
  | .relay idx => Sys2Proof.Machine.execRelay idx s
  | .relayRequest l p => Sys2Proof.Machine.execRelayRequest l p s
  | .relayReply l p => Sys2Proof.Machine.execRelayReply l p s
  | .relayTimeout idx => Sys2Proof.Machine.execRelayTimeout idx s
  | .faultRaised => Sys2Proof.Machine.execFaultRaised s
  | .fltAck sv w => Sys2Proof.Machine.execFltAck sv w s
  | .fltAckAll sv w => Sys2Proof.Machine.execFltAckAll sv w s
  | .fltLost sv => Sys2Proof.Machine.execFltLost sv s
  | .fltFence sv w => Sys2Proof.Machine.execFltFence sv w s
  | .hrwSliceFence sv w => Sys2Proof.Machine.execHrwSliceFence sv w s
  | .sivFence sv w => Sys2Proof.Machine.execSivFence sv w s
  | .hrwPoolCfg sv w => Sys2Proof.Machine.execHrwPoolCfg sv w s
  | .hrwLagWorstClear sv ctx w => Sys2Proof.Machine.execHrwLagWorstClear sv ctx w s
  | .hrwPoolPeakClr sv w => Sys2Proof.Machine.execHrwPoolPeakClr sv w s
  | .hrwDeepPeakClr sv w => Sys2Proof.Machine.execHrwDeepPeakClr sv w s
  | .sivDispPeakClr sv w => Sys2Proof.Machine.execSivDispPeakClr sv w s
  | .dibPeakClr sv w => Sys2Proof.Machine.execDibPeakClr sv w s
  | .engineResetTimeout k => Sys2Proof.Machine.execEngineResetTimeout k s
  | .warm sv w => Sys2Proof.Machine.execWarm sv w s
  | .cold sv w => Sys2Proof.Machine.execCold sv w s
  | .domCycle sv w => Sys2Proof.Machine.execDomCycle sv w s
  | .resetAct => Sys2Proof.Machine.execResetAct s
  | .powerOn => Sys2Proof.Machine.execPowerOn s
  | .coldRstN level ties => Sys2Proof.Machine.execColdRstN level ties s
  | .warmRstN => Sys2Proof.Machine.execWarmRstN s
  | .startStepDone r => Sys2Proof.Machine.execStartStepDone r s
  | .startStepTimeout => Sys2Proof.Machine.execStartStepTimeout s
  | .icquelStallExpiry => Sys2Proof.Machine.execIcquelStallExpiry s
  | .startTrainingBoundExpiry => Sys2Proof.Machine.execStartTrainingBoundExpiry s
  | .icqBeat => Sys2Proof.Machine.execIcqBeat s
  | .refPllLockLoss => Sys2Proof.Machine.execRefPllLockLoss s
  | .corePllLockLoss pll => Sys2Proof.Machine.execCorePllLockLoss pll s
  | .cpClkAbsent => Sys2Proof.Machine.execCpClkAbsent s
  | .cpAnswerTimeout sv write addr => Sys2Proof.Machine.execCpAnswerTimeout sv write addr s
  | .registerWrite sv addr w par => Sys2Proof.Machine.execRegisterWrite sv addr w par s
  | .pwrDomReq sv w => Sys2Proof.Machine.execPwrDomReq sv w s
  | .pwrAck d level => Sys2Proof.Machine.execPwrAck d level s
  | .pwrAckTimeout d => Sys2Proof.Machine.execPwrAckTimeout d s
  | .selfGateIdleExpiry d => Sys2Proof.Machine.execSelfGateIdleExpiry d s
  | .thermWarnN level => Sys2Proof.Machine.execThermWarnN level s
  | .vdroopN level => Sys2Proof.Machine.execVdroopN level s
  | .thermLimitExpiry => Sys2Proof.Machine.execThermLimitExpiry s
  | .droopHoldExpiry => Sys2Proof.Machine.execDroopHoldExpiry s
  | .marlCommitDone r => Sys2Proof.Machine.execMarlCommitDone r s
  | .sundialSecond => Sys2Proof.Machine.execSundialSecond s
  | .crashDump sv w => Sys2Proof.Machine.execCrashDump sv w s
  | .missedClr sv w => Sys2Proof.Machine.execMissedClr sv w s
  | .dbgSiltSel sv w => Sys2Proof.Machine.execDbgSiltSel sv w s
  | .siltFreezeExpiry => Sys2Proof.Machine.execSiltFreezeExpiry s
  | .snap sv w => Sys2Proof.Machine.execSnap sv w s
  | .cntClear sv w => Sys2Proof.Machine.execCntClear sv w s
  | .cntLo sv k => Sys2Proof.Machine.execCntLo sv k s
  | .sunTimeLo sv => Sys2Proof.Machine.execSunTimeLo sv s
  | .rearm sv w => Sys2Proof.Machine.execRearm sv w s
  | .firmwareLogEntry severity source code text => Sys2Proof.Machine.execFirmwareLogEntry severity source code text s
  | .sundialSyncTick => Sys2Proof.Machine.execSundialSyncTick s
  | .sync l p t => Sys2Proof.Machine.execSync l p t s
  | .syncReply l p t => Sys2Proof.Machine.execSyncReply l p t s
  | .holdoverExpiry => Sys2Proof.Machine.execHoldoverExpiry s
  | .sunCfg sv w => Sys2Proof.Machine.execSunCfg sv w s
  | .samplePreload cells => Sys2Proof.Machine.execSamplePreload cells s
  | .extest cells => Sys2Proof.Machine.execExtest cells s
  | .extestPulse cells => Sys2Proof.Machine.execExtestPulse cells s
  | .extestTrain cells => Sys2Proof.Machine.execExtestTrain cells s
  | .wsBypass => Sys2Proof.Machine.execWsBypass s
  | .wsSample cells => Sys2Proof.Machine.execWsSample cells s
  | .wsPreload cells => Sys2Proof.Machine.execWsPreload cells s
  | .wsExtest cells => Sys2Proof.Machine.execWsExtest cells s
  | .wsIntest cells => Sys2Proof.Machine.execWsIntest cells s
  | .wsClamp => Sys2Proof.Machine.execWsClamp s
  | .wsId => Sys2Proof.Machine.execWsId s
  | .wsMbist result => Sys2Proof.Machine.execWsMbist result s
  | .wsScan => Sys2Proof.Machine.execWsScan s
  | .powerLoss => Sys2Proof.Machine.execPowerLoss s
  | .warmRstNRelease => Sys2Proof.Machine.execWarmRstNRelease s
  | .resetPulseRejected => Sys2Proof.Machine.execResetPulseRejected s
  | .cpClkReturn => Sys2Proof.Machine.execCpClkReturn s
  | .registerRead sv addr par => Sys2Proof.Machine.execRegisterRead sv addr par s
  | .sundialLockBoundExpiry => Sys2Proof.Machine.execSundialLockBoundExpiry s
  | .controlStateError kind unit => Sys2Proof.Machine.execControlStateError kind unit s

end Sys2Proof.Machine
end

