-- ==== Sys2Proof/Machine/Tick.lean ====
section
/-! DEFINITION. One nanosecond of the always-on clock passes: what time alone does (R487, R490, R491, R548; log 3). -/

namespace Sys2Proof.Machine

/-- The 1.4 GHz cycles that the next nanosecond of the clock holds (R542). -/
def cyclesNow (s : State) : Nat := (s.clk + 1) * 7 / 5 - s.clk * 7 / 5

/-- Waiting furrows count their cycles (R491). -/
def waitTick (s : State) : State :=
  s.fur.foldl (fun t e => if e.2.state = .waiting then countSrc 6 e.1 (cyclesNow s) t else t) s

/-- A nanosecond passes (log 3): timers run, and an event that has come due is a command of its own. -/
def tick (s : State) : State :=
  let s := waitTick (domIdleTick (modSun sunTick s))
  { s with clk := s.clk + 1 }

end Sys2Proof.Machine
end

