-- ==== Sys2Proof/Laws/State.lean ====
section
/-! SUPPORT. One lemma per field per named update of State, each by rfl. -/

namespace Sys2Proof.Laws

open Sys2Proof.Machine

variable (s : State)

@[simp] theorem modFur_pending (f : Nat) (g : Furrow → Furrow) : (modFur f g s).pending = s.pending := rfl
@[simp] theorem modFur_sram (f : Nat) (g : Furrow → Furrow) : (modFur f g s).sram = s.sram := rfl
@[simp] theorem modFur_wlog (f : Nat) (g : Furrow → Furrow) : (modFur f g s).wlog = s.wlog := rfl
@[simp] theorem modFur_clk (f : Nat) (g : Furrow → Furrow) : (modFur f g s).clk = s.clk := rfl
@[simp] theorem modFur_free (f : Nat) (g : Furrow → Furrow) : (modFur f g s).free = s.free := rfl
@[simp] theorem modFur_outbox (f : Nat) (g : Furrow → Furrow) : (modFur f g s).outbox = s.outbox := rfl
@[simp] theorem modFur_glb (f : Nat) (g : Furrow → Furrow) : (modFur f g s).glb = s.glb := rfl
@[simp] theorem modFur_start (f : Nat) (g : Furrow → Furrow) : (modFur f g s).start = s.start := rfl
@[simp] theorem modFur_sup (f : Nat) (g : Furrow → Furrow) : (modFur f g s).sup = s.sup := rfl
@[simp] theorem modFur_mbx (f : Nat) (g : Furrow → Furrow) : (modFur f g s).mbx = s.mbx := rfl
@[simp] theorem modFur_flt (f : Nat) (g : Furrow → Furrow) : (modFur f g s).flt = s.flt := rfl
@[simp] theorem modFur_pwr (f : Nat) (g : Furrow → Furrow) : (modFur f g s).pwr = s.pwr := rfl
@[simp] theorem modFur_mrl (f : Nat) (g : Furrow → Furrow) : (modFur f g s).mrl = s.mrl := rfl
@[simp] theorem modFur_obs (f : Nat) (g : Furrow → Furrow) : (modFur f g s).obs = s.obs := rfl
@[simp] theorem modFur_sun (f : Nat) (g : Furrow → Furrow) : (modFur f g s).sun = s.sun := rfl
@[simp] theorem modFur_tst (f : Nat) (g : Furrow → Furrow) : (modFur f g s).tst = s.tst := rfl
@[simp] theorem modFur_plots (f : Nat) (g : Furrow → Furrow) : (modFur f g s).plots = s.plots := rfl
@[simp] theorem modFur_tally (f : Nat) (g : Furrow → Furrow) : (modFur f g s).tally = s.tally := rfl
@[simp] theorem modFur_fur (f : Nat) (g : Furrow → Furrow) : (modFur f g s).fur = s.fur.set f (g (getFur s f)) := rfl
@[simp] theorem modFur_img (f : Nat) (g : Furrow → Furrow) : (modFur f g s).img = s.img := rfl
@[simp] theorem modFur_xfer (f : Nat) (g : Furrow → Furrow) : (modFur f g s).xfer = s.xfer := rfl
@[simp] theorem modFur_mp (f : Nat) (g : Furrow → Furrow) : (modFur f g s).mp = s.mp := rfl
@[simp] theorem modFur_rlc (f : Nat) (g : Furrow → Furrow) : (modFur f g s).rlc = s.rlc := rfl
@[simp] theorem modFur_home (f : Nat) (g : Furrow → Furrow) : (modFur f g s).home = s.home := rfl
@[simp] theorem modFur_lanes (f : Nat) (g : Furrow → Furrow) : (modFur f g s).lanes = s.lanes := rfl
@[simp] theorem modFur_trl (f : Nat) (g : Furrow → Furrow) : (modFur f g s).trl = s.trl := rfl
@[simp] theorem modFur_rak (f : Nat) (g : Furrow → Furrow) : (modFur f g s).rak = s.rak := rfl
@[simp] theorem modFur_mgt (f : Nat) (g : Furrow → Furrow) : (modFur f g s).mgt = s.mgt := rfl
@[simp] theorem modFur_coll (f : Nat) (g : Furrow → Furrow) : (modFur f g s).coll = s.coll := rfl

@[simp] theorem modPlot_pending (p : Nat) (g : Plot → Plot) : (modPlot p g s).pending = s.pending := rfl
@[simp] theorem modPlot_sram (p : Nat) (g : Plot → Plot) : (modPlot p g s).sram = s.sram := rfl
@[simp] theorem modPlot_wlog (p : Nat) (g : Plot → Plot) : (modPlot p g s).wlog = s.wlog := rfl
@[simp] theorem modPlot_clk (p : Nat) (g : Plot → Plot) : (modPlot p g s).clk = s.clk := rfl
@[simp] theorem modPlot_free (p : Nat) (g : Plot → Plot) : (modPlot p g s).free = s.free := rfl
@[simp] theorem modPlot_outbox (p : Nat) (g : Plot → Plot) : (modPlot p g s).outbox = s.outbox := rfl
@[simp] theorem modPlot_glb (p : Nat) (g : Plot → Plot) : (modPlot p g s).glb = s.glb := rfl
@[simp] theorem modPlot_start (p : Nat) (g : Plot → Plot) : (modPlot p g s).start = s.start := rfl
@[simp] theorem modPlot_sup (p : Nat) (g : Plot → Plot) : (modPlot p g s).sup = s.sup := rfl
@[simp] theorem modPlot_mbx (p : Nat) (g : Plot → Plot) : (modPlot p g s).mbx = s.mbx := rfl
@[simp] theorem modPlot_flt (p : Nat) (g : Plot → Plot) : (modPlot p g s).flt = s.flt := rfl
@[simp] theorem modPlot_pwr (p : Nat) (g : Plot → Plot) : (modPlot p g s).pwr = s.pwr := rfl
@[simp] theorem modPlot_mrl (p : Nat) (g : Plot → Plot) : (modPlot p g s).mrl = s.mrl := rfl
@[simp] theorem modPlot_obs (p : Nat) (g : Plot → Plot) : (modPlot p g s).obs = s.obs := rfl
@[simp] theorem modPlot_sun (p : Nat) (g : Plot → Plot) : (modPlot p g s).sun = s.sun := rfl
@[simp] theorem modPlot_tst (p : Nat) (g : Plot → Plot) : (modPlot p g s).tst = s.tst := rfl
@[simp] theorem modPlot_plots (p : Nat) (g : Plot → Plot) : (modPlot p g s).plots = s.plots.mod p g := rfl
@[simp] theorem modPlot_tally (p : Nat) (g : Plot → Plot) : (modPlot p g s).tally = s.tally := rfl
@[simp] theorem modPlot_fur (p : Nat) (g : Plot → Plot) : (modPlot p g s).fur = s.fur := rfl
@[simp] theorem modPlot_img (p : Nat) (g : Plot → Plot) : (modPlot p g s).img = s.img := rfl
@[simp] theorem modPlot_xfer (p : Nat) (g : Plot → Plot) : (modPlot p g s).xfer = s.xfer := rfl
@[simp] theorem modPlot_mp (p : Nat) (g : Plot → Plot) : (modPlot p g s).mp = s.mp := rfl
@[simp] theorem modPlot_rlc (p : Nat) (g : Plot → Plot) : (modPlot p g s).rlc = s.rlc := rfl
@[simp] theorem modPlot_home (p : Nat) (g : Plot → Plot) : (modPlot p g s).home = s.home := rfl
@[simp] theorem modPlot_lanes (p : Nat) (g : Plot → Plot) : (modPlot p g s).lanes = s.lanes := rfl
@[simp] theorem modPlot_trl (p : Nat) (g : Plot → Plot) : (modPlot p g s).trl = s.trl := rfl
@[simp] theorem modPlot_rak (p : Nat) (g : Plot → Plot) : (modPlot p g s).rak = s.rak := rfl
@[simp] theorem modPlot_mgt (p : Nat) (g : Plot → Plot) : (modPlot p g s).mgt = s.mgt := rfl
@[simp] theorem modPlot_coll (p : Nat) (g : Plot → Plot) : (modPlot p g s).coll = s.coll := rfl

@[simp] theorem modDom_pending (d : Nat) (g : Dom → Dom) : (modDom d g s).pending = s.pending := rfl
@[simp] theorem modDom_sram (d : Nat) (g : Dom → Dom) : (modDom d g s).sram = s.sram := rfl
@[simp] theorem modDom_wlog (d : Nat) (g : Dom → Dom) : (modDom d g s).wlog = s.wlog := rfl
@[simp] theorem modDom_clk (d : Nat) (g : Dom → Dom) : (modDom d g s).clk = s.clk := rfl
@[simp] theorem modDom_free (d : Nat) (g : Dom → Dom) : (modDom d g s).free = s.free := rfl
@[simp] theorem modDom_outbox (d : Nat) (g : Dom → Dom) : (modDom d g s).outbox = s.outbox := rfl
@[simp] theorem modDom_glb (d : Nat) (g : Dom → Dom) : (modDom d g s).glb = s.glb := rfl
@[simp] theorem modDom_start (d : Nat) (g : Dom → Dom) : (modDom d g s).start = s.start := rfl
@[simp] theorem modDom_sup (d : Nat) (g : Dom → Dom) : (modDom d g s).sup = s.sup := rfl
@[simp] theorem modDom_mbx (d : Nat) (g : Dom → Dom) : (modDom d g s).mbx = s.mbx := rfl
@[simp] theorem modDom_flt (d : Nat) (g : Dom → Dom) : (modDom d g s).flt = s.flt := rfl
@[simp] theorem modDom_mrl (d : Nat) (g : Dom → Dom) : (modDom d g s).mrl = s.mrl := rfl
@[simp] theorem modDom_obs (d : Nat) (g : Dom → Dom) : (modDom d g s).obs = s.obs := rfl
@[simp] theorem modDom_sun (d : Nat) (g : Dom → Dom) : (modDom d g s).sun = s.sun := rfl
@[simp] theorem modDom_tst (d : Nat) (g : Dom → Dom) : (modDom d g s).tst = s.tst := rfl
@[simp] theorem modDom_plots (d : Nat) (g : Dom → Dom) : (modDom d g s).plots = s.plots := rfl
@[simp] theorem modDom_tally (d : Nat) (g : Dom → Dom) : (modDom d g s).tally = s.tally := rfl
@[simp] theorem modDom_fur (d : Nat) (g : Dom → Dom) : (modDom d g s).fur = s.fur := rfl
@[simp] theorem modDom_img (d : Nat) (g : Dom → Dom) : (modDom d g s).img = s.img := rfl
@[simp] theorem modDom_xfer (d : Nat) (g : Dom → Dom) : (modDom d g s).xfer = s.xfer := rfl
@[simp] theorem modDom_mp (d : Nat) (g : Dom → Dom) : (modDom d g s).mp = s.mp := rfl
@[simp] theorem modDom_rlc (d : Nat) (g : Dom → Dom) : (modDom d g s).rlc = s.rlc := rfl
@[simp] theorem modDom_home (d : Nat) (g : Dom → Dom) : (modDom d g s).home = s.home := rfl
@[simp] theorem modDom_lanes (d : Nat) (g : Dom → Dom) : (modDom d g s).lanes = s.lanes := rfl
@[simp] theorem modDom_trl (d : Nat) (g : Dom → Dom) : (modDom d g s).trl = s.trl := rfl
@[simp] theorem modDom_rak (d : Nat) (g : Dom → Dom) : (modDom d g s).rak = s.rak := rfl
@[simp] theorem modDom_mgt (d : Nat) (g : Dom → Dom) : (modDom d g s).mgt = s.mgt := rfl
@[simp] theorem modDom_coll (d : Nat) (g : Dom → Dom) : (modDom d g s).coll = s.coll := rfl

@[simp] theorem modColl_pending (g : Coll → Coll) : (modColl g s).pending = s.pending := rfl
@[simp] theorem modColl_sram (g : Coll → Coll) : (modColl g s).sram = s.sram := rfl
@[simp] theorem modColl_wlog (g : Coll → Coll) : (modColl g s).wlog = s.wlog := rfl
@[simp] theorem modColl_clk (g : Coll → Coll) : (modColl g s).clk = s.clk := rfl
@[simp] theorem modColl_free (g : Coll → Coll) : (modColl g s).free = s.free := rfl
@[simp] theorem modColl_outbox (g : Coll → Coll) : (modColl g s).outbox = s.outbox := rfl
@[simp] theorem modColl_glb (g : Coll → Coll) : (modColl g s).glb = s.glb := rfl
@[simp] theorem modColl_start (g : Coll → Coll) : (modColl g s).start = s.start := rfl
@[simp] theorem modColl_sup (g : Coll → Coll) : (modColl g s).sup = s.sup := rfl
@[simp] theorem modColl_mbx (g : Coll → Coll) : (modColl g s).mbx = s.mbx := rfl
@[simp] theorem modColl_flt (g : Coll → Coll) : (modColl g s).flt = s.flt := rfl
@[simp] theorem modColl_pwr (g : Coll → Coll) : (modColl g s).pwr = s.pwr := rfl
@[simp] theorem modColl_mrl (g : Coll → Coll) : (modColl g s).mrl = s.mrl := rfl
@[simp] theorem modColl_obs (g : Coll → Coll) : (modColl g s).obs = s.obs := rfl
@[simp] theorem modColl_sun (g : Coll → Coll) : (modColl g s).sun = s.sun := rfl
@[simp] theorem modColl_tst (g : Coll → Coll) : (modColl g s).tst = s.tst := rfl
@[simp] theorem modColl_plots (g : Coll → Coll) : (modColl g s).plots = s.plots := rfl
@[simp] theorem modColl_tally (g : Coll → Coll) : (modColl g s).tally = s.tally := rfl
@[simp] theorem modColl_fur (g : Coll → Coll) : (modColl g s).fur = s.fur := rfl
@[simp] theorem modColl_img (g : Coll → Coll) : (modColl g s).img = s.img := rfl
@[simp] theorem modColl_xfer (g : Coll → Coll) : (modColl g s).xfer = s.xfer := rfl
@[simp] theorem modColl_mp (g : Coll → Coll) : (modColl g s).mp = s.mp := rfl
@[simp] theorem modColl_rlc (g : Coll → Coll) : (modColl g s).rlc = s.rlc := rfl
@[simp] theorem modColl_home (g : Coll → Coll) : (modColl g s).home = s.home := rfl
@[simp] theorem modColl_lanes (g : Coll → Coll) : (modColl g s).lanes = s.lanes := rfl
@[simp] theorem modColl_trl (g : Coll → Coll) : (modColl g s).trl = s.trl := rfl
@[simp] theorem modColl_rak (g : Coll → Coll) : (modColl g s).rak = s.rak := rfl
@[simp] theorem modColl_mgt (g : Coll → Coll) : (modColl g s).mgt = s.mgt := rfl
@[simp] theorem modColl_coll (g : Coll → Coll) : (modColl g s).coll = g s.coll := rfl

@[simp] theorem modBed_pending (c : Nat) (g : Bed → Bed) : (modBed c g s).pending = s.pending := rfl
@[simp] theorem modBed_sram (c : Nat) (g : Bed → Bed) : (modBed c g s).sram = s.sram := rfl
@[simp] theorem modBed_wlog (c : Nat) (g : Bed → Bed) : (modBed c g s).wlog = s.wlog := rfl
@[simp] theorem modBed_clk (c : Nat) (g : Bed → Bed) : (modBed c g s).clk = s.clk := rfl
@[simp] theorem modBed_free (c : Nat) (g : Bed → Bed) : (modBed c g s).free = s.free := rfl
@[simp] theorem modBed_outbox (c : Nat) (g : Bed → Bed) : (modBed c g s).outbox = s.outbox := rfl
@[simp] theorem modBed_glb (c : Nat) (g : Bed → Bed) : (modBed c g s).glb = s.glb := rfl
@[simp] theorem modBed_start (c : Nat) (g : Bed → Bed) : (modBed c g s).start = s.start := rfl
@[simp] theorem modBed_sup (c : Nat) (g : Bed → Bed) : (modBed c g s).sup = s.sup := rfl
@[simp] theorem modBed_mbx (c : Nat) (g : Bed → Bed) : (modBed c g s).mbx = s.mbx := rfl
@[simp] theorem modBed_flt (c : Nat) (g : Bed → Bed) : (modBed c g s).flt = s.flt := rfl
@[simp] theorem modBed_pwr (c : Nat) (g : Bed → Bed) : (modBed c g s).pwr = s.pwr := rfl
@[simp] theorem modBed_mrl (c : Nat) (g : Bed → Bed) : (modBed c g s).mrl = s.mrl := rfl
@[simp] theorem modBed_obs (c : Nat) (g : Bed → Bed) : (modBed c g s).obs = s.obs := rfl
@[simp] theorem modBed_sun (c : Nat) (g : Bed → Bed) : (modBed c g s).sun = s.sun := rfl
@[simp] theorem modBed_tst (c : Nat) (g : Bed → Bed) : (modBed c g s).tst = s.tst := rfl
@[simp] theorem modBed_plots (c : Nat) (g : Bed → Bed) : (modBed c g s).plots = s.plots := rfl
@[simp] theorem modBed_tally (c : Nat) (g : Bed → Bed) : (modBed c g s).tally = s.tally := rfl
@[simp] theorem modBed_fur (c : Nat) (g : Bed → Bed) : (modBed c g s).fur = s.fur := rfl
@[simp] theorem modBed_img (c : Nat) (g : Bed → Bed) : (modBed c g s).img = s.img := rfl
@[simp] theorem modBed_xfer (c : Nat) (g : Bed → Bed) : (modBed c g s).xfer = s.xfer := rfl
@[simp] theorem modBed_mp (c : Nat) (g : Bed → Bed) : (modBed c g s).mp = s.mp := rfl
@[simp] theorem modBed_rlc (c : Nat) (g : Bed → Bed) : (modBed c g s).rlc = s.rlc := rfl
@[simp] theorem modBed_home (c : Nat) (g : Bed → Bed) : (modBed c g s).home = s.home := rfl
@[simp] theorem modBed_lanes (c : Nat) (g : Bed → Bed) : (modBed c g s).lanes = s.lanes := rfl
@[simp] theorem modBed_trl (c : Nat) (g : Bed → Bed) : (modBed c g s).trl = s.trl := rfl
@[simp] theorem modBed_rak (c : Nat) (g : Bed → Bed) : (modBed c g s).rak = s.rak := rfl
@[simp] theorem modBed_mgt (c : Nat) (g : Bed → Bed) : (modBed c g s).mgt = s.mgt := rfl

@[simp] theorem modStep_pending (c n : Nat) (g : CStep → CStep) : (modStep c n g s).pending = s.pending := rfl
@[simp] theorem modStep_sram (c n : Nat) (g : CStep → CStep) : (modStep c n g s).sram = s.sram := rfl
@[simp] theorem modStep_wlog (c n : Nat) (g : CStep → CStep) : (modStep c n g s).wlog = s.wlog := rfl
@[simp] theorem modStep_clk (c n : Nat) (g : CStep → CStep) : (modStep c n g s).clk = s.clk := rfl
@[simp] theorem modStep_free (c n : Nat) (g : CStep → CStep) : (modStep c n g s).free = s.free := rfl
@[simp] theorem modStep_outbox (c n : Nat) (g : CStep → CStep) : (modStep c n g s).outbox = s.outbox := rfl
@[simp] theorem modStep_glb (c n : Nat) (g : CStep → CStep) : (modStep c n g s).glb = s.glb := rfl
@[simp] theorem modStep_start (c n : Nat) (g : CStep → CStep) : (modStep c n g s).start = s.start := rfl
@[simp] theorem modStep_sup (c n : Nat) (g : CStep → CStep) : (modStep c n g s).sup = s.sup := rfl
@[simp] theorem modStep_mbx (c n : Nat) (g : CStep → CStep) : (modStep c n g s).mbx = s.mbx := rfl
@[simp] theorem modStep_flt (c n : Nat) (g : CStep → CStep) : (modStep c n g s).flt = s.flt := rfl
@[simp] theorem modStep_pwr (c n : Nat) (g : CStep → CStep) : (modStep c n g s).pwr = s.pwr := rfl
@[simp] theorem modStep_mrl (c n : Nat) (g : CStep → CStep) : (modStep c n g s).mrl = s.mrl := rfl
@[simp] theorem modStep_obs (c n : Nat) (g : CStep → CStep) : (modStep c n g s).obs = s.obs := rfl
@[simp] theorem modStep_sun (c n : Nat) (g : CStep → CStep) : (modStep c n g s).sun = s.sun := rfl
@[simp] theorem modStep_tst (c n : Nat) (g : CStep → CStep) : (modStep c n g s).tst = s.tst := rfl
@[simp] theorem modStep_plots (c n : Nat) (g : CStep → CStep) : (modStep c n g s).plots = s.plots := rfl
@[simp] theorem modStep_tally (c n : Nat) (g : CStep → CStep) : (modStep c n g s).tally = s.tally := rfl
@[simp] theorem modStep_fur (c n : Nat) (g : CStep → CStep) : (modStep c n g s).fur = s.fur := rfl
@[simp] theorem modStep_img (c n : Nat) (g : CStep → CStep) : (modStep c n g s).img = s.img := rfl
@[simp] theorem modStep_xfer (c n : Nat) (g : CStep → CStep) : (modStep c n g s).xfer = s.xfer := rfl
@[simp] theorem modStep_mp (c n : Nat) (g : CStep → CStep) : (modStep c n g s).mp = s.mp := rfl
@[simp] theorem modStep_rlc (c n : Nat) (g : CStep → CStep) : (modStep c n g s).rlc = s.rlc := rfl
@[simp] theorem modStep_home (c n : Nat) (g : CStep → CStep) : (modStep c n g s).home = s.home := rfl
@[simp] theorem modStep_lanes (c n : Nat) (g : CStep → CStep) : (modStep c n g s).lanes = s.lanes := rfl
@[simp] theorem modStep_trl (c n : Nat) (g : CStep → CStep) : (modStep c n g s).trl = s.trl := rfl
@[simp] theorem modStep_rak (c n : Nat) (g : CStep → CStep) : (modStep c n g s).rak = s.rak := rfl
@[simp] theorem modStep_mgt (c n : Nat) (g : CStep → CStep) : (modStep c n g s).mgt = s.mgt := rfl

@[simp] theorem modSlot_pending (i : Nat) (g : Slot → Slot) : (modSlot i g s).pending = s.pending := rfl
@[simp] theorem modSlot_sram (i : Nat) (g : Slot → Slot) : (modSlot i g s).sram = s.sram := rfl
@[simp] theorem modSlot_wlog (i : Nat) (g : Slot → Slot) : (modSlot i g s).wlog = s.wlog := rfl
@[simp] theorem modSlot_clk (i : Nat) (g : Slot → Slot) : (modSlot i g s).clk = s.clk := rfl
@[simp] theorem modSlot_free (i : Nat) (g : Slot → Slot) : (modSlot i g s).free = s.free := rfl
@[simp] theorem modSlot_outbox (i : Nat) (g : Slot → Slot) : (modSlot i g s).outbox = s.outbox := rfl
@[simp] theorem modSlot_glb (i : Nat) (g : Slot → Slot) : (modSlot i g s).glb = s.glb := rfl
@[simp] theorem modSlot_start (i : Nat) (g : Slot → Slot) : (modSlot i g s).start = s.start := rfl
@[simp] theorem modSlot_sup (i : Nat) (g : Slot → Slot) : (modSlot i g s).sup = s.sup := rfl
@[simp] theorem modSlot_mbx (i : Nat) (g : Slot → Slot) : (modSlot i g s).mbx = s.mbx := rfl
@[simp] theorem modSlot_flt (i : Nat) (g : Slot → Slot) : (modSlot i g s).flt = s.flt := rfl
@[simp] theorem modSlot_pwr (i : Nat) (g : Slot → Slot) : (modSlot i g s).pwr = s.pwr := rfl
@[simp] theorem modSlot_mrl (i : Nat) (g : Slot → Slot) : (modSlot i g s).mrl = s.mrl := rfl
@[simp] theorem modSlot_obs (i : Nat) (g : Slot → Slot) : (modSlot i g s).obs = s.obs := rfl
@[simp] theorem modSlot_sun (i : Nat) (g : Slot → Slot) : (modSlot i g s).sun = s.sun := rfl
@[simp] theorem modSlot_tst (i : Nat) (g : Slot → Slot) : (modSlot i g s).tst = s.tst := rfl
@[simp] theorem modSlot_plots (i : Nat) (g : Slot → Slot) : (modSlot i g s).plots = s.plots := rfl
@[simp] theorem modSlot_tally (i : Nat) (g : Slot → Slot) : (modSlot i g s).tally = s.tally := rfl
@[simp] theorem modSlot_fur (i : Nat) (g : Slot → Slot) : (modSlot i g s).fur = s.fur := rfl
@[simp] theorem modSlot_img (i : Nat) (g : Slot → Slot) : (modSlot i g s).img = s.img := rfl
@[simp] theorem modSlot_xfer (i : Nat) (g : Slot → Slot) : (modSlot i g s).xfer = s.xfer := rfl
@[simp] theorem modSlot_mp (i : Nat) (g : Slot → Slot) : (modSlot i g s).mp = s.mp := rfl
@[simp] theorem modSlot_rlc (i : Nat) (g : Slot → Slot) : (modSlot i g s).rlc = s.rlc := rfl
@[simp] theorem modSlot_home (i : Nat) (g : Slot → Slot) : (modSlot i g s).home = s.home := rfl
@[simp] theorem modSlot_lanes (i : Nat) (g : Slot → Slot) : (modSlot i g s).lanes = s.lanes := rfl
@[simp] theorem modSlot_trl (i : Nat) (g : Slot → Slot) : (modSlot i g s).trl = s.trl := rfl
@[simp] theorem modSlot_rak (i : Nat) (g : Slot → Slot) : (modSlot i g s).rak = s.rak := rfl
@[simp] theorem modSlot_mgt (i : Nat) (g : Slot → Slot) : (modSlot i g s).mgt = s.mgt := rfl

@[simp] theorem modRlc_pending (g : Rlc → Rlc) : (modRlc g s).pending = s.pending := rfl
@[simp] theorem modRlc_sram (g : Rlc → Rlc) : (modRlc g s).sram = s.sram := rfl
@[simp] theorem modRlc_wlog (g : Rlc → Rlc) : (modRlc g s).wlog = s.wlog := rfl
@[simp] theorem modRlc_clk (g : Rlc → Rlc) : (modRlc g s).clk = s.clk := rfl
@[simp] theorem modRlc_free (g : Rlc → Rlc) : (modRlc g s).free = s.free := rfl
@[simp] theorem modRlc_outbox (g : Rlc → Rlc) : (modRlc g s).outbox = s.outbox := rfl
@[simp] theorem modRlc_glb (g : Rlc → Rlc) : (modRlc g s).glb = s.glb := rfl
@[simp] theorem modRlc_start (g : Rlc → Rlc) : (modRlc g s).start = s.start := rfl
@[simp] theorem modRlc_sup (g : Rlc → Rlc) : (modRlc g s).sup = s.sup := rfl
@[simp] theorem modRlc_mbx (g : Rlc → Rlc) : (modRlc g s).mbx = s.mbx := rfl
@[simp] theorem modRlc_flt (g : Rlc → Rlc) : (modRlc g s).flt = s.flt := rfl
@[simp] theorem modRlc_pwr (g : Rlc → Rlc) : (modRlc g s).pwr = s.pwr := rfl
@[simp] theorem modRlc_mrl (g : Rlc → Rlc) : (modRlc g s).mrl = s.mrl := rfl
@[simp] theorem modRlc_obs (g : Rlc → Rlc) : (modRlc g s).obs = s.obs := rfl
@[simp] theorem modRlc_sun (g : Rlc → Rlc) : (modRlc g s).sun = s.sun := rfl
@[simp] theorem modRlc_tst (g : Rlc → Rlc) : (modRlc g s).tst = s.tst := rfl
@[simp] theorem modRlc_plots (g : Rlc → Rlc) : (modRlc g s).plots = s.plots := rfl
@[simp] theorem modRlc_tally (g : Rlc → Rlc) : (modRlc g s).tally = s.tally := rfl
@[simp] theorem modRlc_fur (g : Rlc → Rlc) : (modRlc g s).fur = s.fur := rfl
@[simp] theorem modRlc_img (g : Rlc → Rlc) : (modRlc g s).img = s.img := rfl
@[simp] theorem modRlc_xfer (g : Rlc → Rlc) : (modRlc g s).xfer = s.xfer := rfl
@[simp] theorem modRlc_mp (g : Rlc → Rlc) : (modRlc g s).mp = s.mp := rfl
@[simp] theorem modRlc_rlc (g : Rlc → Rlc) : (modRlc g s).rlc = g s.rlc := rfl
@[simp] theorem modRlc_home (g : Rlc → Rlc) : (modRlc g s).home = s.home := rfl
@[simp] theorem modRlc_lanes (g : Rlc → Rlc) : (modRlc g s).lanes = s.lanes := rfl
@[simp] theorem modRlc_trl (g : Rlc → Rlc) : (modRlc g s).trl = s.trl := rfl
@[simp] theorem modRlc_rak (g : Rlc → Rlc) : (modRlc g s).rak = s.rak := rfl
@[simp] theorem modRlc_mgt (g : Rlc → Rlc) : (modRlc g s).mgt = s.mgt := rfl
@[simp] theorem modRlc_coll (g : Rlc → Rlc) : (modRlc g s).coll = s.coll := rfl

@[simp] theorem modHome_pending (g : Home → Home) : (modHome g s).pending = s.pending := rfl
@[simp] theorem modHome_sram (g : Home → Home) : (modHome g s).sram = s.sram := rfl
@[simp] theorem modHome_wlog (g : Home → Home) : (modHome g s).wlog = s.wlog := rfl
@[simp] theorem modHome_clk (g : Home → Home) : (modHome g s).clk = s.clk := rfl
@[simp] theorem modHome_free (g : Home → Home) : (modHome g s).free = s.free := rfl
@[simp] theorem modHome_outbox (g : Home → Home) : (modHome g s).outbox = s.outbox := rfl
@[simp] theorem modHome_glb (g : Home → Home) : (modHome g s).glb = s.glb := rfl
@[simp] theorem modHome_start (g : Home → Home) : (modHome g s).start = s.start := rfl
@[simp] theorem modHome_sup (g : Home → Home) : (modHome g s).sup = s.sup := rfl
@[simp] theorem modHome_mbx (g : Home → Home) : (modHome g s).mbx = s.mbx := rfl
@[simp] theorem modHome_flt (g : Home → Home) : (modHome g s).flt = s.flt := rfl
@[simp] theorem modHome_pwr (g : Home → Home) : (modHome g s).pwr = s.pwr := rfl
@[simp] theorem modHome_mrl (g : Home → Home) : (modHome g s).mrl = s.mrl := rfl
@[simp] theorem modHome_obs (g : Home → Home) : (modHome g s).obs = s.obs := rfl
@[simp] theorem modHome_sun (g : Home → Home) : (modHome g s).sun = s.sun := rfl
@[simp] theorem modHome_tst (g : Home → Home) : (modHome g s).tst = s.tst := rfl
@[simp] theorem modHome_plots (g : Home → Home) : (modHome g s).plots = s.plots := rfl
@[simp] theorem modHome_tally (g : Home → Home) : (modHome g s).tally = s.tally := rfl
@[simp] theorem modHome_fur (g : Home → Home) : (modHome g s).fur = s.fur := rfl
@[simp] theorem modHome_img (g : Home → Home) : (modHome g s).img = s.img := rfl
@[simp] theorem modHome_xfer (g : Home → Home) : (modHome g s).xfer = s.xfer := rfl
@[simp] theorem modHome_mp (g : Home → Home) : (modHome g s).mp = s.mp := rfl
@[simp] theorem modHome_rlc (g : Home → Home) : (modHome g s).rlc = s.rlc := rfl
@[simp] theorem modHome_home (g : Home → Home) : (modHome g s).home = g s.home := rfl
@[simp] theorem modHome_lanes (g : Home → Home) : (modHome g s).lanes = s.lanes := rfl
@[simp] theorem modHome_trl (g : Home → Home) : (modHome g s).trl = s.trl := rfl
@[simp] theorem modHome_rak (g : Home → Home) : (modHome g s).rak = s.rak := rfl
@[simp] theorem modHome_mgt (g : Home → Home) : (modHome g s).mgt = s.mgt := rfl
@[simp] theorem modHome_coll (g : Home → Home) : (modHome g s).coll = s.coll := rfl

@[simp] theorem modFlt_pending (g : Flt → Flt) : (modFlt g s).pending = s.pending := rfl
@[simp] theorem modFlt_sram (g : Flt → Flt) : (modFlt g s).sram = s.sram := rfl
@[simp] theorem modFlt_wlog (g : Flt → Flt) : (modFlt g s).wlog = s.wlog := rfl
@[simp] theorem modFlt_clk (g : Flt → Flt) : (modFlt g s).clk = s.clk := rfl
@[simp] theorem modFlt_free (g : Flt → Flt) : (modFlt g s).free = s.free := rfl
@[simp] theorem modFlt_outbox (g : Flt → Flt) : (modFlt g s).outbox = s.outbox := rfl
@[simp] theorem modFlt_glb (g : Flt → Flt) : (modFlt g s).glb = s.glb := rfl
@[simp] theorem modFlt_start (g : Flt → Flt) : (modFlt g s).start = s.start := rfl
@[simp] theorem modFlt_sup (g : Flt → Flt) : (modFlt g s).sup = s.sup := rfl
@[simp] theorem modFlt_mbx (g : Flt → Flt) : (modFlt g s).mbx = s.mbx := rfl
@[simp] theorem modFlt_flt (g : Flt → Flt) : (modFlt g s).flt = g s.flt := rfl
@[simp] theorem modFlt_pwr (g : Flt → Flt) : (modFlt g s).pwr = s.pwr := rfl
@[simp] theorem modFlt_mrl (g : Flt → Flt) : (modFlt g s).mrl = s.mrl := rfl
@[simp] theorem modFlt_obs (g : Flt → Flt) : (modFlt g s).obs = s.obs := rfl
@[simp] theorem modFlt_sun (g : Flt → Flt) : (modFlt g s).sun = s.sun := rfl
@[simp] theorem modFlt_tst (g : Flt → Flt) : (modFlt g s).tst = s.tst := rfl
@[simp] theorem modFlt_plots (g : Flt → Flt) : (modFlt g s).plots = s.plots := rfl
@[simp] theorem modFlt_tally (g : Flt → Flt) : (modFlt g s).tally = s.tally := rfl
@[simp] theorem modFlt_fur (g : Flt → Flt) : (modFlt g s).fur = s.fur := rfl
@[simp] theorem modFlt_img (g : Flt → Flt) : (modFlt g s).img = s.img := rfl
@[simp] theorem modFlt_xfer (g : Flt → Flt) : (modFlt g s).xfer = s.xfer := rfl
@[simp] theorem modFlt_mp (g : Flt → Flt) : (modFlt g s).mp = s.mp := rfl
@[simp] theorem modFlt_rlc (g : Flt → Flt) : (modFlt g s).rlc = s.rlc := rfl
@[simp] theorem modFlt_home (g : Flt → Flt) : (modFlt g s).home = s.home := rfl
@[simp] theorem modFlt_lanes (g : Flt → Flt) : (modFlt g s).lanes = s.lanes := rfl
@[simp] theorem modFlt_trl (g : Flt → Flt) : (modFlt g s).trl = s.trl := rfl
@[simp] theorem modFlt_rak (g : Flt → Flt) : (modFlt g s).rak = s.rak := rfl
@[simp] theorem modFlt_mgt (g : Flt → Flt) : (modFlt g s).mgt = s.mgt := rfl
@[simp] theorem modFlt_coll (g : Flt → Flt) : (modFlt g s).coll = s.coll := rfl

@[simp] theorem modLink_pending (l : Nat) (g : Link → Link) : (modLink l g s).pending = s.pending := rfl
@[simp] theorem modLink_sram (l : Nat) (g : Link → Link) : (modLink l g s).sram = s.sram := rfl
@[simp] theorem modLink_wlog (l : Nat) (g : Link → Link) : (modLink l g s).wlog = s.wlog := rfl
@[simp] theorem modLink_clk (l : Nat) (g : Link → Link) : (modLink l g s).clk = s.clk := rfl
@[simp] theorem modLink_free (l : Nat) (g : Link → Link) : (modLink l g s).free = s.free := rfl
@[simp] theorem modLink_outbox (l : Nat) (g : Link → Link) : (modLink l g s).outbox = s.outbox := rfl
@[simp] theorem modLink_glb (l : Nat) (g : Link → Link) : (modLink l g s).glb = s.glb := rfl
@[simp] theorem modLink_start (l : Nat) (g : Link → Link) : (modLink l g s).start = s.start := rfl
@[simp] theorem modLink_sup (l : Nat) (g : Link → Link) : (modLink l g s).sup = s.sup := rfl
@[simp] theorem modLink_mbx (l : Nat) (g : Link → Link) : (modLink l g s).mbx = s.mbx := rfl
@[simp] theorem modLink_flt (l : Nat) (g : Link → Link) : (modLink l g s).flt = s.flt := rfl
@[simp] theorem modLink_pwr (l : Nat) (g : Link → Link) : (modLink l g s).pwr = s.pwr := rfl
@[simp] theorem modLink_mrl (l : Nat) (g : Link → Link) : (modLink l g s).mrl = s.mrl := rfl
@[simp] theorem modLink_obs (l : Nat) (g : Link → Link) : (modLink l g s).obs = s.obs := rfl
@[simp] theorem modLink_sun (l : Nat) (g : Link → Link) : (modLink l g s).sun = s.sun := rfl
@[simp] theorem modLink_tst (l : Nat) (g : Link → Link) : (modLink l g s).tst = s.tst := rfl
@[simp] theorem modLink_plots (l : Nat) (g : Link → Link) : (modLink l g s).plots = s.plots := rfl
@[simp] theorem modLink_tally (l : Nat) (g : Link → Link) : (modLink l g s).tally = s.tally := rfl
@[simp] theorem modLink_fur (l : Nat) (g : Link → Link) : (modLink l g s).fur = s.fur := rfl
@[simp] theorem modLink_img (l : Nat) (g : Link → Link) : (modLink l g s).img = s.img := rfl
@[simp] theorem modLink_xfer (l : Nat) (g : Link → Link) : (modLink l g s).xfer = s.xfer := rfl
@[simp] theorem modLink_mp (l : Nat) (g : Link → Link) : (modLink l g s).mp = s.mp := rfl
@[simp] theorem modLink_rlc (l : Nat) (g : Link → Link) : (modLink l g s).rlc = s.rlc := rfl
@[simp] theorem modLink_home (l : Nat) (g : Link → Link) : (modLink l g s).home = s.home := rfl
@[simp] theorem modLink_trl (l : Nat) (g : Link → Link) : (modLink l g s).trl = s.trl := rfl
@[simp] theorem modLink_rak (l : Nat) (g : Link → Link) : (modLink l g s).rak = s.rak := rfl
@[simp] theorem modLink_mgt (l : Nat) (g : Link → Link) : (modLink l g s).mgt = s.mgt := rfl
@[simp] theorem modLink_coll (l : Nat) (g : Link → Link) : (modLink l g s).coll = s.coll := rfl

@[simp] theorem modLane_pending (q : Nat) (g : Lane → Lane) : (modLane q g s).pending = s.pending := rfl
@[simp] theorem modLane_sram (q : Nat) (g : Lane → Lane) : (modLane q g s).sram = s.sram := rfl
@[simp] theorem modLane_wlog (q : Nat) (g : Lane → Lane) : (modLane q g s).wlog = s.wlog := rfl
@[simp] theorem modLane_clk (q : Nat) (g : Lane → Lane) : (modLane q g s).clk = s.clk := rfl
@[simp] theorem modLane_free (q : Nat) (g : Lane → Lane) : (modLane q g s).free = s.free := rfl
@[simp] theorem modLane_outbox (q : Nat) (g : Lane → Lane) : (modLane q g s).outbox = s.outbox := rfl
@[simp] theorem modLane_glb (q : Nat) (g : Lane → Lane) : (modLane q g s).glb = s.glb := rfl
@[simp] theorem modLane_start (q : Nat) (g : Lane → Lane) : (modLane q g s).start = s.start := rfl
@[simp] theorem modLane_sup (q : Nat) (g : Lane → Lane) : (modLane q g s).sup = s.sup := rfl
@[simp] theorem modLane_mbx (q : Nat) (g : Lane → Lane) : (modLane q g s).mbx = s.mbx := rfl
@[simp] theorem modLane_flt (q : Nat) (g : Lane → Lane) : (modLane q g s).flt = s.flt := rfl
@[simp] theorem modLane_pwr (q : Nat) (g : Lane → Lane) : (modLane q g s).pwr = s.pwr := rfl
@[simp] theorem modLane_mrl (q : Nat) (g : Lane → Lane) : (modLane q g s).mrl = s.mrl := rfl
@[simp] theorem modLane_obs (q : Nat) (g : Lane → Lane) : (modLane q g s).obs = s.obs := rfl
@[simp] theorem modLane_sun (q : Nat) (g : Lane → Lane) : (modLane q g s).sun = s.sun := rfl
@[simp] theorem modLane_tst (q : Nat) (g : Lane → Lane) : (modLane q g s).tst = s.tst := rfl
@[simp] theorem modLane_plots (q : Nat) (g : Lane → Lane) : (modLane q g s).plots = s.plots := rfl
@[simp] theorem modLane_tally (q : Nat) (g : Lane → Lane) : (modLane q g s).tally = s.tally := rfl
@[simp] theorem modLane_fur (q : Nat) (g : Lane → Lane) : (modLane q g s).fur = s.fur := rfl
@[simp] theorem modLane_img (q : Nat) (g : Lane → Lane) : (modLane q g s).img = s.img := rfl
@[simp] theorem modLane_xfer (q : Nat) (g : Lane → Lane) : (modLane q g s).xfer = s.xfer := rfl
@[simp] theorem modLane_mp (q : Nat) (g : Lane → Lane) : (modLane q g s).mp = s.mp := rfl
@[simp] theorem modLane_rlc (q : Nat) (g : Lane → Lane) : (modLane q g s).rlc = s.rlc := rfl
@[simp] theorem modLane_home (q : Nat) (g : Lane → Lane) : (modLane q g s).home = s.home := rfl
@[simp] theorem modLane_trl (q : Nat) (g : Lane → Lane) : (modLane q g s).trl = s.trl := rfl
@[simp] theorem modLane_rak (q : Nat) (g : Lane → Lane) : (modLane q g s).rak = s.rak := rfl
@[simp] theorem modLane_mgt (q : Nat) (g : Lane → Lane) : (modLane q g s).mgt = s.mgt := rfl
@[simp] theorem modLane_coll (q : Nat) (g : Lane → Lane) : (modLane q g s).coll = s.coll := rfl

@[simp] theorem modMrl_pending (g : Marl → Marl) : (modMrl g s).pending = s.pending := rfl
@[simp] theorem modMrl_sram (g : Marl → Marl) : (modMrl g s).sram = s.sram := rfl
@[simp] theorem modMrl_wlog (g : Marl → Marl) : (modMrl g s).wlog = s.wlog := rfl
@[simp] theorem modMrl_clk (g : Marl → Marl) : (modMrl g s).clk = s.clk := rfl
@[simp] theorem modMrl_free (g : Marl → Marl) : (modMrl g s).free = s.free := rfl
@[simp] theorem modMrl_outbox (g : Marl → Marl) : (modMrl g s).outbox = s.outbox := rfl
@[simp] theorem modMrl_glb (g : Marl → Marl) : (modMrl g s).glb = s.glb := rfl
@[simp] theorem modMrl_start (g : Marl → Marl) : (modMrl g s).start = s.start := rfl
@[simp] theorem modMrl_sup (g : Marl → Marl) : (modMrl g s).sup = s.sup := rfl
@[simp] theorem modMrl_mbx (g : Marl → Marl) : (modMrl g s).mbx = s.mbx := rfl
@[simp] theorem modMrl_flt (g : Marl → Marl) : (modMrl g s).flt = s.flt := rfl
@[simp] theorem modMrl_pwr (g : Marl → Marl) : (modMrl g s).pwr = s.pwr := rfl
@[simp] theorem modMrl_mrl (g : Marl → Marl) : (modMrl g s).mrl = g s.mrl := rfl
@[simp] theorem modMrl_obs (g : Marl → Marl) : (modMrl g s).obs = s.obs := rfl
@[simp] theorem modMrl_sun (g : Marl → Marl) : (modMrl g s).sun = s.sun := rfl
@[simp] theorem modMrl_tst (g : Marl → Marl) : (modMrl g s).tst = s.tst := rfl
@[simp] theorem modMrl_plots (g : Marl → Marl) : (modMrl g s).plots = s.plots := rfl
@[simp] theorem modMrl_tally (g : Marl → Marl) : (modMrl g s).tally = s.tally := rfl
@[simp] theorem modMrl_fur (g : Marl → Marl) : (modMrl g s).fur = s.fur := rfl
@[simp] theorem modMrl_img (g : Marl → Marl) : (modMrl g s).img = s.img := rfl
@[simp] theorem modMrl_xfer (g : Marl → Marl) : (modMrl g s).xfer = s.xfer := rfl
@[simp] theorem modMrl_mp (g : Marl → Marl) : (modMrl g s).mp = s.mp := rfl
@[simp] theorem modMrl_rlc (g : Marl → Marl) : (modMrl g s).rlc = s.rlc := rfl
@[simp] theorem modMrl_home (g : Marl → Marl) : (modMrl g s).home = s.home := rfl
@[simp] theorem modMrl_lanes (g : Marl → Marl) : (modMrl g s).lanes = s.lanes := rfl
@[simp] theorem modMrl_trl (g : Marl → Marl) : (modMrl g s).trl = s.trl := rfl
@[simp] theorem modMrl_rak (g : Marl → Marl) : (modMrl g s).rak = s.rak := rfl
@[simp] theorem modMrl_mgt (g : Marl → Marl) : (modMrl g s).mgt = s.mgt := rfl
@[simp] theorem modMrl_coll (g : Marl → Marl) : (modMrl g s).coll = s.coll := rfl

@[simp] theorem modObs_pending (g : Obs → Obs) : (modObs g s).pending = s.pending := rfl
@[simp] theorem modObs_sram (g : Obs → Obs) : (modObs g s).sram = s.sram := rfl
@[simp] theorem modObs_wlog (g : Obs → Obs) : (modObs g s).wlog = s.wlog := rfl
@[simp] theorem modObs_clk (g : Obs → Obs) : (modObs g s).clk = s.clk := rfl
@[simp] theorem modObs_free (g : Obs → Obs) : (modObs g s).free = s.free := rfl
@[simp] theorem modObs_outbox (g : Obs → Obs) : (modObs g s).outbox = s.outbox := rfl
@[simp] theorem modObs_glb (g : Obs → Obs) : (modObs g s).glb = s.glb := rfl
@[simp] theorem modObs_start (g : Obs → Obs) : (modObs g s).start = s.start := rfl
@[simp] theorem modObs_sup (g : Obs → Obs) : (modObs g s).sup = s.sup := rfl
@[simp] theorem modObs_mbx (g : Obs → Obs) : (modObs g s).mbx = s.mbx := rfl
@[simp] theorem modObs_flt (g : Obs → Obs) : (modObs g s).flt = s.flt := rfl
@[simp] theorem modObs_pwr (g : Obs → Obs) : (modObs g s).pwr = s.pwr := rfl
@[simp] theorem modObs_mrl (g : Obs → Obs) : (modObs g s).mrl = s.mrl := rfl
@[simp] theorem modObs_obs (g : Obs → Obs) : (modObs g s).obs = g s.obs := rfl
@[simp] theorem modObs_sun (g : Obs → Obs) : (modObs g s).sun = s.sun := rfl
@[simp] theorem modObs_tst (g : Obs → Obs) : (modObs g s).tst = s.tst := rfl
@[simp] theorem modObs_plots (g : Obs → Obs) : (modObs g s).plots = s.plots := rfl
@[simp] theorem modObs_tally (g : Obs → Obs) : (modObs g s).tally = s.tally := rfl
@[simp] theorem modObs_fur (g : Obs → Obs) : (modObs g s).fur = s.fur := rfl
@[simp] theorem modObs_img (g : Obs → Obs) : (modObs g s).img = s.img := rfl
@[simp] theorem modObs_xfer (g : Obs → Obs) : (modObs g s).xfer = s.xfer := rfl
@[simp] theorem modObs_mp (g : Obs → Obs) : (modObs g s).mp = s.mp := rfl
@[simp] theorem modObs_rlc (g : Obs → Obs) : (modObs g s).rlc = s.rlc := rfl
@[simp] theorem modObs_home (g : Obs → Obs) : (modObs g s).home = s.home := rfl
@[simp] theorem modObs_lanes (g : Obs → Obs) : (modObs g s).lanes = s.lanes := rfl
@[simp] theorem modObs_trl (g : Obs → Obs) : (modObs g s).trl = s.trl := rfl
@[simp] theorem modObs_rak (g : Obs → Obs) : (modObs g s).rak = s.rak := rfl
@[simp] theorem modObs_mgt (g : Obs → Obs) : (modObs g s).mgt = s.mgt := rfl
@[simp] theorem modObs_coll (g : Obs → Obs) : (modObs g s).coll = s.coll := rfl

@[simp] theorem modSup_pending (g : Sup → Sup) : (modSup g s).pending = s.pending := rfl
@[simp] theorem modSup_sram (g : Sup → Sup) : (modSup g s).sram = s.sram := rfl
@[simp] theorem modSup_wlog (g : Sup → Sup) : (modSup g s).wlog = s.wlog := rfl
@[simp] theorem modSup_clk (g : Sup → Sup) : (modSup g s).clk = s.clk := rfl
@[simp] theorem modSup_free (g : Sup → Sup) : (modSup g s).free = s.free := rfl
@[simp] theorem modSup_outbox (g : Sup → Sup) : (modSup g s).outbox = s.outbox := rfl
@[simp] theorem modSup_glb (g : Sup → Sup) : (modSup g s).glb = s.glb := rfl
@[simp] theorem modSup_start (g : Sup → Sup) : (modSup g s).start = s.start := rfl
@[simp] theorem modSup_sup (g : Sup → Sup) : (modSup g s).sup = g s.sup := rfl
@[simp] theorem modSup_mbx (g : Sup → Sup) : (modSup g s).mbx = s.mbx := rfl
@[simp] theorem modSup_flt (g : Sup → Sup) : (modSup g s).flt = s.flt := rfl
@[simp] theorem modSup_pwr (g : Sup → Sup) : (modSup g s).pwr = s.pwr := rfl
@[simp] theorem modSup_mrl (g : Sup → Sup) : (modSup g s).mrl = s.mrl := rfl
@[simp] theorem modSup_obs (g : Sup → Sup) : (modSup g s).obs = s.obs := rfl
@[simp] theorem modSup_sun (g : Sup → Sup) : (modSup g s).sun = s.sun := rfl
@[simp] theorem modSup_tst (g : Sup → Sup) : (modSup g s).tst = s.tst := rfl
@[simp] theorem modSup_plots (g : Sup → Sup) : (modSup g s).plots = s.plots := rfl
@[simp] theorem modSup_tally (g : Sup → Sup) : (modSup g s).tally = s.tally := rfl
@[simp] theorem modSup_fur (g : Sup → Sup) : (modSup g s).fur = s.fur := rfl
@[simp] theorem modSup_img (g : Sup → Sup) : (modSup g s).img = s.img := rfl
@[simp] theorem modSup_xfer (g : Sup → Sup) : (modSup g s).xfer = s.xfer := rfl
@[simp] theorem modSup_mp (g : Sup → Sup) : (modSup g s).mp = s.mp := rfl
@[simp] theorem modSup_rlc (g : Sup → Sup) : (modSup g s).rlc = s.rlc := rfl
@[simp] theorem modSup_home (g : Sup → Sup) : (modSup g s).home = s.home := rfl
@[simp] theorem modSup_lanes (g : Sup → Sup) : (modSup g s).lanes = s.lanes := rfl
@[simp] theorem modSup_trl (g : Sup → Sup) : (modSup g s).trl = s.trl := rfl
@[simp] theorem modSup_rak (g : Sup → Sup) : (modSup g s).rak = s.rak := rfl
@[simp] theorem modSup_mgt (g : Sup → Sup) : (modSup g s).mgt = s.mgt := rfl
@[simp] theorem modSup_coll (g : Sup → Sup) : (modSup g s).coll = s.coll := rfl

@[simp] theorem modPort_pending (p : Nat) (g : MPort → MPort) : (modPort p g s).pending = s.pending := rfl
@[simp] theorem modPort_sram (p : Nat) (g : MPort → MPort) : (modPort p g s).sram = s.sram := rfl
@[simp] theorem modPort_wlog (p : Nat) (g : MPort → MPort) : (modPort p g s).wlog = s.wlog := rfl
@[simp] theorem modPort_clk (p : Nat) (g : MPort → MPort) : (modPort p g s).clk = s.clk := rfl
@[simp] theorem modPort_free (p : Nat) (g : MPort → MPort) : (modPort p g s).free = s.free := rfl
@[simp] theorem modPort_outbox (p : Nat) (g : MPort → MPort) : (modPort p g s).outbox = s.outbox := rfl
@[simp] theorem modPort_glb (p : Nat) (g : MPort → MPort) : (modPort p g s).glb = s.glb := rfl
@[simp] theorem modPort_start (p : Nat) (g : MPort → MPort) : (modPort p g s).start = s.start := rfl
@[simp] theorem modPort_sup (p : Nat) (g : MPort → MPort) : (modPort p g s).sup = s.sup := rfl
@[simp] theorem modPort_mbx (p : Nat) (g : MPort → MPort) : (modPort p g s).mbx = s.mbx := rfl
@[simp] theorem modPort_flt (p : Nat) (g : MPort → MPort) : (modPort p g s).flt = s.flt := rfl
@[simp] theorem modPort_pwr (p : Nat) (g : MPort → MPort) : (modPort p g s).pwr = s.pwr := rfl
@[simp] theorem modPort_mrl (p : Nat) (g : MPort → MPort) : (modPort p g s).mrl = s.mrl := rfl
@[simp] theorem modPort_obs (p : Nat) (g : MPort → MPort) : (modPort p g s).obs = s.obs := rfl
@[simp] theorem modPort_sun (p : Nat) (g : MPort → MPort) : (modPort p g s).sun = s.sun := rfl
@[simp] theorem modPort_tst (p : Nat) (g : MPort → MPort) : (modPort p g s).tst = s.tst := rfl
@[simp] theorem modPort_plots (p : Nat) (g : MPort → MPort) : (modPort p g s).plots = s.plots := rfl
@[simp] theorem modPort_tally (p : Nat) (g : MPort → MPort) : (modPort p g s).tally = s.tally := rfl
@[simp] theorem modPort_fur (p : Nat) (g : MPort → MPort) : (modPort p g s).fur = s.fur := rfl
@[simp] theorem modPort_img (p : Nat) (g : MPort → MPort) : (modPort p g s).img = s.img := rfl
@[simp] theorem modPort_xfer (p : Nat) (g : MPort → MPort) : (modPort p g s).xfer = s.xfer := rfl
@[simp] theorem modPort_rlc (p : Nat) (g : MPort → MPort) : (modPort p g s).rlc = s.rlc := rfl
@[simp] theorem modPort_home (p : Nat) (g : MPort → MPort) : (modPort p g s).home = s.home := rfl
@[simp] theorem modPort_lanes (p : Nat) (g : MPort → MPort) : (modPort p g s).lanes = s.lanes := rfl
@[simp] theorem modPort_trl (p : Nat) (g : MPort → MPort) : (modPort p g s).trl = s.trl := rfl
@[simp] theorem modPort_rak (p : Nat) (g : MPort → MPort) : (modPort p g s).rak = s.rak := rfl
@[simp] theorem modPort_mgt (p : Nat) (g : MPort → MPort) : (modPort p g s).mgt = s.mgt := rfl
@[simp] theorem modPort_coll (p : Nat) (g : MPort → MPort) : (modPort p g s).coll = s.coll := rfl

@[simp] theorem modPwr_pending (g : Pwr → Pwr) : (modPwr g s).pending = s.pending := rfl
@[simp] theorem modPwr_sram (g : Pwr → Pwr) : (modPwr g s).sram = s.sram := rfl
@[simp] theorem modPwr_wlog (g : Pwr → Pwr) : (modPwr g s).wlog = s.wlog := rfl
@[simp] theorem modPwr_clk (g : Pwr → Pwr) : (modPwr g s).clk = s.clk := rfl
@[simp] theorem modPwr_free (g : Pwr → Pwr) : (modPwr g s).free = s.free := rfl
@[simp] theorem modPwr_outbox (g : Pwr → Pwr) : (modPwr g s).outbox = s.outbox := rfl
@[simp] theorem modPwr_glb (g : Pwr → Pwr) : (modPwr g s).glb = s.glb := rfl
@[simp] theorem modPwr_start (g : Pwr → Pwr) : (modPwr g s).start = s.start := rfl
@[simp] theorem modPwr_sup (g : Pwr → Pwr) : (modPwr g s).sup = s.sup := rfl
@[simp] theorem modPwr_mbx (g : Pwr → Pwr) : (modPwr g s).mbx = s.mbx := rfl
@[simp] theorem modPwr_flt (g : Pwr → Pwr) : (modPwr g s).flt = s.flt := rfl
@[simp] theorem modPwr_pwr (g : Pwr → Pwr) : (modPwr g s).pwr = g s.pwr := rfl
@[simp] theorem modPwr_mrl (g : Pwr → Pwr) : (modPwr g s).mrl = s.mrl := rfl
@[simp] theorem modPwr_obs (g : Pwr → Pwr) : (modPwr g s).obs = s.obs := rfl
@[simp] theorem modPwr_sun (g : Pwr → Pwr) : (modPwr g s).sun = s.sun := rfl
@[simp] theorem modPwr_tst (g : Pwr → Pwr) : (modPwr g s).tst = s.tst := rfl
@[simp] theorem modPwr_plots (g : Pwr → Pwr) : (modPwr g s).plots = s.plots := rfl
@[simp] theorem modPwr_tally (g : Pwr → Pwr) : (modPwr g s).tally = s.tally := rfl
@[simp] theorem modPwr_fur (g : Pwr → Pwr) : (modPwr g s).fur = s.fur := rfl
@[simp] theorem modPwr_img (g : Pwr → Pwr) : (modPwr g s).img = s.img := rfl
@[simp] theorem modPwr_xfer (g : Pwr → Pwr) : (modPwr g s).xfer = s.xfer := rfl
@[simp] theorem modPwr_mp (g : Pwr → Pwr) : (modPwr g s).mp = s.mp := rfl
@[simp] theorem modPwr_rlc (g : Pwr → Pwr) : (modPwr g s).rlc = s.rlc := rfl
@[simp] theorem modPwr_home (g : Pwr → Pwr) : (modPwr g s).home = s.home := rfl
@[simp] theorem modPwr_lanes (g : Pwr → Pwr) : (modPwr g s).lanes = s.lanes := rfl
@[simp] theorem modPwr_trl (g : Pwr → Pwr) : (modPwr g s).trl = s.trl := rfl
@[simp] theorem modPwr_rak (g : Pwr → Pwr) : (modPwr g s).rak = s.rak := rfl
@[simp] theorem modPwr_mgt (g : Pwr → Pwr) : (modPwr g s).mgt = s.mgt := rfl
@[simp] theorem modPwr_coll (g : Pwr → Pwr) : (modPwr g s).coll = s.coll := rfl

@[simp] theorem modMbx_pending (i : Nat) (g : Mbx → Mbx) : (modMbx i g s).pending = s.pending := rfl
@[simp] theorem modMbx_sram (i : Nat) (g : Mbx → Mbx) : (modMbx i g s).sram = s.sram := rfl
@[simp] theorem modMbx_wlog (i : Nat) (g : Mbx → Mbx) : (modMbx i g s).wlog = s.wlog := rfl
@[simp] theorem modMbx_clk (i : Nat) (g : Mbx → Mbx) : (modMbx i g s).clk = s.clk := rfl
@[simp] theorem modMbx_free (i : Nat) (g : Mbx → Mbx) : (modMbx i g s).free = s.free := rfl
@[simp] theorem modMbx_outbox (i : Nat) (g : Mbx → Mbx) : (modMbx i g s).outbox = s.outbox := rfl
@[simp] theorem modMbx_glb (i : Nat) (g : Mbx → Mbx) : (modMbx i g s).glb = s.glb := rfl
@[simp] theorem modMbx_start (i : Nat) (g : Mbx → Mbx) : (modMbx i g s).start = s.start := rfl
@[simp] theorem modMbx_sup (i : Nat) (g : Mbx → Mbx) : (modMbx i g s).sup = s.sup := rfl
@[simp] theorem modMbx_mbx (i : Nat) (g : Mbx → Mbx) : (modMbx i g s).mbx = s.mbx.mod i g := rfl
@[simp] theorem modMbx_flt (i : Nat) (g : Mbx → Mbx) : (modMbx i g s).flt = s.flt := rfl
@[simp] theorem modMbx_pwr (i : Nat) (g : Mbx → Mbx) : (modMbx i g s).pwr = s.pwr := rfl
@[simp] theorem modMbx_mrl (i : Nat) (g : Mbx → Mbx) : (modMbx i g s).mrl = s.mrl := rfl
@[simp] theorem modMbx_obs (i : Nat) (g : Mbx → Mbx) : (modMbx i g s).obs = s.obs := rfl
@[simp] theorem modMbx_sun (i : Nat) (g : Mbx → Mbx) : (modMbx i g s).sun = s.sun := rfl
@[simp] theorem modMbx_tst (i : Nat) (g : Mbx → Mbx) : (modMbx i g s).tst = s.tst := rfl
@[simp] theorem modMbx_plots (i : Nat) (g : Mbx → Mbx) : (modMbx i g s).plots = s.plots := rfl
@[simp] theorem modMbx_tally (i : Nat) (g : Mbx → Mbx) : (modMbx i g s).tally = s.tally := rfl
@[simp] theorem modMbx_fur (i : Nat) (g : Mbx → Mbx) : (modMbx i g s).fur = s.fur := rfl
@[simp] theorem modMbx_img (i : Nat) (g : Mbx → Mbx) : (modMbx i g s).img = s.img := rfl
@[simp] theorem modMbx_xfer (i : Nat) (g : Mbx → Mbx) : (modMbx i g s).xfer = s.xfer := rfl
@[simp] theorem modMbx_mp (i : Nat) (g : Mbx → Mbx) : (modMbx i g s).mp = s.mp := rfl
@[simp] theorem modMbx_rlc (i : Nat) (g : Mbx → Mbx) : (modMbx i g s).rlc = s.rlc := rfl
@[simp] theorem modMbx_home (i : Nat) (g : Mbx → Mbx) : (modMbx i g s).home = s.home := rfl
@[simp] theorem modMbx_lanes (i : Nat) (g : Mbx → Mbx) : (modMbx i g s).lanes = s.lanes := rfl
@[simp] theorem modMbx_trl (i : Nat) (g : Mbx → Mbx) : (modMbx i g s).trl = s.trl := rfl
@[simp] theorem modMbx_rak (i : Nat) (g : Mbx → Mbx) : (modMbx i g s).rak = s.rak := rfl
@[simp] theorem modMbx_mgt (i : Nat) (g : Mbx → Mbx) : (modMbx i g s).mgt = s.mgt := rfl
@[simp] theorem modMbx_coll (i : Nat) (g : Mbx → Mbx) : (modMbx i g s).coll = s.coll := rfl

@[simp] theorem modMp_pending (g : Mp → Mp) : (modMp g s).pending = s.pending := rfl
@[simp] theorem modMp_sram (g : Mp → Mp) : (modMp g s).sram = s.sram := rfl
@[simp] theorem modMp_wlog (g : Mp → Mp) : (modMp g s).wlog = s.wlog := rfl
@[simp] theorem modMp_clk (g : Mp → Mp) : (modMp g s).clk = s.clk := rfl
@[simp] theorem modMp_free (g : Mp → Mp) : (modMp g s).free = s.free := rfl
@[simp] theorem modMp_outbox (g : Mp → Mp) : (modMp g s).outbox = s.outbox := rfl
@[simp] theorem modMp_glb (g : Mp → Mp) : (modMp g s).glb = s.glb := rfl
@[simp] theorem modMp_start (g : Mp → Mp) : (modMp g s).start = s.start := rfl
@[simp] theorem modMp_sup (g : Mp → Mp) : (modMp g s).sup = s.sup := rfl
@[simp] theorem modMp_mbx (g : Mp → Mp) : (modMp g s).mbx = s.mbx := rfl
@[simp] theorem modMp_flt (g : Mp → Mp) : (modMp g s).flt = s.flt := rfl
@[simp] theorem modMp_pwr (g : Mp → Mp) : (modMp g s).pwr = s.pwr := rfl
@[simp] theorem modMp_mrl (g : Mp → Mp) : (modMp g s).mrl = s.mrl := rfl
@[simp] theorem modMp_obs (g : Mp → Mp) : (modMp g s).obs = s.obs := rfl
@[simp] theorem modMp_sun (g : Mp → Mp) : (modMp g s).sun = s.sun := rfl
@[simp] theorem modMp_tst (g : Mp → Mp) : (modMp g s).tst = s.tst := rfl
@[simp] theorem modMp_plots (g : Mp → Mp) : (modMp g s).plots = s.plots := rfl
@[simp] theorem modMp_tally (g : Mp → Mp) : (modMp g s).tally = s.tally := rfl
@[simp] theorem modMp_fur (g : Mp → Mp) : (modMp g s).fur = s.fur := rfl
@[simp] theorem modMp_img (g : Mp → Mp) : (modMp g s).img = s.img := rfl
@[simp] theorem modMp_xfer (g : Mp → Mp) : (modMp g s).xfer = s.xfer := rfl
@[simp] theorem modMp_mp (g : Mp → Mp) : (modMp g s).mp = g s.mp := rfl
@[simp] theorem modMp_rlc (g : Mp → Mp) : (modMp g s).rlc = s.rlc := rfl
@[simp] theorem modMp_home (g : Mp → Mp) : (modMp g s).home = s.home := rfl
@[simp] theorem modMp_lanes (g : Mp → Mp) : (modMp g s).lanes = s.lanes := rfl
@[simp] theorem modMp_trl (g : Mp → Mp) : (modMp g s).trl = s.trl := rfl
@[simp] theorem modMp_rak (g : Mp → Mp) : (modMp g s).rak = s.rak := rfl
@[simp] theorem modMp_mgt (g : Mp → Mp) : (modMp g s).mgt = s.mgt := rfl
@[simp] theorem modMp_coll (g : Mp → Mp) : (modMp g s).coll = s.coll := rfl

@[simp] theorem modGlb_pending (g : Glb → Glb) : (modGlb g s).pending = s.pending := rfl
@[simp] theorem modGlb_sram (g : Glb → Glb) : (modGlb g s).sram = s.sram := rfl
@[simp] theorem modGlb_wlog (g : Glb → Glb) : (modGlb g s).wlog = s.wlog := rfl
@[simp] theorem modGlb_clk (g : Glb → Glb) : (modGlb g s).clk = s.clk := rfl
@[simp] theorem modGlb_free (g : Glb → Glb) : (modGlb g s).free = s.free := rfl
@[simp] theorem modGlb_outbox (g : Glb → Glb) : (modGlb g s).outbox = s.outbox := rfl
@[simp] theorem modGlb_glb (g : Glb → Glb) : (modGlb g s).glb = g s.glb := rfl
@[simp] theorem modGlb_start (g : Glb → Glb) : (modGlb g s).start = s.start := rfl
@[simp] theorem modGlb_sup (g : Glb → Glb) : (modGlb g s).sup = s.sup := rfl
@[simp] theorem modGlb_mbx (g : Glb → Glb) : (modGlb g s).mbx = s.mbx := rfl
@[simp] theorem modGlb_flt (g : Glb → Glb) : (modGlb g s).flt = s.flt := rfl
@[simp] theorem modGlb_pwr (g : Glb → Glb) : (modGlb g s).pwr = s.pwr := rfl
@[simp] theorem modGlb_mrl (g : Glb → Glb) : (modGlb g s).mrl = s.mrl := rfl
@[simp] theorem modGlb_obs (g : Glb → Glb) : (modGlb g s).obs = s.obs := rfl
@[simp] theorem modGlb_sun (g : Glb → Glb) : (modGlb g s).sun = s.sun := rfl
@[simp] theorem modGlb_tst (g : Glb → Glb) : (modGlb g s).tst = s.tst := rfl
@[simp] theorem modGlb_plots (g : Glb → Glb) : (modGlb g s).plots = s.plots := rfl
@[simp] theorem modGlb_tally (g : Glb → Glb) : (modGlb g s).tally = s.tally := rfl
@[simp] theorem modGlb_fur (g : Glb → Glb) : (modGlb g s).fur = s.fur := rfl
@[simp] theorem modGlb_img (g : Glb → Glb) : (modGlb g s).img = s.img := rfl
@[simp] theorem modGlb_xfer (g : Glb → Glb) : (modGlb g s).xfer = s.xfer := rfl
@[simp] theorem modGlb_mp (g : Glb → Glb) : (modGlb g s).mp = s.mp := rfl
@[simp] theorem modGlb_rlc (g : Glb → Glb) : (modGlb g s).rlc = s.rlc := rfl
@[simp] theorem modGlb_home (g : Glb → Glb) : (modGlb g s).home = s.home := rfl
@[simp] theorem modGlb_lanes (g : Glb → Glb) : (modGlb g s).lanes = s.lanes := rfl
@[simp] theorem modGlb_trl (g : Glb → Glb) : (modGlb g s).trl = s.trl := rfl
@[simp] theorem modGlb_rak (g : Glb → Glb) : (modGlb g s).rak = s.rak := rfl
@[simp] theorem modGlb_mgt (g : Glb → Glb) : (modGlb g s).mgt = s.mgt := rfl
@[simp] theorem modGlb_coll (g : Glb → Glb) : (modGlb g s).coll = s.coll := rfl

@[simp] theorem modStart_pending (g : Start → Start) : (modStart g s).pending = s.pending := rfl
@[simp] theorem modStart_sram (g : Start → Start) : (modStart g s).sram = s.sram := rfl
@[simp] theorem modStart_wlog (g : Start → Start) : (modStart g s).wlog = s.wlog := rfl
@[simp] theorem modStart_clk (g : Start → Start) : (modStart g s).clk = s.clk := rfl
@[simp] theorem modStart_free (g : Start → Start) : (modStart g s).free = s.free := rfl
@[simp] theorem modStart_outbox (g : Start → Start) : (modStart g s).outbox = s.outbox := rfl
@[simp] theorem modStart_glb (g : Start → Start) : (modStart g s).glb = s.glb := rfl
@[simp] theorem modStart_start (g : Start → Start) : (modStart g s).start = g s.start := rfl
@[simp] theorem modStart_sup (g : Start → Start) : (modStart g s).sup = s.sup := rfl
@[simp] theorem modStart_mbx (g : Start → Start) : (modStart g s).mbx = s.mbx := rfl
@[simp] theorem modStart_flt (g : Start → Start) : (modStart g s).flt = s.flt := rfl
@[simp] theorem modStart_pwr (g : Start → Start) : (modStart g s).pwr = s.pwr := rfl
@[simp] theorem modStart_mrl (g : Start → Start) : (modStart g s).mrl = s.mrl := rfl
@[simp] theorem modStart_obs (g : Start → Start) : (modStart g s).obs = s.obs := rfl
@[simp] theorem modStart_sun (g : Start → Start) : (modStart g s).sun = s.sun := rfl
@[simp] theorem modStart_tst (g : Start → Start) : (modStart g s).tst = s.tst := rfl
@[simp] theorem modStart_plots (g : Start → Start) : (modStart g s).plots = s.plots := rfl
@[simp] theorem modStart_tally (g : Start → Start) : (modStart g s).tally = s.tally := rfl
@[simp] theorem modStart_fur (g : Start → Start) : (modStart g s).fur = s.fur := rfl
@[simp] theorem modStart_img (g : Start → Start) : (modStart g s).img = s.img := rfl
@[simp] theorem modStart_xfer (g : Start → Start) : (modStart g s).xfer = s.xfer := rfl
@[simp] theorem modStart_mp (g : Start → Start) : (modStart g s).mp = s.mp := rfl
@[simp] theorem modStart_rlc (g : Start → Start) : (modStart g s).rlc = s.rlc := rfl
@[simp] theorem modStart_home (g : Start → Start) : (modStart g s).home = s.home := rfl
@[simp] theorem modStart_lanes (g : Start → Start) : (modStart g s).lanes = s.lanes := rfl
@[simp] theorem modStart_trl (g : Start → Start) : (modStart g s).trl = s.trl := rfl
@[simp] theorem modStart_rak (g : Start → Start) : (modStart g s).rak = s.rak := rfl
@[simp] theorem modStart_mgt (g : Start → Start) : (modStart g s).mgt = s.mgt := rfl
@[simp] theorem modStart_coll (g : Start → Start) : (modStart g s).coll = s.coll := rfl

@[simp] theorem modSeg_pending (i : Nat) (g : Seg → Seg) : (modSeg i g s).pending = s.pending := rfl
@[simp] theorem modSeg_sram (i : Nat) (g : Seg → Seg) : (modSeg i g s).sram = s.sram := rfl
@[simp] theorem modSeg_wlog (i : Nat) (g : Seg → Seg) : (modSeg i g s).wlog = s.wlog := rfl
@[simp] theorem modSeg_clk (i : Nat) (g : Seg → Seg) : (modSeg i g s).clk = s.clk := rfl
@[simp] theorem modSeg_free (i : Nat) (g : Seg → Seg) : (modSeg i g s).free = s.free := rfl
@[simp] theorem modSeg_outbox (i : Nat) (g : Seg → Seg) : (modSeg i g s).outbox = s.outbox := rfl
@[simp] theorem modSeg_glb (i : Nat) (g : Seg → Seg) : (modSeg i g s).glb = s.glb := rfl
@[simp] theorem modSeg_start (i : Nat) (g : Seg → Seg) : (modSeg i g s).start = s.start := rfl
@[simp] theorem modSeg_sup (i : Nat) (g : Seg → Seg) : (modSeg i g s).sup = s.sup := rfl
@[simp] theorem modSeg_mbx (i : Nat) (g : Seg → Seg) : (modSeg i g s).mbx = s.mbx := rfl
@[simp] theorem modSeg_flt (i : Nat) (g : Seg → Seg) : (modSeg i g s).flt = s.flt := rfl
@[simp] theorem modSeg_pwr (i : Nat) (g : Seg → Seg) : (modSeg i g s).pwr = s.pwr := rfl
@[simp] theorem modSeg_mrl (i : Nat) (g : Seg → Seg) : (modSeg i g s).mrl = s.mrl := rfl
@[simp] theorem modSeg_obs (i : Nat) (g : Seg → Seg) : (modSeg i g s).obs = s.obs := rfl
@[simp] theorem modSeg_sun (i : Nat) (g : Seg → Seg) : (modSeg i g s).sun = s.sun := rfl
@[simp] theorem modSeg_tst (i : Nat) (g : Seg → Seg) : (modSeg i g s).tst = s.tst := rfl
@[simp] theorem modSeg_plots (i : Nat) (g : Seg → Seg) : (modSeg i g s).plots = s.plots := rfl
@[simp] theorem modSeg_tally (i : Nat) (g : Seg → Seg) : (modSeg i g s).tally = s.tally := rfl
@[simp] theorem modSeg_fur (i : Nat) (g : Seg → Seg) : (modSeg i g s).fur = s.fur := rfl
@[simp] theorem modSeg_img (i : Nat) (g : Seg → Seg) : (modSeg i g s).img = s.img := rfl
@[simp] theorem modSeg_mp (i : Nat) (g : Seg → Seg) : (modSeg i g s).mp = s.mp := rfl
@[simp] theorem modSeg_rlc (i : Nat) (g : Seg → Seg) : (modSeg i g s).rlc = s.rlc := rfl
@[simp] theorem modSeg_home (i : Nat) (g : Seg → Seg) : (modSeg i g s).home = s.home := rfl
@[simp] theorem modSeg_lanes (i : Nat) (g : Seg → Seg) : (modSeg i g s).lanes = s.lanes := rfl
@[simp] theorem modSeg_trl (i : Nat) (g : Seg → Seg) : (modSeg i g s).trl = s.trl := rfl
@[simp] theorem modSeg_rak (i : Nat) (g : Seg → Seg) : (modSeg i g s).rak = s.rak := rfl
@[simp] theorem modSeg_mgt (i : Nat) (g : Seg → Seg) : (modSeg i g s).mgt = s.mgt := rfl
@[simp] theorem modSeg_coll (i : Nat) (g : Seg → Seg) : (modSeg i g s).coll = s.coll := rfl

@[simp] theorem modRq_pending (i : Nat) (g : Rq → Rq) : (modRq i g s).pending = s.pending := rfl
@[simp] theorem modRq_sram (i : Nat) (g : Rq → Rq) : (modRq i g s).sram = s.sram := rfl
@[simp] theorem modRq_wlog (i : Nat) (g : Rq → Rq) : (modRq i g s).wlog = s.wlog := rfl
@[simp] theorem modRq_clk (i : Nat) (g : Rq → Rq) : (modRq i g s).clk = s.clk := rfl
@[simp] theorem modRq_free (i : Nat) (g : Rq → Rq) : (modRq i g s).free = s.free := rfl
@[simp] theorem modRq_outbox (i : Nat) (g : Rq → Rq) : (modRq i g s).outbox = s.outbox := rfl
@[simp] theorem modRq_glb (i : Nat) (g : Rq → Rq) : (modRq i g s).glb = s.glb := rfl
@[simp] theorem modRq_start (i : Nat) (g : Rq → Rq) : (modRq i g s).start = s.start := rfl
@[simp] theorem modRq_sup (i : Nat) (g : Rq → Rq) : (modRq i g s).sup = s.sup := rfl
@[simp] theorem modRq_mbx (i : Nat) (g : Rq → Rq) : (modRq i g s).mbx = s.mbx := rfl
@[simp] theorem modRq_flt (i : Nat) (g : Rq → Rq) : (modRq i g s).flt = s.flt := rfl
@[simp] theorem modRq_pwr (i : Nat) (g : Rq → Rq) : (modRq i g s).pwr = s.pwr := rfl
@[simp] theorem modRq_mrl (i : Nat) (g : Rq → Rq) : (modRq i g s).mrl = s.mrl := rfl
@[simp] theorem modRq_obs (i : Nat) (g : Rq → Rq) : (modRq i g s).obs = s.obs := rfl
@[simp] theorem modRq_sun (i : Nat) (g : Rq → Rq) : (modRq i g s).sun = s.sun := rfl
@[simp] theorem modRq_tst (i : Nat) (g : Rq → Rq) : (modRq i g s).tst = s.tst := rfl
@[simp] theorem modRq_plots (i : Nat) (g : Rq → Rq) : (modRq i g s).plots = s.plots := rfl
@[simp] theorem modRq_tally (i : Nat) (g : Rq → Rq) : (modRq i g s).tally = s.tally := rfl
@[simp] theorem modRq_fur (i : Nat) (g : Rq → Rq) : (modRq i g s).fur = s.fur := rfl
@[simp] theorem modRq_img (i : Nat) (g : Rq → Rq) : (modRq i g s).img = s.img := rfl
@[simp] theorem modRq_mp (i : Nat) (g : Rq → Rq) : (modRq i g s).mp = s.mp := rfl
@[simp] theorem modRq_rlc (i : Nat) (g : Rq → Rq) : (modRq i g s).rlc = s.rlc := rfl
@[simp] theorem modRq_home (i : Nat) (g : Rq → Rq) : (modRq i g s).home = s.home := rfl
@[simp] theorem modRq_lanes (i : Nat) (g : Rq → Rq) : (modRq i g s).lanes = s.lanes := rfl
@[simp] theorem modRq_trl (i : Nat) (g : Rq → Rq) : (modRq i g s).trl = s.trl := rfl
@[simp] theorem modRq_rak (i : Nat) (g : Rq → Rq) : (modRq i g s).rak = s.rak := rfl
@[simp] theorem modRq_mgt (i : Nat) (g : Rq → Rq) : (modRq i g s).mgt = s.mgt := rfl
@[simp] theorem modRq_coll (i : Nat) (g : Rq → Rq) : (modRq i g s).coll = s.coll := rfl

@[simp] theorem modSun_pending (g : Sun → Sun) : (modSun g s).pending = s.pending := rfl
@[simp] theorem modSun_sram (g : Sun → Sun) : (modSun g s).sram = s.sram := rfl
@[simp] theorem modSun_wlog (g : Sun → Sun) : (modSun g s).wlog = s.wlog := rfl
@[simp] theorem modSun_clk (g : Sun → Sun) : (modSun g s).clk = s.clk := rfl
@[simp] theorem modSun_free (g : Sun → Sun) : (modSun g s).free = s.free := rfl
@[simp] theorem modSun_outbox (g : Sun → Sun) : (modSun g s).outbox = s.outbox := rfl
@[simp] theorem modSun_glb (g : Sun → Sun) : (modSun g s).glb = s.glb := rfl
@[simp] theorem modSun_start (g : Sun → Sun) : (modSun g s).start = s.start := rfl
@[simp] theorem modSun_sup (g : Sun → Sun) : (modSun g s).sup = s.sup := rfl
@[simp] theorem modSun_mbx (g : Sun → Sun) : (modSun g s).mbx = s.mbx := rfl
@[simp] theorem modSun_flt (g : Sun → Sun) : (modSun g s).flt = s.flt := rfl
@[simp] theorem modSun_pwr (g : Sun → Sun) : (modSun g s).pwr = s.pwr := rfl
@[simp] theorem modSun_mrl (g : Sun → Sun) : (modSun g s).mrl = s.mrl := rfl
@[simp] theorem modSun_obs (g : Sun → Sun) : (modSun g s).obs = s.obs := rfl
@[simp] theorem modSun_sun (g : Sun → Sun) : (modSun g s).sun = g s.sun := rfl
@[simp] theorem modSun_tst (g : Sun → Sun) : (modSun g s).tst = s.tst := rfl
@[simp] theorem modSun_plots (g : Sun → Sun) : (modSun g s).plots = s.plots := rfl
@[simp] theorem modSun_tally (g : Sun → Sun) : (modSun g s).tally = s.tally := rfl
@[simp] theorem modSun_fur (g : Sun → Sun) : (modSun g s).fur = s.fur := rfl
@[simp] theorem modSun_img (g : Sun → Sun) : (modSun g s).img = s.img := rfl
@[simp] theorem modSun_xfer (g : Sun → Sun) : (modSun g s).xfer = s.xfer := rfl
@[simp] theorem modSun_mp (g : Sun → Sun) : (modSun g s).mp = s.mp := rfl
@[simp] theorem modSun_rlc (g : Sun → Sun) : (modSun g s).rlc = s.rlc := rfl
@[simp] theorem modSun_home (g : Sun → Sun) : (modSun g s).home = s.home := rfl
@[simp] theorem modSun_lanes (g : Sun → Sun) : (modSun g s).lanes = s.lanes := rfl
@[simp] theorem modSun_trl (g : Sun → Sun) : (modSun g s).trl = s.trl := rfl
@[simp] theorem modSun_rak (g : Sun → Sun) : (modSun g s).rak = s.rak := rfl
@[simp] theorem modSun_mgt (g : Sun → Sun) : (modSun g s).mgt = s.mgt := rfl
@[simp] theorem modSun_coll (g : Sun → Sun) : (modSun g s).coll = s.coll := rfl

@[simp] theorem modTst_pending (g : Tst → Tst) : (modTst g s).pending = s.pending := rfl
@[simp] theorem modTst_sram (g : Tst → Tst) : (modTst g s).sram = s.sram := rfl
@[simp] theorem modTst_wlog (g : Tst → Tst) : (modTst g s).wlog = s.wlog := rfl
@[simp] theorem modTst_clk (g : Tst → Tst) : (modTst g s).clk = s.clk := rfl
@[simp] theorem modTst_free (g : Tst → Tst) : (modTst g s).free = s.free := rfl
@[simp] theorem modTst_outbox (g : Tst → Tst) : (modTst g s).outbox = s.outbox := rfl
@[simp] theorem modTst_glb (g : Tst → Tst) : (modTst g s).glb = s.glb := rfl
@[simp] theorem modTst_start (g : Tst → Tst) : (modTst g s).start = s.start := rfl
@[simp] theorem modTst_sup (g : Tst → Tst) : (modTst g s).sup = s.sup := rfl
@[simp] theorem modTst_mbx (g : Tst → Tst) : (modTst g s).mbx = s.mbx := rfl
@[simp] theorem modTst_flt (g : Tst → Tst) : (modTst g s).flt = s.flt := rfl
@[simp] theorem modTst_pwr (g : Tst → Tst) : (modTst g s).pwr = s.pwr := rfl
@[simp] theorem modTst_mrl (g : Tst → Tst) : (modTst g s).mrl = s.mrl := rfl
@[simp] theorem modTst_obs (g : Tst → Tst) : (modTst g s).obs = s.obs := rfl
@[simp] theorem modTst_sun (g : Tst → Tst) : (modTst g s).sun = s.sun := rfl
@[simp] theorem modTst_tst (g : Tst → Tst) : (modTst g s).tst = g s.tst := rfl
@[simp] theorem modTst_plots (g : Tst → Tst) : (modTst g s).plots = s.plots := rfl
@[simp] theorem modTst_tally (g : Tst → Tst) : (modTst g s).tally = s.tally := rfl
@[simp] theorem modTst_fur (g : Tst → Tst) : (modTst g s).fur = s.fur := rfl
@[simp] theorem modTst_img (g : Tst → Tst) : (modTst g s).img = s.img := rfl
@[simp] theorem modTst_xfer (g : Tst → Tst) : (modTst g s).xfer = s.xfer := rfl
@[simp] theorem modTst_mp (g : Tst → Tst) : (modTst g s).mp = s.mp := rfl
@[simp] theorem modTst_rlc (g : Tst → Tst) : (modTst g s).rlc = s.rlc := rfl
@[simp] theorem modTst_home (g : Tst → Tst) : (modTst g s).home = s.home := rfl
@[simp] theorem modTst_lanes (g : Tst → Tst) : (modTst g s).lanes = s.lanes := rfl
@[simp] theorem modTst_trl (g : Tst → Tst) : (modTst g s).trl = s.trl := rfl
@[simp] theorem modTst_rak (g : Tst → Tst) : (modTst g s).rak = s.rak := rfl
@[simp] theorem modTst_mgt (g : Tst → Tst) : (modTst g s).mgt = s.mgt := rfl
@[simp] theorem modTst_coll (g : Tst → Tst) : (modTst g s).coll = s.coll := rfl

@[simp] theorem modTrl_pending (g : Trl → Trl) : (modTrl g s).pending = s.pending := rfl
@[simp] theorem modTrl_sram (g : Trl → Trl) : (modTrl g s).sram = s.sram := rfl
@[simp] theorem modTrl_wlog (g : Trl → Trl) : (modTrl g s).wlog = s.wlog := rfl
@[simp] theorem modTrl_clk (g : Trl → Trl) : (modTrl g s).clk = s.clk := rfl
@[simp] theorem modTrl_free (g : Trl → Trl) : (modTrl g s).free = s.free := rfl
@[simp] theorem modTrl_outbox (g : Trl → Trl) : (modTrl g s).outbox = s.outbox := rfl
@[simp] theorem modTrl_glb (g : Trl → Trl) : (modTrl g s).glb = s.glb := rfl
@[simp] theorem modTrl_start (g : Trl → Trl) : (modTrl g s).start = s.start := rfl
@[simp] theorem modTrl_sup (g : Trl → Trl) : (modTrl g s).sup = s.sup := rfl
@[simp] theorem modTrl_mbx (g : Trl → Trl) : (modTrl g s).mbx = s.mbx := rfl
@[simp] theorem modTrl_flt (g : Trl → Trl) : (modTrl g s).flt = s.flt := rfl
@[simp] theorem modTrl_pwr (g : Trl → Trl) : (modTrl g s).pwr = s.pwr := rfl
@[simp] theorem modTrl_mrl (g : Trl → Trl) : (modTrl g s).mrl = s.mrl := rfl
@[simp] theorem modTrl_obs (g : Trl → Trl) : (modTrl g s).obs = s.obs := rfl
@[simp] theorem modTrl_sun (g : Trl → Trl) : (modTrl g s).sun = s.sun := rfl
@[simp] theorem modTrl_tst (g : Trl → Trl) : (modTrl g s).tst = s.tst := rfl
@[simp] theorem modTrl_plots (g : Trl → Trl) : (modTrl g s).plots = s.plots := rfl
@[simp] theorem modTrl_tally (g : Trl → Trl) : (modTrl g s).tally = s.tally := rfl
@[simp] theorem modTrl_fur (g : Trl → Trl) : (modTrl g s).fur = s.fur := rfl
@[simp] theorem modTrl_img (g : Trl → Trl) : (modTrl g s).img = s.img := rfl
@[simp] theorem modTrl_xfer (g : Trl → Trl) : (modTrl g s).xfer = s.xfer := rfl
@[simp] theorem modTrl_mp (g : Trl → Trl) : (modTrl g s).mp = s.mp := rfl
@[simp] theorem modTrl_rlc (g : Trl → Trl) : (modTrl g s).rlc = s.rlc := rfl
@[simp] theorem modTrl_home (g : Trl → Trl) : (modTrl g s).home = s.home := rfl
@[simp] theorem modTrl_lanes (g : Trl → Trl) : (modTrl g s).lanes = s.lanes := rfl
@[simp] theorem modTrl_trl (g : Trl → Trl) : (modTrl g s).trl = g s.trl := rfl
@[simp] theorem modTrl_rak (g : Trl → Trl) : (modTrl g s).rak = s.rak := rfl
@[simp] theorem modTrl_mgt (g : Trl → Trl) : (modTrl g s).mgt = s.mgt := rfl
@[simp] theorem modTrl_coll (g : Trl → Trl) : (modTrl g s).coll = s.coll := rfl

@[simp] theorem modRak_pending (g : Rak → Rak) : (modRak g s).pending = s.pending := rfl
@[simp] theorem modRak_sram (g : Rak → Rak) : (modRak g s).sram = s.sram := rfl
@[simp] theorem modRak_wlog (g : Rak → Rak) : (modRak g s).wlog = s.wlog := rfl
@[simp] theorem modRak_clk (g : Rak → Rak) : (modRak g s).clk = s.clk := rfl
@[simp] theorem modRak_free (g : Rak → Rak) : (modRak g s).free = s.free := rfl
@[simp] theorem modRak_outbox (g : Rak → Rak) : (modRak g s).outbox = s.outbox := rfl
@[simp] theorem modRak_glb (g : Rak → Rak) : (modRak g s).glb = s.glb := rfl
@[simp] theorem modRak_start (g : Rak → Rak) : (modRak g s).start = s.start := rfl
@[simp] theorem modRak_sup (g : Rak → Rak) : (modRak g s).sup = s.sup := rfl
@[simp] theorem modRak_mbx (g : Rak → Rak) : (modRak g s).mbx = s.mbx := rfl
@[simp] theorem modRak_flt (g : Rak → Rak) : (modRak g s).flt = s.flt := rfl
@[simp] theorem modRak_pwr (g : Rak → Rak) : (modRak g s).pwr = s.pwr := rfl
@[simp] theorem modRak_mrl (g : Rak → Rak) : (modRak g s).mrl = s.mrl := rfl
@[simp] theorem modRak_obs (g : Rak → Rak) : (modRak g s).obs = s.obs := rfl
@[simp] theorem modRak_sun (g : Rak → Rak) : (modRak g s).sun = s.sun := rfl
@[simp] theorem modRak_tst (g : Rak → Rak) : (modRak g s).tst = s.tst := rfl
@[simp] theorem modRak_plots (g : Rak → Rak) : (modRak g s).plots = s.plots := rfl
@[simp] theorem modRak_tally (g : Rak → Rak) : (modRak g s).tally = s.tally := rfl
@[simp] theorem modRak_fur (g : Rak → Rak) : (modRak g s).fur = s.fur := rfl
@[simp] theorem modRak_img (g : Rak → Rak) : (modRak g s).img = s.img := rfl
@[simp] theorem modRak_xfer (g : Rak → Rak) : (modRak g s).xfer = s.xfer := rfl
@[simp] theorem modRak_mp (g : Rak → Rak) : (modRak g s).mp = s.mp := rfl
@[simp] theorem modRak_rlc (g : Rak → Rak) : (modRak g s).rlc = s.rlc := rfl
@[simp] theorem modRak_home (g : Rak → Rak) : (modRak g s).home = s.home := rfl
@[simp] theorem modRak_lanes (g : Rak → Rak) : (modRak g s).lanes = s.lanes := rfl
@[simp] theorem modRak_trl (g : Rak → Rak) : (modRak g s).trl = s.trl := rfl
@[simp] theorem modRak_rak (g : Rak → Rak) : (modRak g s).rak = g s.rak := rfl
@[simp] theorem modRak_mgt (g : Rak → Rak) : (modRak g s).mgt = s.mgt := rfl
@[simp] theorem modRak_coll (g : Rak → Rak) : (modRak g s).coll = s.coll := rfl

@[simp] theorem emit_pending (o : Output) : (emit o s).pending = s.pending := rfl
@[simp] theorem emit_sram (o : Output) : (emit o s).sram = s.sram := rfl
@[simp] theorem emit_wlog (o : Output) : (emit o s).wlog = s.wlog := rfl
@[simp] theorem emit_clk (o : Output) : (emit o s).clk = s.clk := rfl
@[simp] theorem emit_free (o : Output) : (emit o s).free = s.free := rfl
@[simp] theorem emit_outbox (o : Output) : (emit o s).outbox = s.outbox ++ [o] := rfl
@[simp] theorem emit_glb (o : Output) : (emit o s).glb = s.glb := rfl
@[simp] theorem emit_start (o : Output) : (emit o s).start = s.start := rfl
@[simp] theorem emit_sup (o : Output) : (emit o s).sup = s.sup := rfl
@[simp] theorem emit_mbx (o : Output) : (emit o s).mbx = s.mbx := rfl
@[simp] theorem emit_flt (o : Output) : (emit o s).flt = s.flt := rfl
@[simp] theorem emit_pwr (o : Output) : (emit o s).pwr = s.pwr := rfl
@[simp] theorem emit_mrl (o : Output) : (emit o s).mrl = s.mrl := rfl
@[simp] theorem emit_obs (o : Output) : (emit o s).obs = s.obs := rfl
@[simp] theorem emit_sun (o : Output) : (emit o s).sun = s.sun := rfl
@[simp] theorem emit_tst (o : Output) : (emit o s).tst = s.tst := rfl
@[simp] theorem emit_plots (o : Output) : (emit o s).plots = s.plots := rfl
@[simp] theorem emit_tally (o : Output) : (emit o s).tally = s.tally := rfl
@[simp] theorem emit_fur (o : Output) : (emit o s).fur = s.fur := rfl
@[simp] theorem emit_img (o : Output) : (emit o s).img = s.img := rfl
@[simp] theorem emit_xfer (o : Output) : (emit o s).xfer = s.xfer := rfl
@[simp] theorem emit_mp (o : Output) : (emit o s).mp = s.mp := rfl
@[simp] theorem emit_rlc (o : Output) : (emit o s).rlc = s.rlc := rfl
@[simp] theorem emit_home (o : Output) : (emit o s).home = s.home := rfl
@[simp] theorem emit_lanes (o : Output) : (emit o s).lanes = s.lanes := rfl
@[simp] theorem emit_trl (o : Output) : (emit o s).trl = s.trl := rfl
@[simp] theorem emit_rak (o : Output) : (emit o s).rak = s.rak := rfl
@[simp] theorem emit_mgt (o : Output) : (emit o s).mgt = s.mgt := rfl
@[simp] theorem emit_coll (o : Output) : (emit o s).coll = s.coll := rfl

@[simp] theorem takeFree_pending : (takeFree s).pending = s.pending := rfl
@[simp] theorem takeFree_sram : (takeFree s).sram = s.sram := rfl
@[simp] theorem takeFree_wlog : (takeFree s).wlog = s.wlog := rfl
@[simp] theorem takeFree_clk : (takeFree s).clk = s.clk := rfl
@[simp] theorem takeFree_free : (takeFree s).free = s.free + 1 := rfl
@[simp] theorem takeFree_outbox : (takeFree s).outbox = s.outbox := rfl
@[simp] theorem takeFree_glb : (takeFree s).glb = s.glb := rfl
@[simp] theorem takeFree_start : (takeFree s).start = s.start := rfl
@[simp] theorem takeFree_sup : (takeFree s).sup = s.sup := rfl
@[simp] theorem takeFree_mbx : (takeFree s).mbx = s.mbx := rfl
@[simp] theorem takeFree_flt : (takeFree s).flt = s.flt := rfl
@[simp] theorem takeFree_pwr : (takeFree s).pwr = s.pwr := rfl
@[simp] theorem takeFree_mrl : (takeFree s).mrl = s.mrl := rfl
@[simp] theorem takeFree_obs : (takeFree s).obs = s.obs := rfl
@[simp] theorem takeFree_sun : (takeFree s).sun = s.sun := rfl
@[simp] theorem takeFree_tst : (takeFree s).tst = s.tst := rfl
@[simp] theorem takeFree_plots : (takeFree s).plots = s.plots := rfl
@[simp] theorem takeFree_tally : (takeFree s).tally = s.tally := rfl
@[simp] theorem takeFree_fur : (takeFree s).fur = s.fur := rfl
@[simp] theorem takeFree_img : (takeFree s).img = s.img := rfl
@[simp] theorem takeFree_xfer : (takeFree s).xfer = s.xfer := rfl
@[simp] theorem takeFree_mp : (takeFree s).mp = s.mp := rfl
@[simp] theorem takeFree_rlc : (takeFree s).rlc = s.rlc := rfl
@[simp] theorem takeFree_home : (takeFree s).home = s.home := rfl
@[simp] theorem takeFree_lanes : (takeFree s).lanes = s.lanes := rfl
@[simp] theorem takeFree_trl : (takeFree s).trl = s.trl := rfl
@[simp] theorem takeFree_rak : (takeFree s).rak = s.rak := rfl
@[simp] theorem takeFree_mgt : (takeFree s).mgt = s.mgt := rfl
@[simp] theorem takeFree_coll : (takeFree s).coll = s.coll := rfl

@[simp] theorem sramWrite_pending (a : Nat) (bs : List Byte) : (sramWrite a bs s).pending = s.pending := rfl
@[simp] theorem sramWrite_sram (a : Nat) (bs : List Byte) : (sramWrite a bs s).sram = s.sram := rfl
@[simp] theorem sramWrite_wlog (a : Nat) (bs : List Byte) : (sramWrite a bs s).wlog = s.wlog ++ cellsAt a bs := rfl
@[simp] theorem sramWrite_clk (a : Nat) (bs : List Byte) : (sramWrite a bs s).clk = s.clk := rfl
@[simp] theorem sramWrite_free (a : Nat) (bs : List Byte) : (sramWrite a bs s).free = s.free := rfl
@[simp] theorem sramWrite_outbox (a : Nat) (bs : List Byte) : (sramWrite a bs s).outbox = s.outbox := rfl
@[simp] theorem sramWrite_glb (a : Nat) (bs : List Byte) : (sramWrite a bs s).glb = s.glb := rfl
@[simp] theorem sramWrite_start (a : Nat) (bs : List Byte) : (sramWrite a bs s).start = s.start := rfl
@[simp] theorem sramWrite_sup (a : Nat) (bs : List Byte) : (sramWrite a bs s).sup = s.sup := rfl
@[simp] theorem sramWrite_mbx (a : Nat) (bs : List Byte) : (sramWrite a bs s).mbx = s.mbx := rfl
@[simp] theorem sramWrite_flt (a : Nat) (bs : List Byte) : (sramWrite a bs s).flt = s.flt := rfl
@[simp] theorem sramWrite_pwr (a : Nat) (bs : List Byte) : (sramWrite a bs s).pwr = s.pwr := rfl
@[simp] theorem sramWrite_mrl (a : Nat) (bs : List Byte) : (sramWrite a bs s).mrl = s.mrl := rfl
@[simp] theorem sramWrite_obs (a : Nat) (bs : List Byte) : (sramWrite a bs s).obs = s.obs := rfl
@[simp] theorem sramWrite_sun (a : Nat) (bs : List Byte) : (sramWrite a bs s).sun = s.sun := rfl
@[simp] theorem sramWrite_tst (a : Nat) (bs : List Byte) : (sramWrite a bs s).tst = s.tst := rfl
@[simp] theorem sramWrite_plots (a : Nat) (bs : List Byte) : (sramWrite a bs s).plots = s.plots := rfl
@[simp] theorem sramWrite_tally (a : Nat) (bs : List Byte) : (sramWrite a bs s).tally = s.tally := rfl
@[simp] theorem sramWrite_fur (a : Nat) (bs : List Byte) : (sramWrite a bs s).fur = s.fur := rfl
@[simp] theorem sramWrite_img (a : Nat) (bs : List Byte) : (sramWrite a bs s).img = s.img := rfl
@[simp] theorem sramWrite_xfer (a : Nat) (bs : List Byte) : (sramWrite a bs s).xfer = s.xfer := rfl
@[simp] theorem sramWrite_mp (a : Nat) (bs : List Byte) : (sramWrite a bs s).mp = s.mp := rfl
@[simp] theorem sramWrite_rlc (a : Nat) (bs : List Byte) : (sramWrite a bs s).rlc = s.rlc := rfl
@[simp] theorem sramWrite_home (a : Nat) (bs : List Byte) : (sramWrite a bs s).home = s.home := rfl
@[simp] theorem sramWrite_lanes (a : Nat) (bs : List Byte) : (sramWrite a bs s).lanes = s.lanes := rfl
@[simp] theorem sramWrite_trl (a : Nat) (bs : List Byte) : (sramWrite a bs s).trl = s.trl := rfl
@[simp] theorem sramWrite_rak (a : Nat) (bs : List Byte) : (sramWrite a bs s).rak = s.rak := rfl
@[simp] theorem sramWrite_mgt (a : Nat) (bs : List Byte) : (sramWrite a bs s).mgt = s.mgt := rfl
@[simp] theorem sramWrite_coll (a : Nat) (bs : List Byte) : (sramWrite a bs s).coll = s.coll := rfl

@[simp] theorem raiseEv_pending (e : FaultEv) : (raiseEv e s).pending = s.pending := rfl
@[simp] theorem raiseEv_sram (e : FaultEv) : (raiseEv e s).sram = s.sram := rfl
@[simp] theorem raiseEv_wlog (e : FaultEv) : (raiseEv e s).wlog = s.wlog := rfl
@[simp] theorem raiseEv_clk (e : FaultEv) : (raiseEv e s).clk = s.clk := rfl
@[simp] theorem raiseEv_free (e : FaultEv) : (raiseEv e s).free = s.free := rfl
@[simp] theorem raiseEv_outbox (e : FaultEv) : (raiseEv e s).outbox = s.outbox := rfl
@[simp] theorem raiseEv_glb (e : FaultEv) : (raiseEv e s).glb = s.glb := rfl
@[simp] theorem raiseEv_start (e : FaultEv) : (raiseEv e s).start = s.start := rfl
@[simp] theorem raiseEv_sup (e : FaultEv) : (raiseEv e s).sup = s.sup := rfl
@[simp] theorem raiseEv_mbx (e : FaultEv) : (raiseEv e s).mbx = s.mbx := rfl
@[simp] theorem raiseEv_pwr (e : FaultEv) : (raiseEv e s).pwr = s.pwr := rfl
@[simp] theorem raiseEv_mrl (e : FaultEv) : (raiseEv e s).mrl = s.mrl := rfl
@[simp] theorem raiseEv_obs (e : FaultEv) : (raiseEv e s).obs = s.obs := rfl
@[simp] theorem raiseEv_sun (e : FaultEv) : (raiseEv e s).sun = s.sun := rfl
@[simp] theorem raiseEv_tst (e : FaultEv) : (raiseEv e s).tst = s.tst := rfl
@[simp] theorem raiseEv_plots (e : FaultEv) : (raiseEv e s).plots = s.plots := rfl
@[simp] theorem raiseEv_tally (e : FaultEv) : (raiseEv e s).tally = s.tally := rfl
@[simp] theorem raiseEv_fur (e : FaultEv) : (raiseEv e s).fur = s.fur := rfl
@[simp] theorem raiseEv_img (e : FaultEv) : (raiseEv e s).img = s.img := rfl
@[simp] theorem raiseEv_xfer (e : FaultEv) : (raiseEv e s).xfer = s.xfer := rfl
@[simp] theorem raiseEv_mp (e : FaultEv) : (raiseEv e s).mp = s.mp := rfl
@[simp] theorem raiseEv_rlc (e : FaultEv) : (raiseEv e s).rlc = s.rlc := rfl
@[simp] theorem raiseEv_home (e : FaultEv) : (raiseEv e s).home = s.home := rfl
@[simp] theorem raiseEv_lanes (e : FaultEv) : (raiseEv e s).lanes = s.lanes := rfl
@[simp] theorem raiseEv_trl (e : FaultEv) : (raiseEv e s).trl = s.trl := rfl
@[simp] theorem raiseEv_rak (e : FaultEv) : (raiseEv e s).rak = s.rak := rfl
@[simp] theorem raiseEv_mgt (e : FaultEv) : (raiseEv e s).mgt = s.mgt := rfl
@[simp] theorem raiseEv_coll (e : FaultEv) : (raiseEv e s).coll = s.coll := rfl

@[simp] theorem raise_pending (c : Nat) : (raise c s).pending = s.pending := rfl
@[simp] theorem raise_sram (c : Nat) : (raise c s).sram = s.sram := rfl
@[simp] theorem raise_wlog (c : Nat) : (raise c s).wlog = s.wlog := rfl
@[simp] theorem raise_clk (c : Nat) : (raise c s).clk = s.clk := rfl
@[simp] theorem raise_free (c : Nat) : (raise c s).free = s.free := rfl
@[simp] theorem raise_outbox (c : Nat) : (raise c s).outbox = s.outbox := rfl
@[simp] theorem raise_glb (c : Nat) : (raise c s).glb = s.glb := rfl
@[simp] theorem raise_start (c : Nat) : (raise c s).start = s.start := rfl
@[simp] theorem raise_sup (c : Nat) : (raise c s).sup = s.sup := rfl
@[simp] theorem raise_mbx (c : Nat) : (raise c s).mbx = s.mbx := rfl
@[simp] theorem raise_pwr (c : Nat) : (raise c s).pwr = s.pwr := rfl
@[simp] theorem raise_mrl (c : Nat) : (raise c s).mrl = s.mrl := rfl
@[simp] theorem raise_obs (c : Nat) : (raise c s).obs = s.obs := rfl
@[simp] theorem raise_sun (c : Nat) : (raise c s).sun = s.sun := rfl
@[simp] theorem raise_tst (c : Nat) : (raise c s).tst = s.tst := rfl
@[simp] theorem raise_plots (c : Nat) : (raise c s).plots = s.plots := rfl
@[simp] theorem raise_tally (c : Nat) : (raise c s).tally = s.tally := rfl
@[simp] theorem raise_fur (c : Nat) : (raise c s).fur = s.fur := rfl
@[simp] theorem raise_img (c : Nat) : (raise c s).img = s.img := rfl
@[simp] theorem raise_xfer (c : Nat) : (raise c s).xfer = s.xfer := rfl
@[simp] theorem raise_mp (c : Nat) : (raise c s).mp = s.mp := rfl
@[simp] theorem raise_rlc (c : Nat) : (raise c s).rlc = s.rlc := rfl
@[simp] theorem raise_home (c : Nat) : (raise c s).home = s.home := rfl
@[simp] theorem raise_lanes (c : Nat) : (raise c s).lanes = s.lanes := rfl
@[simp] theorem raise_trl (c : Nat) : (raise c s).trl = s.trl := rfl
@[simp] theorem raise_rak (c : Nat) : (raise c s).rak = s.rak := rfl
@[simp] theorem raise_mgt (c : Nat) : (raise c s).mgt = s.mgt := rfl
@[simp] theorem raise_coll (c : Nat) : (raise c s).coll = s.coll := rfl

@[simp] theorem cntCommand_pending (f q : Nat) : (cntCommand f q s).pending = s.pending := rfl
@[simp] theorem cntCommand_sram (f q : Nat) : (cntCommand f q s).sram = s.sram := rfl
@[simp] theorem cntCommand_wlog (f q : Nat) : (cntCommand f q s).wlog = s.wlog := rfl
@[simp] theorem cntCommand_clk (f q : Nat) : (cntCommand f q s).clk = s.clk := rfl
@[simp] theorem cntCommand_free (f q : Nat) : (cntCommand f q s).free = s.free := rfl
@[simp] theorem cntCommand_outbox (f q : Nat) : (cntCommand f q s).outbox = s.outbox := rfl
@[simp] theorem cntCommand_glb (f q : Nat) : (cntCommand f q s).glb = s.glb := rfl
@[simp] theorem cntCommand_start (f q : Nat) : (cntCommand f q s).start = s.start := rfl
@[simp] theorem cntCommand_sup (f q : Nat) : (cntCommand f q s).sup = s.sup := rfl
@[simp] theorem cntCommand_mbx (f q : Nat) : (cntCommand f q s).mbx = s.mbx := rfl
@[simp] theorem cntCommand_flt (f q : Nat) : (cntCommand f q s).flt = s.flt := rfl
@[simp] theorem cntCommand_pwr (f q : Nat) : (cntCommand f q s).pwr = s.pwr := rfl
@[simp] theorem cntCommand_mrl (f q : Nat) : (cntCommand f q s).mrl = s.mrl := rfl
@[simp] theorem cntCommand_sun (f q : Nat) : (cntCommand f q s).sun = s.sun := rfl
@[simp] theorem cntCommand_tst (f q : Nat) : (cntCommand f q s).tst = s.tst := rfl
@[simp] theorem cntCommand_plots (f q : Nat) : (cntCommand f q s).plots = s.plots := rfl
@[simp] theorem cntCommand_tally (f q : Nat) : (cntCommand f q s).tally = s.tally := rfl
@[simp] theorem cntCommand_fur (f q : Nat) : (cntCommand f q s).fur = s.fur := rfl
@[simp] theorem cntCommand_img (f q : Nat) : (cntCommand f q s).img = s.img := rfl
@[simp] theorem cntCommand_xfer (f q : Nat) : (cntCommand f q s).xfer = s.xfer := rfl
@[simp] theorem cntCommand_mp (f q : Nat) : (cntCommand f q s).mp = s.mp := rfl
@[simp] theorem cntCommand_rlc (f q : Nat) : (cntCommand f q s).rlc = s.rlc := rfl
@[simp] theorem cntCommand_home (f q : Nat) : (cntCommand f q s).home = s.home := rfl
@[simp] theorem cntCommand_lanes (f q : Nat) : (cntCommand f q s).lanes = s.lanes := rfl
@[simp] theorem cntCommand_trl (f q : Nat) : (cntCommand f q s).trl = s.trl := rfl
@[simp] theorem cntCommand_rak (f q : Nat) : (cntCommand f q s).rak = s.rak := rfl
@[simp] theorem cntCommand_mgt (f q : Nat) : (cntCommand f q s).mgt = s.mgt := rfl
@[simp] theorem cntCommand_coll (f q : Nat) : (cntCommand f q s).coll = s.coll := rfl

end Sys2Proof.Laws
end

