-- ==== Sys2Proof/Safety.lean ====
section
/-! DEFINITION. The terms that statements use: what a command leaves, what stays, and when a command may take its effect. -/

namespace Sys2Proof.Machine

/-- What a command's own effect starts from: no byte of buffer SRAM written yet. -/
def fresh (s : State) : State := { s with wlog := [] }

/-- The state that a command leaves when its own effect on `fresh s` is `u`: the queue and the clock stand, buffer SRAM takes the
bytes written, and the Silt rings take the events of what changed (R481). -/
def ended (s u : State) : State := commit s (siltChanges s u)

/-- The state that a command leaves when its own effect is `u` and what `u` makes possible follows at once: finished memory
accesses, packets that the block sent itself, links that changed, collective steps and requests that wait for a memory port. -/
def after (s u : State) : State := ended s (pump (settle (2 ^ 40) u))

/-- The command `r` of furrow `f` stands at issue with its opcode, and nothing keeps it waiting (R45, R74-R78). -/
def Issues (s : State) (f op : Nat) (outst : Bool) (r : Ready) : Prop :=
  atIssue s f op = some r ∧ issueWait (getFur s f) r.cmd outst = .none

/-- A command's step 9 checks pass (R74). -/
def Passes (checks : List (Bool × Nat)) : Prop := firstFail checks = 0

/-- A furrow that has issued one more command: the command joins the issued ones and none is at issue (R76). -/
def Furrow.issuing (g : Furrow) (i : Issued) : Furrow :=
  { g with issued := g.issued ++ [i], cur := none, nextTid := g.nextTid + 1, state := if g.active then .running else g.state,
           wait := .none, waitSince := none, stepTid := if g.stepping then some i.tid else none }

/-- A furrow that has issued a command which completed as it issued (R76). -/
def Furrow.completing (g : Furrow) (c : Cmd) : Furrow :=
  g.issuing { tid := g.nextTid, cmd := c, outst := false, done := true }

/-- A furrow that has issued a command which is outstanding in `parts` parts (R76). -/
def Furrow.sending (g : Furrow) (c : Cmd) (parts : Nat) (dest : Option Nat) : Furrow :=
  g.issuing { tid := g.nextTid, cmd := c, outst := true, left := parts, dest := dest }

/-- An issued command without what its parts have reported so far. -/
def Issued.bare (i : Issued) : Issued := { i with left := 0, err := none, conseq := false }

/-- A furrow without what the parts of its issued commands have reported so far. -/
def Furrow.bare (g : Furrow) : Furrow := { g with issued := g.issued.map Issued.bare }

/-- Only transfers have moved on: what the engines, the memory ports, the line cache, the home side, tallies, draining plots'
counts, buffer writes, counters and faults on their way hold may differ, and parts of issued commands may have ended. Every other
unit of the block, and every furrow apart from that, stands as it stood. -/
structure EngineWork (s u : State) : Prop where
  rest : u = { s with wlog := u.wlog, free := u.free, obs := u.obs, flt := { s.flt with inflight := u.flt.inflight },
                      plots := u.plots, tally := u.tally, fur := u.fur, xfer := u.xfer, mp := u.mp, rlc := u.rlc, home := u.home }
  furrows : ∀ n, (getFur u n).bare = (getFur s n).bare
  plots : ∀ p, { getPlot u p with acct := 0 } = { getPlot s p with acct := 0 }

/-- Furrow `f` has issued the command `c`, which is outstanding until it completes with `dest` the register it keeps busy, and
the transfer engines have taken its work (R76, R78, R155). -/
def Sends (s v : State) (f : Nat) (c : Cmd) (parts : Nat) (dest : Option Nat) : Prop :=
  EngineWork (issueOut f c parts dest (fresh s)) v

/-- A command with W set belongs to a privileged plot (R94). -/
def RowAllowed (s : State) (f : Nat) (c : Cmd) : Prop := c.fW = true → (getPlot s (getFur s f).plot).priv = true

/-- The last packet of the send queue is a request of a kind to a node, with the next number of its channel (R158, R434). -/
def Asks (s v : State) (kind node addr : Nat) : Prop :=
  ∃ id q, v.xfer.rqs.getLast? = some (id, q) ∧ q.sent = false ∧ q.pkt.kind = kind ∧ q.pkt.vn = 0 ∧ q.pkt.dst = node
    ∧ q.pkt.src = selfNode s ∧ reqAddr q.pkt = addr ∧ q.pkt.seq = s.xfer.ctr.getD node 0

/-- The bed context of a collective command: its plot's open bed of that id (R186). -/
def BedOf (s : State) (f : Nat) (c : Cmd) (ctx : Nat) : Prop := findBed s (getFur s f).plot c.id = some ctx

/-- The step that a collective command takes: the bed's next step and its next chunk numbers (R188, R192). -/
def nextStepOf (s : State) (f : Nat) (c : Cmd) (o : Opnd) (ctx : Nat) : CStep :=
  let b := getBed s ctx
  let st : CStep := { num := b.nextStep, cmd := ccmdOf c o, f := f, tid := (getFur s f).nextTid, a := o.a.toNat,
                      b := o.b.toNat % 2 ^ 47, c0 := b.nextChunk, nc := chunkCount b.desc (ccmdOf c o), since := s.clk }
  { st with due := if c.op = 0x60 then 1 else dueBytes b.desc st (myRank s b.desc) }

/-- The state in which a command has taken its bed's next step: it is outstanding, and the bed counts on (R188, R192). -/
def stepTaken (s : State) (f : Nat) (c : Cmd) (o : Opnd) (ctx : Nat) : State :=
  modBed ctx (fun b => { b with nextStep := (b.nextStep + 1) % 2 ^ 32,
                                nextChunk := (b.nextChunk + chunkCount b.desc (ccmdOf c o)) % 2 ^ 32 }) (issueOut f c 1 none (fresh s))

/-- Only furrow `f` has changed, the counters, the trace ring and the Silt rings apart: every other furrow, every byte of buffer
SRAM, every tally, plot, fault entry, link and register of another unit stands as it stood. -/
def OnlyFurrow (s t : State) (f : Nat) : Prop :=
  (∀ n, n ≠ f → getFur t n = getFur s n) ∧ t = { s with fur := t.fur, obs := t.obs, wlog := [] }

/-- The operands of a command of furrow `f` as it issues (R71). -/
def opnds (s : State) (f : Nat) (r : Ready) : Opnd := operands (getFur s f) r.cmd

/-- The register operands of a command keep the field rules of step 4 (R74). -/
def FieldsHold (s : State) (f : Nat) (r : Ready) : Prop := (regCheck s r.cmd (opnds s f r)).1 = false

/-- A command of furrow `f`, which has nothing else issued, is refused at issue: the furrow is Faulted at that command and the
collector is told of an L1 fault of the code (R79). -/
def FaultsAtIssue (s t : State) (f : Nat) (c : Cmd) (code : Nat) : Prop :=
  let g := getFur s f
  let h := getFur t f
  let n := (g.seq.toNat + 1) % 2 ^ 32
  h.state = .faulted ∧ h.faultCode = code ∧ h.faultSeq.toNat = n ∧ h.faultEvt = true ∧ h.abandoned = 0 ∧ h.issued = []
    ∧ h.seq = g.seq ∧ h.g = g.g ∧ h.preds = g.preds
    ∧ ∃ e : FaultEv, t.flt.inflight = s.flt.inflight ++ [e] ∧ e.code = code ∧ e.level = .l1 ∧ e.plot = some g.plot
        ∧ e.kind = .furrow ∧ e.unit = f ∧ e.layer = c.layer ∧ e.op = c.oper ∧ e.furrow = some f

/-- A supervisor's write reaches a register: the control port runs, the offset names a register of a powered unit of this build,
and the supervisor may write it (R393, R516, R559-R561). -/
def Writable (s : State) (sv addr : Nat) : Prop :=
  cpServes s sv = true ∧ addr % 4 = 0 ∧ inRegion addr = true ∧ cpAbsent s addr = false
    ∧ (∀ d, cpDomain s addr = some d → domOn s d = true) ∧ mayWrite s sv addr = true

/-- A supervisor's read reaches a register (R516, R559-R561). -/
def Readable (s : State) (sv addr : Nat) : Prop :=
  cpServes s sv = true ∧ addr % 4 = 0 ∧ inRegion addr = true ∧ cpAbsent s addr = false
    ∧ (∀ d, cpDomain s addr = some d → domOn s d = true)

/-- The invariant of the buffer: its bytes are in canonical form, and no write is left over between commands. -/
def State.MemInv (s : State) : Prop := s.sram.wf = true ∧ s.wlog = []

/-- A fetched command that passes the checks before its predicate: it was read, its CRC fits, its fields are legal, and no break stops
the furrow before it (R74, R107). -/
def Sound (s : State) (f : Nat) (x : Fetched) : Prop :=
  x.bad = 0 ∧ cmdCrc x.raw = (decodeCmd x.raw).crc ∧ staticCheck (!e64 s) (decodeCmd x.raw) = 0
    ∧ breakCause (getFur s f) (decodeCmd x.raw) = .none

/-- Its predicate lets a command issue (R74). -/
def PredHolds (g : Furrow) (c : Cmd) : Prop := c.fP = true → g.preds.getLsbD c.pidx = true

/-- A furrow that takes a fetched command to issue. -/
def Furrow.taking (g : Furrow) (x : Fetched) : Furrow :=
  { g with cur := some { cmd := decodeCmd x.raw, place := x.place }, state := .running, wait := .none, waitSince := none }

/-- The bed context that BEDOPEN's descriptor opens (R185). -/
def openedBed (s : State) (f : Nat) (d : Desc) : Bed :=
  { isOpen := true, plot := (getFur s f).plot, desc := d, resv := slotResv s d, dresv := dibResv s d }

/-- The Dibber step that a DBARRIER takes (R289, R291). -/
def barrierStep (s : State) (f : Nat) (c : Cmd) (o : Opnd) (ctx : Nat) : DStep :=
  { num := (getBed s ctx).nextDib, cmd := ccmdOf c o, f := f, tid := (getFur s f).nextTid, a := o.a.toNat, b := o.b.toNat % 2 ^ 47,
    since := s.clk, data := some [] }

/-- The packet stands at the head of its buffer of link `l`, is for this block, and is neither refused by R353 nor held back by the Safe
state: the event takes it (R325, R353). -/
def Delivers (s : State) (l : Nat) (p : Packet) (kind : Nat) : Prop :=
  l < linkCount s ∧ atHead s l p = true ∧ p.kind = kind ∧ p.dst = selfNode s ∧ s.flt.safe = false ∧ vn2Bad s l p = false

/-- A packet that is delivered passes the checks of every packet: its crc, its plot at this link, and the plot's generation (R325, R368,
R369). -/
def Arrives (s : State) (l : Nat) (p : Packet) (kind plot : Nat) : Prop :=
  Delivers s l p kind ∧ Packet.crcOk p = true ∧ plotChecks s l p = (0, plot) ∧ (getPlot s plot).gen = p.gen

/-- The state in which a packet has left its buffer and its credits have gone back (R331). -/
def taken (s : State) (l : Nat) (p : Packet) : State := takePkt l p (fresh s)

/-- A request is new to its channel, and the channel after it: on a row channel the expected number, else a number that the window has not
seen (R436, R438). -/
def Fresh (s : State) (p : Packet) (h : Home) : Prop :=
  if p.row = true then
    p.seq = s.home.rowExp.getD (rowKey p.src p.rowCh) 0 ∧ h = { s.home with rowExp := s.home.rowExp.set (rowKey p.src p.rowCh) ((p.seq + 1) % 2 ^ 32) }
  else ∃ w, winCheck (s.home.win.at p.src) p.seq = (true, w) ∧ h = { s.home with win := s.home.win.set p.src w }

/-- The rows of packets that arrive, with the kind that each takes (R323). -/
def arrivals (l : Nat) (p : Packet) (u : Upset) : List (Instr × Nat) :=
  [(.writeData l p, 0x10), (.partialWrite l p, 0x11), (.shortWrite l p, 0x12), (.readRequest l p, 0x13), (.shortRead l p, 0x14),
   (.copyRequest l p, 0x15), (.atomicRequest l p, 0x16), (.tallyAdd l p, 0x17), (.manifestWrite l p, 0x18), (.readData l p, 0x20),
   (.shortReply l p, 0x21), (.acknowledgement l p, 0x22), (.copyDone l p, 0x23), (.copyBusy l p, 0x24), (.errorReply l p, 0x25),
   (.stepAbortNotice l p, 0x26), (.collectiveAcknowledgement l p, 0x27), (.stepReady l p, 0x30), (.grant l p, 0x31),
   (.contribution l p u, 0x32), (.loamFormPartial l p u, 0x33), (.result l p, 0x34), (.sparseStream l p u, 0x35), (.tagCount l p, 0x36),
   (.offsets l p, 0x37), (.filledCounts l p, 0x38), (.expect l p, 0x39), (.combineContribution l p u, 0x3A), (.refusal l p, 0x3B),
   (.candidateList l p, 0x3C),
   (.dibberContribution l p, 0x50), (.dibberPartial l p, 0x51), (.dibberResult l p, 0x52), (.barrierRelease l p, 0x53)]

/-- The rows of home requests that are performed by the memory accesses of their kind (R158). -/
def homeRows (l : Nat) (p : Packet) : List (Instr × Nat) :=
  [(.writeData l p, 0x10), (.partialWrite l p, 0x11), (.shortWrite l p, 0x12), (.readRequest l p, 0x13), (.shortRead l p, 0x14),
   (.atomicRequest l p, 0x16), (.tallyAdd l p, 0x17), (.manifestWrite l p, 0x18)]

/-- The rows of packets of a bed, with the kind and the upset that each takes (R323). -/
def collRows (l : Nat) (p : Packet) (u : Upset) : List (Instr × Nat × Upset) :=
  [(.stepAbortNotice l p, 0x26, .none), (.stepReady l p, 0x30, .none), (.grant l p, 0x31, .none), (.contribution l p u, 0x32, u),
   (.loamFormPartial l p u, 0x33, u), (.result l p, 0x34, .none), (.sparseStream l p u, 0x35, u), (.tagCount l p, 0x36, .none),
   (.offsets l p, 0x37, .none), (.filledCounts l p, 0x38, .none), (.expect l p, 0x39, .none), (.combineContribution l p u, 0x3A, u),
   (.refusal l p, 0x3B, .none), (.candidateList l p, 0x3C, .none), (.dibberContribution l p, 0x50, .none),
   (.dibberPartial l p, 0x51, .none), (.dibberResult l p, 0x52, .none), (.barrierRelease l p, 0x53, .none)]

/-- The open bed of an arriving packet is its own: same plot, same id, same generation (R189). -/
def AtBed (s : State) (plot : Nat) (p : Packet) (ctx : Nat) : Prop :=
  findBed s plot p.bedId = some ctx ∧ (getBed s ctx).desc.gen = p.bedGen

/-- The step of a bed that a packet names, with its slot here, has neither been aborted nor seen the packet (R189, R198, R217). -/
def AtSlot (s : State) (plot : Nat) (p : Packet) (ctx : Nat) (st : CStep) (id : Nat) (x : Slot) : Prop :=
  AtBed s plot p ctx ∧ abortedAt (getBed s ctx).abort p.stepNo = none ∧ findStep (getBed s ctx) p.stepNo = some st
    ∧ slotOf s ctx st p = some (id, x) ∧ x.got.contains (p.rank, p.stripe, p.pidx) = false

/-- A packet for another node that a port may pass on: at the head of its buffer, and past the checks of its plot (R353, R368). -/
def ForwardsFrom (s : State) (l : Nat) (p : Packet) (peer : Bool) (plot : Nat) : Prop :=
  l < linkCount s ∧ atHead s l p = true ∧ p.dst ≠ selfNode s ∧ s.flt.safe = false ∧ forwardChecks s l p peer = (0, plot)

/-- A core's request reaches its aperture: its port is up, its address decodes there, its parity, port and shape are right, its plot is
admitted and the block is not under L3 (R385, R421, R528, R529). -/
def IqReaches (s : State) (r : Region) (port : Nat) (b : IqBeat) : Prop :=
  e64 s = true ∧ port < 16 ∧ (s.mp.ports.at port).up = true ∧ s.glb.stopped = false ∧ s.flt.safe = false ∧ s.flt.l3 = false
    ∧ regionOf s b.addr = r ∧ iqChecks port b = 0 ∧ iqPlotOk s b r = true

/-- A memory port of an E64 that is up (R518). -/
def PortUp (s : State) (port : Nat) : Prop := e64 s = true ∧ port < 16 ∧ (s.mp.ports.at port).up = true

/-- A lane that trains: it is one of the build's lanes, has a far end to come, and does not wait for its batch (R315, R317). -/
def Trains (s : State) (q : Nat) (t : TState) (x : Lane) : Prop :=
  q < laneCount s ∧ noFarLane s q = false ∧ getLane s q = x ∧ x.wait = false ∧ x.tstate = t ∧ t.training = true

/-- Icquel may take the request of a mailbox, which is of a command that it serves now and that this supervisor may use (R403, R406,
R422, R458, R465). -/
def Served (s : State) (i cmd : Nat) : Prop :=
  i < 4 ∧ canTake s i = true ∧ reqCmd (reqWords s i) = cmd ∧ servesCmd s cmd = true ∧ (ownerOnly cmd = true → s.sup.owner = some i)

/-- The state in which Icquel has taken the request of a mailbox: its go is clear (R403). -/
def reqTaken (s : State) (i : Nat) : State := modMbx i (fun m => { m with reqGo := false }) (fresh s)

end Sys2Proof.Machine
end

