-- ==== Sys2Proof/WellFormed.lean ====
section
/-! DEFINITION. Which commands are well formed: every operand lies in the range that its wires or its register array give it. -/

namespace Sys2Proof

/-- A packet's fields fit the bits that its header gives them, and it carries the payload flits that it states (R322, R323). -/
def Packet.wf (p : Packet) : Bool :=
  decide (p.kind < 2 ^ 8) && decide (p.vn < 2 ^ 3) && decide (p.pathVn < 2 ^ 3) && decide (p.flits < 2 ^ 5)
    && decide (p.flits = p.payload.length) && decide (p.rowCh < 2 ^ 3) && decide (p.key < 2 ^ 12) && decide (p.gen < 2 ^ 4)
    && decide (p.src < 2 ^ 16) && decide (p.dst < 2 ^ 16) && decide (p.hint < 2 ^ 16) && decide (p.seq < 2 ^ 32)

/-- A Tilth command's fields fit the bits that its 32 bytes give them (R67). -/
def Machine.Cmd.wf (c : Machine.Cmd) : Bool :=
  decide (c.op < 2 ^ 8) && decide (c.layer < 2 ^ 16) && decide (c.oper < 2 ^ 16) && decide (c.id < 2 ^ 16)
    && decide (c.len < 2 ^ 32) && decide (c.d < 2 ^ 8) && decide (c.sel < 2 ^ 8)

/-- A link word's fields fit its 20 bits (R329). -/
def Machine.LinkWord.wf (w : Machine.LinkWord) : Bool :=
  decide (w.seq < 2 ^ 8) && decide (w.kind < 2 ^ 2) && decide (w.arg < 2 ^ 8)

/-- A furrow of the larger build (R7). -/
def furrowWf (f : Nat) : Bool := decide (f < 256)
/-- A control-port master number (R393, R516). -/
def svWf (sv : Nat) : Bool := decide (sv < 4)
/-- A lane or a link of the larger build (R7). -/
def laneWf (q : Nat) : Bool := decide (q < 512)
/-- A lane group of the larger build (R7). -/
def groupWf (g : Nat) : Bool := decide (g < 64)
/-- A plot (R7). -/
def plotWf (p : Nat) : Bool := decide (p < 256)
/-- A memory port (R7). -/
def portWf (p : Nat) : Bool := decide (p < 16)
/-- A mailbox (R402). -/
def boxWf (i : Nat) : Bool := decide (i < 4)
/-- A packet that arrives on a link. -/
def arriveWf (l : Nat) (p : Packet) : Bool := laneWf l && p.wf

/-- The command's operands lie in their ranges. An identifier that the block hands out itself (a request, a step, a slot, a context)
is a plain number and has no range. -/
def Instr.wf : Instr → Bool
  | .nop f | .jump f | .branch f | .loop f | .call f | .ret f | .halt f | .brk f | .seti f | .addi f | .movg f | .cmp f
  | .loadg f _ | .storeg f | .copy f _ | .put f | .get f _ | .fill f | .atom f | .twait f _ | .tadd f | .tset f | .fence f
  | .signal f | .signalEventPost f | .sunwait f | .bedopen f | .bedclose f | .reduce f | .allred f | .redscat f | .allgath f
  | .bcast f | .shift f | .permute f | .scan f | .sreduce f | .topk f | .dispatch f | .combine f | .dreduce f | .dbarrier f
  | .mark f | .dump f | .commandFetch f _ | .commandComplete f _ | .commandRetire f | .twaitLimitExpiry f | .furrowIdle f =>
      furrowWf f
  | .furCtlStart sv n _ | .furCtlStop sv n _ | .furCtlResume sv n _ | .furCtlStep sv n _ | .furCtlReset sv n _
  | .furDoorbell sv n _ | .furNotify sv n => svWf sv && furrowWf n
  | .imageReplacement slot => decide (slot < 64)
  | .packetSend _ | .e2eTimerExpiry _ | .copyBusyResend _ | .deepBusyResend _ | .slotAllocate _ | .dibberSlotAllocate _
  | .memberStepTimerExpiry _ _ | .servingStepTimerExpiry _ | .dibberMemberTimerExpiry _ _ | .dibberServingTimerExpiry _
  | .boardWindowRelease _ | .homeAccessRelease _ | .managementResend _ => true
  | .ackCoalesceExpiry node => decide (node < 2 ^ 16)
  | .writeData l p | .partialWrite l p | .shortWrite l p | .readRequest l p | .shortRead l p | .copyRequest l p
  | .atomicRequest l p | .tallyAdd l p | .manifestWrite l p | .readData l p | .shortReply l p | .acknowledgement l p
  | .copyDone l p | .copyBusy l p | .errorReply l p | .stepAbortNotice l p | .collectiveAcknowledgement l p | .stepReady l p
  | .grant l p | .contribution l p _ | .loamFormPartial l p _ | .result l p | .sparseStream l p _ | .tagCount l p
  | .offsets l p | .filledCounts l p | .expect l p | .combineContribution l p _ | .refusal l p | .candidateList l p
  | .dibberContribution l p | .dibberPartial l p | .dibberResult l p | .barrierRelease l p | .packetForward l p
  | .boardForward l p | .ringForward l p | .reachNotice l p | .peerNotice l p | .rakeMapRequest l p
  | .managementAcknowledgement l p | .managementNak l p | .relayRequest l p | .relayReply l p | .sync l p _
  | .syncReply l p _ => arriveWf l p
  | .boardWindowLoad port _ _ | .boardWindowStore port _ | .creditWithholdRelease port | .tallyApertureRead port _ _
  | .tallyApertureWrite port _ | .doorbellApertureWrite port _ | .mpReadData port _ | .mpWriteResponse port _
  | .mpLockData port _ | .mpUnlockResponse port _ | .mpCredit port _ | .mpInitialCreditExpiry port => portWf port
  | .mpRespLimitExpiry port tag => portWf port && decide (tag < 1024)
  | .invAll sv _ | .invPlot sv _ | .fallow sv _ _ | .prtLinkCfgRetrain sv _ _ | .trellisTableWrite sv _ _ | .trlArb sv _
  | .arm sv _ | .disarm sv _ | .now sv _ | .drain sv _ | .rakPop sv _ | .claim sv _ | .release sv _ | .handover sv _
  | .accept sv _ | .supHeartbeat sv _ | .supEvq sv | .fltAck sv _ | .fltAckAll sv _ | .fltLost sv | .fltFence sv _
  | .hrwSliceFence sv _ | .sivFence sv _ | .hrwPoolCfg sv _ | .hrwPoolPeakClr sv _ | .hrwDeepPeakClr sv _
  | .sivDispPeakClr sv _ | .dibPeakClr sv _ | .warm sv _ | .cold sv _ | .domCycle sv _ | .cpAnswerTimeout sv _ _
  | .registerWrite sv _ _ _ | .pwrDomReq sv _ | .crashDump sv _ | .missedClr sv _ | .dbgSiltSel sv _ | .snap sv _
  | .cntClear sv _ | .sunTimeLo sv | .rearm sv _ | .sunCfg sv _ | .registerRead sv _ _ => svWf sv
  | .hrwLagWorstClear sv _ _ | .cntLo sv _ => svWf sv
  | .epochSweepDone | .mpClkRangeExpiry | .swapTime | .guardEnd | .drainDone | .drainLimitExpiry | .rakeSample
  | .rakeWindowClose | .handoverExpiry | .heartbeatExpiry | .faultRaised | .resetAct | .powerOn | .coldRstN _ _ | .warmRstN
  | .startStepDone _ | .startStepTimeout | .icquelStallExpiry | .startTrainingBoundExpiry | .icqBeat | .refPllLockLoss
  | .corePllLockLoss _ | .cpClkAbsent | .thermWarnN _ | .vdroopN _ | .thermLimitExpiry | .droopHoldExpiry | .marlCommitDone _
  | .sundialSecond | .siltFreezeExpiry | .sundialSyncTick | .holdoverExpiry | .samplePreload _ | .extest _ | .extestPulse _
  | .extestTrain _ | .wsBypass | .wsSample _ | .wsPreload _ | .wsExtest _ | .wsIntest _ | .wsClamp | .wsId | .wsMbist _
  | .wsScan | .powerLoss | .warmRstNRelease | .resetPulseRejected | .cpClkReturn | .sundialLockBoundExpiry
  | .engineResetTimeout _ => true
  | .trainingFrame q _ | .trainingStepDone q | .trainingStepTimeout q | .detectTimeout q | .detectRetry q
  | .codewordReceived q _ | .ackWaitExpiry q | .correctedRatioWindow q _ | .quietIdleExpiry q | .quietRefresh q
  | .fallowPowerDown q | .injectionInterval q | .capWindowEnd q => laneWf q
  | .lanCtlRetrain sv q _ | .lanCtlTest sv q _ | .holdDown sv q _ | .lanInjOnce sv q _ => svWf sv && laneWf q
  | .escanStart sv g _ => svWf sv && groupWf g
  | .escanDone g _ | .lnPgood g _ | .lanePllLockLoss g => groupWf g
  | .hintDecay d p => decide (d < 1024) && laneWf p
  | .open_ sv p _ | .teardown sv p _ | .plotReset sv p _ => svWf sv && plotWf p
  | .drainBoundExpiry p | .plotDrainComplete p | .plotDrainHangExpiry p => plotWf p
  | .mbxReqCtlGo sv i _ | .mbxRspCtlGoClear sv i _ => svWf sv && boxWf i
  | .echo i | .imageInstall i | .soilUpdate i | .measureRequestFragment i | .measureResponseRead i | .measureIdentityRead i
  | .marlRead i _ | .marlFind i | .relay i | .relayTimeout i => boxWf i
  | .controlStateError kind _ => decide (kind < 4)
  | .pwrAck d _ | .pwrAckTimeout d | .selfGateIdleExpiry d => decide (d < 96)
  | .firmwareLogEntry severity source code _ => decide (severity < 4) && decide (source < 256) && decide (code < 2 ^ 16)

end Sys2Proof
end

