-- ==== Sys2Proof/Certificates/Slice0/Obligations.lean ====
section
/-! DEFINITION. The statements for the provers. -/

open Sys2Proof Sys2Proof.Machine

/-- A step with a command waiting takes the one at the front and is that command's effect on the state with the rest of the queue
(the model's queue of commands, log 3; R7 lists no processor of its own that would run them). -/
def Obligations.StepRunsFrontCommand : Prop := ∀ (s : State) (c : Instr) (r : List Instr),
  s.pending = c :: r → step s = exec c { s with pending := r }

/-- No command ends in a fault or a refusal: whatever the state and the operands, exec answers a next state, which keeps the queue
and the clock and has no write to buffer SRAM left over. The spec gives every command an effect: a fault of the block is an event
for the collector and no stop (R412). -/
def Obligations.EveryCommandAnswers : Prop := ∀ (c : Instr) (s : State),
  ∃ t, exec c s = .next t ∧ t.pending = s.pending ∧ t.clk = s.clk ∧ t.wlog = []

/-- Whatever the step, buffer SRAM stays a list of (address, byte) pairs with strictly rising addresses and no zero byte, and no write
is left over, so that equal contents are equal data (an unlisted byte reads zero, R454 and log 2). -/
def Obligations.StepKeepsBufferForm : Prop := ∀ s t : State, s.MemInv → step s = .next t → t.MemInv

/-- A step on an empty queue passes one nanosecond: the queue stays empty, the clock moves on by one, and buffer SRAM, the plots, the
tallies, the furrows, the lanes and the collective engine stay (the model's choice, log 3; the Sundial's rate is R488's). -/
def Obligations.IdleStepPassesTime : Prop := ∀ s : State, s.pending = [] →
  ∃ t, step s = .next t ∧ t.pending = [] ∧ t.clk = s.clk + 1 ∧ t.sram = s.sram ∧ t.plots = s.plots ∧ t.tally = s.tally
    ∧ t.fur = s.fur ∧ t.lanes = s.lanes ∧ t.coll = s.coll

/-- SETI, ADDI, MOVG and CMP complete as they issue: each writes the one register or predicate that R89 names and nothing else of
its furrow's registers; a destination out of range fails the checks of step 4 with 0x103 (R89). -/
def Obligations.RegisterCommandsWriteTheirRegister : Prop :=
  (∀ (s : State) (f : Nat) (r : Ready), Issues s f 0x10 false r →
    ∃ t, exec (.seti f) s = .next t ∧ OnlyFurrow s t f
      ∧ getFur t f = ((getFur s f).completing r.cmd).setReg r.cmd.d (opnds s f r).a)
  ∧ (∀ (s : State) (f : Nat) (r : Ready), Issues s f 0x11 false r → FieldsHold s f r →
    ∃ t, exec (.addi f) s = .next t ∧ OnlyFurrow s t f
      ∧ getFur t f = ((getFur s f).completing r.cmd).setReg r.cmd.d ((getFur s f).reg r.cmd.d + (opnds s f r).a))
  ∧ (∀ (s : State) (f : Nat) (r : Ready), Issues s f 0x12 false r →
    ∃ t, exec (.movg f) s = .next t ∧ OnlyFurrow s t f
      ∧ getFur t f = ((getFur s f).completing r.cmd).setReg r.cmd.d ((getFur s f).reg (fld r.cmd.a 0 4)))
  ∧ (∀ (s : State) (f : Nat) (r : Ready), Issues s f 0x13 false r → FieldsHold s f r →
    ∃ t, exec (.cmp f) s = .next t ∧ OnlyFurrow s t f
      ∧ getFur t f = { (getFur s f).completing r.cmd with
          preds := setBit (getFur s f).preds r.cmd.d (cmpHolds r.cmd.osel ((getFur s f).reg (fld r.cmd.a 0 4)) (opnds s f r).b) })
  ∧ (∀ (plane : Bool) (c : Cmd) (u : OpUse), opUse plane c.op = some u → outside c.flags.toNat (u.flags ||| 0x8C) = false →
      ((c.op = 0x10 ∨ c.op = 0x11 ∨ c.op = 0x12) ∧ 16 ≤ c.d ∨ c.op = 0x13 ∧ 8 ≤ c.d) → staticCheck plane c = 0x103)

/-- JUMP and a taken BRANCH move fetch to the signed offset A from themselves; a BRANCH not taken falls through. In a ring the
skipped slots are consumed as far as FUR_PROD covers them, and the rest is left to skip (R84).
LOOP, CALL and RETURN change the furrow's loop buffer, or its place and its return stack, as R85 and R86 say, when none of
the refusals of those rules applies. -/
def Obligations.FlowCommandsMoveFetch : Prop :=
  (∀ (s : State) (f : Nat) (r : Ready), Issues s f 0x01 false r → FieldsHold s f r →
    targetBad s r.place (opnds s f r).a.toInt = 0 →
    ∃ t, exec (.jump f) s = .next t ∧ OnlyFurrow s t f
      ∧ getFur t f = (if r.place.inImage
          then goTo { r.place with idx := ((r.place.idx : Int) + (opnds s f r).a.toInt).toNat } ((getFur s f).completing r.cmd)
          else ringForward ((opnds s f r).a.toInt.toNat - 1) ((getFur s f).completing r.cmd)))
  ∧ (∀ (s : State) (f : Nat) (r : Ready), Issues s f 0x02 false r → FieldsHold s f r →
    targetBad s r.place (opnds s f r).a.toInt = 0 →
    ∃ t, exec (.branch f) s = .next t ∧ OnlyFurrow s t f
      ∧ getFur t f = (if (getFur s f).preds.getLsbD (fld r.cmd.b 0 3) = r.cmd.b.getLsbD 3 then (getFur s f).completing r.cmd
          else if r.place.inImage
          then goTo { r.place with idx := ((r.place.idx : Int) + (opnds s f r).a.toInt).toNat } ((getFur s f).completing r.cmd)
          else ringForward ((opnds s f r).a.toInt.toNat - 1) ((getFur s f).completing r.cmd)))
  ∧ (∀ (s : State) (p : Place) (off : Int), (targetBad s p off = 0 ↔
      if p.inImage then 0 ≤ p.idx + off ∧ p.idx + off < imgCount s p.slot else 1 ≤ off))
  ∧ (∀ (k : Nat) (g : Furrow), (ringForward k g).prefetch = g.prefetch.drop k
      ∧ (g.prefetch.length - (ringForward k g).prefetch.length) + (g.fetching.isSome.toNat - (ringForward k g).fetching.isSome.toNat)
          + ((ringForward k g).cons - g.cons).toNat + (ringForward k g).skip = k + g.skip
      ∧ ((ringForward k g).skip = 0 ∨ (ringForward k g).avail = 0))
  ∧ ((∀ (s : State) (f : Nat) (r : Ready), Issues s f 0x03 false r → FieldsHold s f r →
    (opnds s f r).a.toNat < 2 ^ 32 → 1 ≤ (opnds s f r).b.toNat → (opnds s f r).b.toNat ≤ 16 →
    ∃ t, exec (.loop f) s = .next t ∧ OnlyFurrow s t f
      ∧ getFur t f = { (getFur s f).completing r.cmd with
          loop := { need := (opnds s f r).b.toNat, iters := (opnds s f r).a.toNat, drop := (opnds s f r).a == 0 } })
  ∧ (∀ (s : State) (f : Nat) (r : Ready), Issues s f 0x04 false r →
    (getFur s f).stack.length < 4 → callable s (fld (opnds s f r).a 0 6) (getFur s f).plot = true →
    fld (opnds s f r).a 8 32 < imgCount s (fld (opnds s f r).a 0 6) →
    ∃ t, exec (.call f) s = .next t ∧ OnlyFurrow s t f
      ∧ getFur t f = { (getFur s f).completing r.cmd with
          stack := (getFur s f).stack ++ [if r.place.inImage then { r.place with idx := r.place.idx + 1 } else {}]
          held := if r.place.inImage then (getFur s f).held else (getFur s f).held ++ (getFur s f).prefetch
          prefetch := []
          pc := { inImage := true, slot := fld (opnds s f r).a 0 6, idx := fld (opnds s f r).a 8 32 } })
  ∧ (∀ (s : State) (f : Nat) (r : Ready) (l : List Place) (back : Place), Issues s f 0x05 false r →
    (getFur s f).stack = l ++ [back] →
    ∃ t, exec (.ret f) s = .next t ∧ OnlyFurrow s t f
      ∧ getFur t f = { (getFur s f).completing r.cmd with
          stack := l, pc := back
          prefetch := if back.inImage then [] else (getFur s f).held
          held := if back.inImage then (getFur s f).held else [] }))

/-- NOP changes nothing else; HALT lets nothing more issue; BREAK stops the furrow with stop cause 3 and leaves its code in
FUR_FAULT_SEQ; MARK appends its record of R483 to an enabled trace ring and leaves a disabled one alone. -/
def Obligations.NopHaltBreakMarkComplete : Prop :=
  (∀ (s : State) (f : Nat) (r : Ready), Issues s f 0x00 false r →
    ∃ t, exec (.nop f) s = .next t ∧ OnlyFurrow s t f ∧ getFur t f = (getFur s f).completing r.cmd)
  ∧ (∀ (s : State) (f : Nat) (r : Ready), Issues s f 0x06 false r →
    ∃ t, exec (.halt f) s = .next t ∧ OnlyFurrow s t f
      ∧ getFur t f = { (getFur s f).completing r.cmd with halting := true })
  ∧ (∀ (s : State) (f : Nat) (r : Ready), Issues s f 0x07 false r →
    ∃ t, exec (.brk f) s = .next t ∧ OnlyFurrow s t f
      ∧ getFur t f = { (getFur s f).completing r.cmd with
          state := .stopped, cause := .brk, stopEvt := true, stepping := false, stepTid := none
          faultSeq := setFld (getFur s f).faultSeq 0 16 (fld (opnds s f r).a 0 16) })
  ∧ (∀ (s : State) (f : Nat) (r : Ready), Issues s f 0x7E false r →
    ∃ t, exec (.mark f) s = .next t ∧ OnlyFurrow s t f ∧ getFur t f = (getFur s f).completing r.cmd
      ∧ (bitAt s.obs.trcCtl 0 = false → t.obs.trc = s.obs.trc ∧ t.obs.trcProd = s.obs.trcProd)
      ∧ (bitAt s.obs.trcCtl 0 = true → t.obs.trcProd = s.obs.trcProd + 1
          ∧ t.obs.trc = s.obs.trc.set (s.obs.trcProd.toNat % 2048) (markRecord s f r.cmd (opnds s f r).a)))

/-- TWAIT completes once its tally has reached A (the difference modulo 2^64 lies below 2^62) and else waits with wait kind 2; TSET sets
the tally it names, in a plot that does not drain, and no other (R97, R98, R122). -/
def Obligations.TwaitAndTsetUseTheirTally : Prop :=
  (∀ (s : State) (f : Nat) (u : Upset) (r : Ready), Issues s f 0x40 false r → FieldsHold s f r → u ≠ .tally →
    tallyOk s (getFur s f).plot r.cmd.id false = true →
    ∃ t, exec (.twait f u) s = .next t ∧ OnlyFurrow s t f
      ∧ ((getTally s (getFur s f).plot r.cmd.id - (opnds s f r).a).toNat < 2 ^ 62 → getFur t f = (getFur s f).completing r.cmd)
      ∧ (2 ^ 62 ≤ (getTally s (getFur s f).plot r.cmd.id - (opnds s f r).a).toNat → getFur t f = { getFur s f with
          state := .waiting, wait := .twait
          waitSince := if (getFur s f).state = .waiting ∧ (getFur s f).wait = .twait then (getFur s f).waitSince else some s.clk }))
  ∧ (∀ (s : State) (f : Nat) (r : Ready), Issues s f 0x42 false r → FieldsHold s f r →
    tallyOk s (getFur s f).plot r.cmd.id false = true → (getPlot s (getFur s f).plot).state ≠ .draining →
    ∃ t, exec (.tset f) s = .next t ∧ t = { s with fur := t.fur, obs := t.obs, wlog := [], tally := t.tally }
      ∧ (∀ n, n ≠ f → getFur t n = getFur s n) ∧ getFur t f = (getFur s f).completing r.cmd
      ∧ getTally t (getFur s f).plot r.cmd.id = (opnds s f r).a
      ∧ ∀ k, k ≠ tallyIndex s (getFur s f).plot r.cmd.id → t.tally.at k = s.tally.at k)

/-- FENCE waits with wait kind 5 while an earlier command is incomplete; else it completes, and on E64 no line of the plot is
cached any more. SUNWAIT completes once the Sundial has reached A, waits with wait kind 3 before that;
an A more than 10 s ahead is refused with 0x161 (R99, R101). -/
def Obligations.FenceAndSunwaitWait : Prop :=
  (∀ (s : State) (f : Nat) (r : Ready), Issues s f 0x43 false r → ((getFur s f).issued.all (fun i => i.done)) = true →
    (e64 s = true → mayAdvance s (getFur s f).plot = true) →
    ∃ t, exec (.fence f) s = .next t ∧ t = { s with fur := t.fur, obs := t.obs, wlog := [], rlc := t.rlc }
      ∧ (∀ n, n ≠ f → getFur t n = getFur s n) ∧ getFur t f = (getFur s f).completing r.cmd
      ∧ (e64 s = false → t.rlc = s.rlc)
      ∧ (e64 s = true → (∀ l ∈ s.rlc.lines, l.plot = (getFur s f).plot → l.epoch ≠ (curEpoch s (getFur s f).plot + 1) % 16) →
          ∀ a, cacheHit t (getFur s f).plot a = none)
      ∧ ∀ p a, p ≠ (getFur s f).plot → cacheHit t p a = cacheHit s p a)
  ∧ (∀ (s : State) (f : Nat) (r : Ready), Issues s f 0x43 false r → ((getFur s f).issued.all (fun i => i.done)) = false →
    ∃ t, exec (.fence f) s = .next t ∧ OnlyFurrow s t f ∧ (getFur t f).state = .waiting ∧ (getFur t f).wait = .fence
      ∧ (getFur t f).cur = (getFur s f).cur ∧ (getFur t f).issued = (getFur s f).issued)
  ∧ (∀ (s : State) (f : Nat) (r : Ready), Issues s f 0x45 false r → FieldsHold s f r →
    (opnds s f r).a.toNat ≤ s.sun.time →
    ∃ t, exec (.sunwait f) s = .next t ∧ OnlyFurrow s t f ∧ getFur t f = (getFur s f).completing r.cmd)
  ∧ (∀ (s : State) (f : Nat) (r : Ready), Issues s f 0x45 false r → FieldsHold s f r →
    s.sun.time < (opnds s f r).a.toNat → (opnds s f r).a.toNat ≤ s.sun.time + 10000000000 →
    ∃ t, exec (.sunwait f) s = .next t ∧ OnlyFurrow s t f ∧ (getFur t f).state = .waiting ∧ (getFur t f).wait = .sunwait
      ∧ (getFur t f).cur = (getFur s f).cur ∧ (getFur t f).issued = (getFur s f).issued)
  ∧ (∀ (s : State) (f : Nat) (r : Ready), (getFur s f).issued = [] → (getFur s f).forced = none → Issues s f 0x45 false r →
    FieldsHold s f r → s.sun.time + 10000000000 < (opnds s f r).a.toNat →
    ∃ t, exec (.sunwait f) s = .next t ∧ FaultsAtIssue s t f r.cmd 0x161)

/-- SIGNAL kind 0x00 adds its count to the producer index of a furrow of the same plot, when R57 accepts the new index; kind 0x01
posts its code and the furrow number to the event queue, or counts it as dropped when the queue is full (R100, R401). -/
def Obligations.SignalKindsReachTheirTarget : Prop :=
  (∀ (s : State) (f n : Nat) (r : Ready), Issues s f 0x44 false r → FieldsHold s f r → r.cmd.osel = 0 →
    n = fld (opnds s f r).a 0 9 → n < furrowCount s → (getFur s n).plot = (getFur s f).plot →
    1 ≤ (opnds s f r).b.toNat → (opnds s f r).b.toNat ≤ 65536 →
    bellOk (getFur s n) ((getFur s n).prod + (opnds s f r).b.setWidth 32) = true →
    ∃ t, exec (.signal f) s = .next t ∧ t = { s with fur := t.fur, obs := t.obs, wlog := [] }
      ∧ (∀ k, k ≠ f → k ≠ n → getFur t k = getFur s k)
      ∧ (n ≠ f → getFur t f = (getFur s f).completing r.cmd
          ∧ getFur t n = { getFur s n with prod := (getFur s n).prod + (opnds s f r).b.setWidth 32 })
      ∧ (n = f → getFur t f = { (getFur s f).completing r.cmd with prod := (getFur s f).prod + (opnds s f r).b.setWidth 32 }))
  ∧ (∀ (s : State) (f : Nat) (r : Ready), Issues s f 0x44 false r → FieldsHold s f r → r.cmd.osel = 1 →
    ∃ t, exec (.signalEventPost f) s = .next t ∧ t = { s with fur := t.fur, obs := t.obs, wlog := [], sup := t.sup }
      ∧ (∀ n, n ≠ f → getFur t n = getFur s n) ∧ getFur t f = (getFur s f).completing r.cmd
      ∧ (s.sup.evq.length < 64 → t.sup = { s.sup with
          evq := s.sup.evq ++ [pk [(0, fld (opnds s f r).a 0 16), (16, f % 256), (24, (getFur s f).plot % 256)]] })
      ∧ (64 ≤ s.sup.evq.length → t.sup = { s.sup with
          dropped := satInc 65535 s.sup.dropped, events := setBit s.sup.events 4 true }))

/-- A command that a check of step 9 refuses, in a furrow with nothing issued, faults its furrow with the code of the first check
that fails, at L1: the targets of JUMP and BRANCH, the operands of LOOP, CALL's three refusals, RETURN at depth 0, a SUNWAIT too far
ahead, and SIGNAL's target and count (R74, R79, R84-R86, R100, R101). -/
def Obligations.RefusedCommandsFaultTheirFurrow : Prop :=
  ∀ (s : State) (f : Nat) (r : Ready), (getFur s f).issued = [] → (getFur s f).forced = none →
    (∀ code, Issues s f 0x01 false r → FieldsHold s f r → targetBad s r.place (opnds s f r).a.toInt = code → code ≠ 0 →
      ∃ t, exec (.jump f) s = .next t ∧ FaultsAtIssue s t f r.cmd code)
    ∧ (∀ code, Issues s f 0x02 false r → FieldsHold s f r → targetBad s r.place (opnds s f r).a.toInt = code → code ≠ 0 →
      ∃ t, exec (.branch f) s = .next t ∧ FaultsAtIssue s t f r.cmd code)
    ∧ (Issues s f 0x03 false r → FieldsHold s f r → 2 ^ 32 ≤ (opnds s f r).a.toNat →
      ∃ t, exec (.loop f) s = .next t ∧ FaultsAtIssue s t f r.cmd 0x111)
    ∧ (Issues s f 0x03 false r → FieldsHold s f r → (opnds s f r).a.toNat < 2 ^ 32 →
      (opnds s f r).b.toNat = 0 ∨ 16 < (opnds s f r).b.toNat →
      ∃ t, exec (.loop f) s = .next t ∧ FaultsAtIssue s t f r.cmd 0x143)
    ∧ (Issues s f 0x04 false r → 4 ≤ (getFur s f).stack.length →
      ∃ t, exec (.call f) s = .next t ∧ FaultsAtIssue s t f r.cmd 0x144)
    ∧ (Issues s f 0x04 false r → (getFur s f).stack.length < 4 →
      callable s (fld (opnds s f r).a 0 6) (getFur s f).plot = false →
      ∃ t, exec (.call f) s = .next t ∧ FaultsAtIssue s t f r.cmd 0x145)
    ∧ (Issues s f 0x05 false r → (getFur s f).stack = [] →
      ∃ t, exec (.ret f) s = .next t ∧ FaultsAtIssue s t f r.cmd 0x146)
    ∧ (Issues s f 0x45 false r → FieldsHold s f r → s.sun.time + 10000000000 < (opnds s f r).a.toNat →
      ∃ t, exec (.sunwait f) s = .next t ∧ FaultsAtIssue s t f r.cmd 0x161)
    ∧ (Issues s f 0x44 false r → FieldsHold s f r → r.cmd.osel = 0 →
      furrowCount s ≤ fld (opnds s f r).a 0 9 ∨ (getFur s (fld (opnds s f r).a 0 9)).plot ≠ (getFur s f).plot →
      ∃ t, exec (.signal f) s = .next t ∧ FaultsAtIssue s t f r.cmd 0x151)

/-- LOADG, STOREG and ATOM that pass their checks go out as outstanding commands of one part; a LOADG whose line the cache holds takes
its register's value at once. With idle engines and no row channel, a remote one asks its home with one packet, numbered next. An
ATOM performed here waits while the atomic unit is full or holds its line.
TADD to another endpoint goes out as an outstanding command and asks the home; TADD to its own endpoint adds A modulo 2^64 to the tally
it names, unless its plot drains, and completes as it issues (R71, R76, R78, R91, R95, R98, R158). -/
def Obligations.RemoteOperandCommandsGoOut : Prop :=
  (∀ (s : State) (f : Nat) (u : Upset) (r : Ready) (a : DWord) (line : Nat), a = (opnds s f r).a → line = lineBase a.toNat →
    FieldsHold s f r → rackOk a = true → (e64 s = false → localOk a = true) →
    (Issues s f 0x14 true r → RowAllowed s f r.cmd → a.toNat % 8 = 0 →
      ((ownTarget s a = true ∨ r.cmd.fV = true ∨ cacheHit s (getFur s f).plot line = none ∨ u = .sram) →
        ∃ v, exec (.loadg f u) s = .next (after s v) ∧ Sends s v f r.cmd 1 (some r.cmd.d)
          ∧ (ownTarget s a = false → s.xfer.segs = [] → r.cmd.fW = false → Asks s v 0x14 (rackEp a) (rackLocal a)))
      ∧ (∀ l, ownTarget s a = false → r.cmd.fV = false → cacheHit s (getFur s f).plot line = some l → u ≠ .sram →
        ∃ v, exec (.loadg f u) s = .next (after s v)
          ∧ EngineWork (modFur f (fun g => g.setReg r.cmd.d (BitVec.ofNat 64 (fld l (8 * (a.toNat % 128)) 64)))
              (issueOut f r.cmd 1 (some r.cmd.d) (fresh s))) v))
    ∧ (Issues s f 0x15 true r → RowAllowed s f r.cmd → tallyOk s (getFur s f).plot r.cmd.id true = true → a.toNat % 8 = 0 →
        ∃ v, exec (.storeg f) s = .next (after s v) ∧ Sends s v f r.cmd 1 none
          ∧ (ownTarget s a = false → s.xfer.segs = [] → r.cmd.fW = false → Asks s v 0x12 (rackEp a) (rackLocal a)))
    ∧ (Issues s f 0x30 true r → a.toNat % atomSize r.cmd.d = 0 →
        ∀ p, p = { mkPkt s (getFur s f).plot (rackEp a) 0x16 0 none (atomArea (getFur s f) r.cmd (opnds s f r)) [] with src := selfNode s } →
        ((ownTarget s a = true → mapped s (rackLocal a) = true → lineBusy s p = false ∧ atomsFull s = false) →
          ∃ v, exec (.atom f) s = .next (after s v) ∧ Sends s v f r.cmd 1 (atomRet r.cmd)
            ∧ (ownTarget s a = false → s.xfer.segs = [] → Asks s v 0x16 (rackEp a) (rackLocal a)))
        ∧ (ownTarget s a = true → mapped s (rackLocal a) = true → lineBusy s p = true ∨ atomsFull s = true →
          exec (.atom f) s = .next (after s (fresh s)))))
  ∧ (∀ (s : State) (f : Nat) (r : Ready) (b : DWord), b = (opnds s f r).b → FieldsHold s f r → RowAllowed s f r.cmd →
    tallyOk s (getFur s f).plot r.cmd.id false = true →
    (Issues s f 0x41 true r → ¬ (e64 s = true ∧ b.toNat = selfNode s) →
      ∃ v, exec (.tadd f) s = .next (after s v) ∧ Sends s v f r.cmd 1 none
        ∧ (s.xfer.segs = [] → r.cmd.fW = false → Asks s v 0x17 (fld b 0 9) 0))
    ∧ (Issues s f 0x41 false r → e64 s = true → b.toNat = selfNode s → (getPlot s (getFur s f).plot).state ≠ .draining →
      ∃ v, exec (.tadd f) s = .next (after s v) ∧ v = { s with wlog := [], fur := v.fur, obs := v.obs, tally := v.tally }
        ∧ (∀ n, n ≠ f → getFur v n = getFur s n) ∧ getFur v f = (getFur s f).completing r.cmd
        ∧ getTally v (getFur s f).plot r.cmd.id = getTally s (getFur s f).plot r.cmd.id + (opnds s f r).a
        ∧ ∀ k, k ≠ tallyIndex s (getFur s f).plot r.cmd.id → v.tally.at k = s.tally.at k))

/-- COPY, PUT, GET and FILL that pass their checks go out as outstanding commands with one part per segment (R76, R92, R156). -/
def Obligations.TransferCommandsGoOut : Prop :=
  ∀ (s : State) (f : Nat) (u : Upset) (r : Ready) (o : Opnd), o = opnds s f r → FieldsHold s f r → RowAllowed s f r.cmd →
    tallyOk s (getFur s f).plot r.cmd.id true = true → 0 < o.len → o.len ≤ 2 ^ 32 → o.len % 128 = 0 →
    (Issues s f 0x20 true r → e64 s = true → rackOk o.a = true → rackOk o.b = true → o.a.toNat % 128 = 0 → o.b.toNat % 128 = 0 →
      ∃ v n, exec (.copy f u) s = .next (after s v) ∧ Sends s v f r.cmd n none
        ∧ n = if rackEp o.a = selfNode s ∨ rackEp o.b = selfNode s then ceilDiv (o.len / 128) 32
              else (copyCuts (o.len / 128) (rackLocal o.b) 0 (o.len / 128)).length)
    ∧ (Issues s f 0x21 true r → localOk o.a = true → rackOk o.b = true → o.a.toNat % 128 = 0 → o.b.toNat % 128 = 0 →
      ∃ v, exec (.put f) s = .next (after s v) ∧ Sends s v f r.cmd (ceilDiv (o.len / 128) 32) none)
    ∧ (Issues s f 0x22 true r → rackOk o.a = true → localOk o.b = true → o.a.toNat % 128 = 0 → o.b.toNat % 128 = 0 →
      ∃ v, exec (.get f u) s = .next (after s v) ∧ Sends s v f r.cmd (ceilDiv (o.len / 128) 32) none)
    ∧ (Issues s f 0x23 true r → rackOk o.b = true → o.b.toNat % 128 = 0 →
      ∃ v, exec (.fill f) s = .next (after s v) ∧ Sends s v f r.cmd (ceilDiv (o.len / 128) 32) none)

/-- A transfer's lines are dealt into segments of 32 lines that follow one another, and a segment's lines into packets of at most 8
lines, none crossing a 1 KiB boundary of the remote address (R156, R157). -/
def Obligations.SegmentsAndPacketsCoverTheLines : Prop :=
  (∀ (s : State) (first i : Nat) (g : Seg), i < (dealSegs s first g).length →
    ∃ h, (dealSegs s first g)[i]? = some h ∧ h.src = g.src + 4096 * i ∧ h.dst = g.dst + 4096 * i
      ∧ h.lines = min 32 (g.lines - 32 * i) ∧ 0 < h.lines)
  ∧ (∀ (s : State) (first : Nat) (g : Seg), ((dealSegs s first g).map (fun h => h.lines)).sum = g.lines)
  ∧ (∀ remote first lines : Nat, ((cutRuns lines remote first lines).map (fun x => x.2)).sum = lines)
  ∧ (∀ remote first lines i : Nat, ∀ x, (cutRuns lines remote first lines)[i]? = some x →
      1 ≤ x.2 ∧ x.2 ≤ 8 ∧ (remote / 128 + x.1) / 8 = (remote / 128 + x.1 + x.2 - 1) / 8
      ∧ x.1 = first + (((cutRuns lines remote first lines).take i).map (fun y => y.2)).sum)

/-- A dense collective command that passes its checks takes its bed's next step and begins it as R195, R198 and R203 say. -/
def Obligations.DenseCommandsTakeTheirStep : Prop :=
  ∀ (s : State) (f : Nat) (r : Ready) (o : Opnd) (ctx : Nat) (d : Desc) (c : CCmd), o = opnds s f r → BedOf s f r.cmd ctx →
    d = (getBed s ctx).desc → c = ccmdOf r.cmd o →
    ∀ checks, checks = (fun own : List (Bool × Nat) =>
        Passes (collChecks s f r.cmd o [] [unitCheck r.cmd o] ++ own ++ [planeCheck d c])) →
    ∀ t, t = after s (issueStep f r.cmd o ctx (beginStep ctx densePieces) (fresh s)) →
    (Issues s f 0x52 true r → checks (rankCheck d c) → exec (.reduce f) s = .next t)
    ∧ (Issues s f 0x53 true r → checks [] → exec (.allred f) s = .next t)
    ∧ (Issues s f 0x54 true r → checks [(c.len % (max 1 d.n * unitBytes c.fmt) != 0, 0x310)] → exec (.redscat f) s = .next t)
    ∧ (Issues s f 0x55 true r → checks [] → exec (.allgath f) s = .next t)
    ∧ (Issues s f 0x56 true r → checks (rankCheck d c) → exec (.bcast f) s = .next t)
    ∧ (Issues s f 0x57 true r → checks [(decide (c.p % 512 = 0 ∨ d.n ≤ c.p % 512), 0x311)] → exec (.shift f) s = .next t)
    ∧ (Issues s f 0x58 true r → checks (rankCheck d c) → exec (.permute f) s = .next t)

/-- A step is taken in order: on a plane that serves none of the bed's steps the command has nothing left to do; else the step joins the
bed's steps and begins, or ends at once with the code of an earlier abort (R185, R188, R216, R217). -/
def Obligations.StepsAreTakenInOrder : Prop :=
  ∀ (s : State) (f : Nat) (c : Cmd) (o : Opnd) (ctx : Nat) (k : CStep → State → State) (u : State),
    u = issueStep f c o ctx k (fresh s) →
    (idlePlane s (getBed s ctx).desc = true →
      u = partDone f (getFur s f).nextTid none false (stepTaken s f c o ctx))
    ∧ (idlePlane s (getBed s ctx).desc = false → ∀ v, v = modBed ctx (fun b => { b with steps := b.steps ++ [nextStepOf s f c o ctx] }) (stepTaken s f c o ctx) →
      (abortedAt (getBed s ctx).abort (getBed s ctx).nextStep = none → u = k (nextStepOf s f c o ctx) v)
      ∧ (∀ code outside, abortedAt (getBed s ctx).abort (getBed s ctx).nextStep = some (code, outside) →
          u = endStep ctx (getBed s ctx).nextStep (some code) outside v)
      ∧ getFur v f = (getFur s f).sending c 1 none
      ∧ (getBed v ctx).nextStep = ((getBed s ctx).nextStep + 1) % 2 ^ 32
      ∧ (getBed v ctx).nextChunk = ((getBed s ctx).nextChunk + (nextStepOf s f c o ctx).nc) % 2 ^ 32
      ∧ (getBed v ctx).steps = (getBed s ctx).steps ++ [nextStepOf s f c o ctx] ∧ (getBed v ctx).desc = (getBed s ctx).desc
      ∧ ∀ n, n ≠ ctx → getBed v n = getBed s n)

/-- BEDOPEN goes out and reads its descriptor, or fails with 0x210 where none is mapped; a descriptor that passes R185 opens the lowest
free context with it; BEDCLOSE on a bed with no command outstanding completes as it issues and leaves nothing of the bed (R185, R189). -/
def Obligations.BedsOpenAndClose : Prop :=
  (∀ (s : State) (f : Nat) (r : Ready), Issues s f 0x50 true r → FieldsHold s f r → bedBad s f r.cmd false = false →
    localOk (opnds s f r).a = true → (opnds s f r).a.toNat % 128 = 0 →
    ∃ v, exec (.bedopen f) s = .next (after s v) ∧ Sends s v f r.cmd 1 none
      ∧ v = (if mapped s (opnds s f r).a.toNat = true then startRead (getFur s f).plot [(opnds s f r).a.toNat] (.bedDesc f (getFur s f).nextTid)
              else fun u => partDone f (getFur s f).nextTid (some 0x210) false (noteOwn 0x210 (getFur s f).plot u)) (issueOut f r.cmd 1 none (fresh s)))
  ∧ (∀ (s : State) (f tid ctx : Nat) (i : Issued) (ls : List Line), (getFur s f).issued.find? (fun i => i.tid == tid) = some i →
    bedFault s (getFur s f).plot i.cmd.id (linesBytes ls) = 0 → freeCtx s = some ctx →
    getBed (bedRead f tid false ls s) ctx = openedBed s f (descOf (linesBytes ls))
    ∧ (∀ n, n ≠ ctx → getBed (bedRead f tid false ls s) n = getBed s n)
    ∧ (bedRead f tid false ls s).coll.lastGen.lookup ((getFur s f).plot, (descOf (linesBytes ls)).bed) = some (descOf (linesBytes ls)).gen)
  ∧ (∀ (s : State) (f : Nat) (r : Ready) (ctx : Nat), Issues s f 0x51 false r → FieldsHold s f r → BedOf s f r.cmd ctx →
    bedBad s f r.cmd true = false → bedBusy (getBed s ctx) = false →
    ∃ v, exec (.bedclose f) s = .next (after s v) ∧ getFur v f = (getFur s f).completing r.cmd ∧ (∀ n, n ≠ f → getFur v n = getFur s n)
      ∧ getBed v ctx = {} ∧ (∀ n, n ≠ ctx → getBed v n = getBed s n)
      ∧ (∀ e ∈ v.coll.dslots, e.2.ctx ≠ ctx) ∧ (∀ e ∈ v.coll.landings, e.2.ctx ≠ ctx) ∧ (∀ e ∈ v.coll.disp, e.ctx ≠ ctx))

/-- The sparse commands, SCAN, DISPATCH and COMBINE that pass their checks take their bed's next step and begin its work (R252, R262, R265,
R268, R280); a COMBINE whose DISPATCH has not yet read its descriptor stays at issue. -/
def Obligations.SparseAndExpertCommandsTakeTheirStep : Prop :=
  ∀ (s : State) (f plot : Nat) (r : Ready) (o : Opnd) (ctx : Nat) (d : Desc) (c : CCmd), o = opnds s f r → BedOf s f r.cmd ctx →
    d = (getBed s ctx).desc → c = ccmdOf r.cmd o → plot = (getFur s f).plot →
    ∀ t, t = (fun k => after s (issueStep f r.cmd o ctx k (fresh s))) →
    (Issues s f 0x59 true r → Passes (collChecks s f r.cmd o [] [(decide (4224 < o.len), 0x111), unitCheck r.cmd o]
        ++ [planeCheck d c, unitGone s r.cmd, (isMx r.cmd.d && !c.p.testBit 0 && (r.cmd.osel == 2 || r.cmd.osel == 3), 0x106)]) →
      exec (.scan f) s = .next (t (beginStep ctx scanPiece)))
    ∧ (Issues s f 0x60 true r → Passes (collChecks s f r.cmd o [] [(decide (o.len < 256), 0x111), (o.len % 128 != 0, 0x122)]
        ++ [planeCheck d c] ++ [] ++ [unitGone s r.cmd]) → exec (.sreduce f) s = .next (t (listWork plot ctx)))
    ∧ (Issues s f 0x61 true r → Passes (collChecks s f r.cmd o [] [(decide (o.len < 256), 0x111), (o.len % 128 != 0, 0x122)]
        ++ [planeCheck d c] ++ [(decide (c.p % 8192 = 0 ∨ 4096 < c.p % 8192), 0x3A3)] ++ [unitGone s r.cmd]) →
      exec (.topk f) s = .next (t (listWork plot ctx)))
    ∧ (Issues s f 0x62 true r → Passes (collChecks s f r.cmd o
          [(!idlePlane s d && (findDisp s ctx).isSome, 0x3B4), (!idlePlane s d && decide (dispMax s ≤ s.coll.disp.length), 0x3B6)]
          [(o.len % 8 != 0, 0x122)] ++ [planeCheck d c, unitGone s r.cmd]) → exec (.dispatch f) s = .next (t (dispWork plot ctx)))
    ∧ (∀ x, x = findDisp s ctx → ∀ m, m = (x.map (fun y => y.moe)).getD {} → Issues s f 0x63 true r →
      ((e64 s = false ∨ m.experts ≠ 0) → Passes (collChecks s f r.cmd o [(!idlePlane s d && x.isNone, 0x3B4)]
          [(o.len % unitBytes (outFmt r.cmd.d r.cmd.osel) != 0, 0x122)]
          ++ [planeCheck d c, (e64 s && combBad m ((x.map (fun y => y.tokens)).getD 0) c, 0x3B2), unitGone s r.cmd]) →
        exec (.combine f) s = .next (t (combWork ctx m)))
      ∧ (e64 s = true → bedBad s f r.cmd true = false → x.isSome = true → m.experts = 0 →
        exec (.combine f) s = .next (after s (fresh s))))

/-- DREDUCE and DBARRIER that pass their checks take their bed's next Dibber step: it joins the bed's Dibber steps, or, on a plane that
is not the bed's Dibber plane, is over at once; DUMP reserves the entry's place in the dump area, or is lost and counted when it does not
fit (R289-R291, R484, R485). -/
def Obligations.DibberCommandsAndDumpGoOut : Prop :=
  (∀ (s : State) (f : Nat) (r : Ready) (o : Opnd) (ctx : Nat) (d : Desc) (c : CCmd), o = opnds s f r → BedOf s f r.cmd ctx →
    d = (getBed s ctx).desc → c = ccmdOf r.cmd o →
    (Issues s f 0x70 true r → Passes [regCheck s r.cmd o, (bedBad s f r.cmd true, 0x131), (!localOk o.a, 0x123),
        (e64 s && !(dibAligned c o.a.toNat c.len && dibAligned c (o.b.toNat % 2 ^ 47) (dibOut c)), 0x121),
        lenCheck o, (decide (64 < c.len ∨ 64 < dibOut c), 0x111), (c.len % max 1 (fmtBits c.fmt / 8) != 0, 0x122),
        (!d.oneBoard && d.planeList.isEmpty, 0x315)] →
      exec (.dreduce f) s = .next (after s (issueDib f r.cmd o ctx (fresh s))))
    ∧ (Issues s f 0x71 true r → Passes [regCheck s r.cmd o, (bedBad s f r.cmd true, 0x131), (!d.oneBoard && d.planeList.isEmpty, 0x315)] →
      exec (.dbarrier f) s = .next (after s (issueDib f r.cmd { o with len := 0 } ctx (fresh s)))))
  ∧ (∀ (s : State) (f : Nat) (c : Cmd) (o : Opnd) (ctx : Nat) (b : Bed), b = getBed s ctx →
    ∀ v, v = modBed ctx (fun b => { b with nextDib := (b.nextDib + 1) % 2 ^ 32 }) (issueOut f c 1 none (fresh s)) →
    (e64 s = false → b.desc.oneBoard = true ∨ dibPlane b.desc ≠ selfNode s →
      issueDib f c o ctx (fresh s) = partDone f (getFur s f).nextTid none false v)
    ∧ (e64 s = true → c.op = 0x71 → abortedAt b.dabort b.nextDib = none →
      issueDib f c o ctx (fresh s) = modBed ctx (fun b => { b with dsteps := b.dsteps ++ [barrierStep s f c o ctx] }) v))
  ∧ (∀ (s : State) (f : Nat) (r : Ready) (o : Opnd), o = opnds s f r → Issues s f 0x7F true r → FieldsHold s f r → localOk o.a = true →
    o.a.toNat % 128 = 0 → 128 ≤ o.len → o.len ≤ 16777216 → o.len % 128 = 0 →
    ∃ v, exec (.dump f) s = .next (after s v)
      ∧ (dumpPlace s o.len = none → v.obs.dumpLost = satInc 0xFFFFFFFF s.obs.dumpLost ∧ v.obs.dumpPend = s.obs.dumpPend
          ∧ getFur v f = (getFur s f).sending r.cmd 0 none)
      ∧ (∀ pad start next e, dumpPlace s o.len = some (pad, start, next) → e = dumpEntry s f r.cmd o pad start next →
          ∀ w, w = dumpReserve e (issueOut f r.cmd 1 none (fresh s)) → v = dumpFetch e w
          ∧ w.obs.dumpRes = next ∧ w.obs.dumpNext = s.obs.dumpNext + 1 ∧ w.obs.dumpPend = s.obs.dumpPend ++ [e]
          ∧ (getFur v f).bare = ((getFur s f).sending r.cmd 1 none).bare))

/-- A furrow outside a LOOP with no command at issue takes the next one: a prefetched one, or the 32 bytes at its ring slot in buffer
SRAM, which the fetch consumes. A sound command whose predicate holds stands at issue; one whose predicate fails retires at issue with
no effect; one that fails its CRC faults the furrow with 0x104; with nothing to fetch the furrow waits (R56, R61, R74, R81). -/
def Obligations.FetchBringsTheNextCommand : Prop :=
  ∀ (s : State) (f : Nat) (u : Upset) (g : Furrow), g = getFur s f → mayFetch s f = true → g.skip = 0 → g.loop = {} → g.cur = none →
    (∀ x r, g.prefetch = x :: r →
      (Sound s f x → PredHolds g (decodeCmd x.raw) →
        exec (.commandFetch f u) s = .next (after s (modFur f (fun h => { h.taking x with prefetch := r }) (fresh s))))
      ∧ (Sound s f x → ¬ PredHolds g (decodeCmd x.raw) → notifyBlocked g = false →
        ∃ v, exec (.commandFetch f u) s = .next (after s v) ∧ (∀ n, n ≠ f → getFur v n = getFur s n)
          ∧ getFur v f = { g with prefetch := r, issued := g.issued ++ [{ tid := g.nextTid, cmd := decodeCmd x.raw, outst := false, done := true, skipped := true }], nextTid := g.nextTid + 1, state := .running, wait := .none, waitSince := none, stepTid := if g.stepping then some g.nextTid else none })
      ∧ (x.bad = 0 → cmdCrc x.raw ≠ (decodeCmd x.raw).crc → g.issued = [] → g.forced = none →
        ∃ v, exec (.commandFetch f u) s = .next (after s v) ∧ (getFur v f).state = .faulted ∧ (getFur v f).faultCode = 0x104))
    ∧ (∀ a x, g.prefetch = [] → g.pc.inImage = false → g.fetching = none → g.avail ≠ 0 → g.ringSram = true → u ≠ .sram →
      a = g.ringBase + 32 * (g.cons.toNat % g.ringSize) → a + 32 ≤ sramSize s →
      x = { raw := rawCmd ((s.sram).readBytes a 32), place := { idx := g.cons.toNat % g.ringSize } } →
      Sound s f x → PredHolds g (decodeCmd x.raw) →
      exec (.commandFetch f u) s = .next (after s (modFur f (fun h => { h.taking x with cons := h.cons + 1 }) (fresh s))))
    ∧ (g.prefetch = [] → g.pc.inImage = false → g.fetching = none → g.avail = 0 →
      exec (.commandFetch f u) s = .next (after s (waitOn f .ringEmpty (fresh s))))

/-- An outstanding command whose parts are over completes; with an error it makes the furrow fail, and Faulted once nothing else is
outstanding. The oldest complete command retires: FUR_SEQ counts it, and a command with N set pushes its notify entry; a HALT leaves the
furrow Halted (R76, R77, R79, R87). -/
def Obligations.CommandsCompleteAndRetireInOrder : Prop :=
  ∀ (s : State) (f : Nat) (g : Furrow), g = getFur s f → s.flt.safe = false → g.resetting = none → f < furrowCount s →
    (∀ k i, g.issued.find? (fun i => i.tid == k) = some i → i.done = false → i.left = 0 → g.failing = false → g.stepping = false →
      (i.err = none → ∃ t, exec (.commandComplete f k) s = .next t ∧ OnlyFurrow s t f
        ∧ getFur t f = { g with issued := g.issued.map (fun j => if j.tid = k then { j with done := true } else j) })
      ∧ (∀ code, i.err = some code → (∃ j ∈ g.issued, j.tid ≠ k ∧ j.done = false) →
        ∃ t, exec (.commandComplete f k) s = .next t ∧ OnlyFurrow s t f ∧ getFur t f = { g with issued := g.issued.map (fun j => if j.tid = k then { j with done := true } else j), failing := true })
      ∧ (∀ code, i.err = some code → g.issued = [i] → g.forced = none →
        ∃ t, exec (.commandComplete f k) s = .next t ∧ FaultsAtIssue s t f i.cmd code))
    ∧ (∀ h r, g.issued = h :: r → h.done = true → h.err = none → g.state ≠ .faulted → g.state ≠ .idle → notifyBlocked g = false →
        g.failing = false → g.forced = none → g.wait ≠ .notifyFull → g.stepping = false →
      ∃ t k, exec (.commandRetire f) s = .next t ∧ (∀ n, n ≠ f → getFur t n = getFur s n)
        ∧ t = { s with wlog := [], obs := t.obs, flt := { s.flt with inflight := t.flt.inflight }, fur := t.fur }
        ∧ k = { g with seq := g.seq + 1, issued := r, notify := if h.cmd.fN = true then g.notify ++ [pk [(0, (g.seq + 1).toNat % 2 ^ 24), (24, h.skipped.toNat), (31, 1)]] else g.notify }
        ∧ (h.cmd.op ≠ 0x06 ∨ h.skipped = true → getFur t f = k)
        ∧ (h.cmd.op = 0x06 → h.skipped = false → getFur t f = { k with state := .halted, haltedEvt := true, halting := false, wait := .none, waitSince := none, stepTid := none }))

/-- A TWAIT at issue that has waited for its limit while its tally has not reached its target faults its furrow with 0x160. A furrow
under reset whose engines hold nothing of it enters Idle, and its own entries' causes clear (R43, R80, R97, R412). -/
def Obligations.WaitsAndResetsOfFurrowsEnd : Prop :=
  (∀ (s : State) (f t0 : Nat) (r : Ready) (g : Furrow), g = getFur s f → atIssue s f 0x40 = some r → g.state = .waiting → g.wait = .twait →
    g.waitSince = some t0 → t0 + g.twLimit * 1000 ≤ s.clk → tallyReached (getTally s g.plot r.cmd.id) (opnds s f r).a = false → g.issued = [] →
    g.forced = none → ∃ t, exec (.twaitLimitExpiry f) s = .next t ∧ FaultsAtIssue s t f r.cmd 0x160)
  ∧ (∀ (s : State) (f : Nat), (getFur s f).resetting.isSome = true → furReleased s f = true →
    ∃ t, exec (.furrowIdle f) s = .next t ∧ getFur t f = (getFur s f).toIdle ∧ (getFur t f).state = .idle ∧ (getFur t f).resetting = none
      ∧ (∀ n, n ≠ f → getFur t n = getFur s n)
      ∧ t = { s with wlog := [], obs := t.obs, fur := t.fur, flt := { s.flt with entries := t.flt.entries, fullNoted := t.flt.fullNoted, engResets := t.flt.engResets } }
      ∧ (∀ e ∈ t.flt.engResets, ¬ (e.kind = .furrow ∧ e.unit = f))
      ∧ (∀ e ∈ t.flt.entries, e.2.furrow = some f → e.2.level = .l1 → e.2.cleared = true))

/-- A write of FUR_CTL keeps its RW fields and does the first action that it sets, in the order reset, stop, resume, step, start: a
start of an Idle or Halted furrow that no check refuses runs it, a stop stops a running one, a resume runs a stopped one or one whose
fault is acknowledged, a step runs a stopped one for one command, a reset abandons what it issued. An action that does not apply sets
ctl_ignored (R45, R49, R50, R54, R80, R109, R430). -/
def Obligations.FurCtlStartsStopsAndResets : Prop :=
  ∀ (s v : State) (sv n : Nat) (w : Word) (g : Furrow), g = getFur s n → Writable s sv (furAddr n 0) →
    v = modFur n (fun g => { g with ctl := w &&& 0x7F00 }) (fresh s) →
    ∀ ans, ans = (fun u => Host.Outcome.next (after s (cpAnswer sv 0 0 u))) →
    (bitAt w 0 = true → bitAt w 1 = false → bitAt w 2 = false → bitAt w 3 = false → bitAt w 4 = false →
      (g.resetting = none → g.state = .idle ∨ g.state = .halted → startFault v n = 0 →
        exec (.furCtlStart sv n w) s = ans (modFur n (fun g => { g with state := .running, cause := .none }) (wakeDom (furDom s n) v)))
      ∧ (g.resetting.isSome = true ∨ (g.state ≠ .idle ∧ g.state ≠ .halted) →
        exec (.furCtlStart sv n w) s = ans (modFur n (fun g => { g with ctlIgnored := true }) v)))
    ∧ (bitAt w 1 = true → bitAt w 4 = false → g.resetting = none → g.active = true → g.failing = false →
      exec (.furCtlStop sv n w) s = ans (modFur n (fun g => { g with state := .stopped, cause := .stopRequest, stopEvt := true, wait := .none, waitSince := none, stepping := false, stepTid := none }) v))
    ∧ (bitAt w 2 = true → bitAt w 4 = false → bitAt w 1 = false → g.resetting = none →
      (g.state = .stopped →
        exec (.furCtlResume sv n w) s = ans (modFur n (fun g => { g with state := .running, cause := .none }) v))
      ∧ (g.state = .faulted → g.faultCode = 0 → exec (.furCtlResume sv n w) s = ans (clearFurCause n
          (modFur n (fun h => { h with state := .running, cause := .none, seq := g.seq + BitVec.ofNat 32 (1 + g.abandoned), abandoned := 0 }) v))))
    ∧ (bitAt w 3 = true → bitAt w 4 = false → bitAt w 1 = false → bitAt w 2 = false → g.resetting = none → g.state = .stopped →
      exec (.furCtlStep sv n w) s = ans (modFur n (fun g => { g with state := .running, cause := .none, stepping := true, stepTid := none }) v))
    ∧ (bitAt w 4 = true → g.resetting = none → g.state ≠ .idle →
      ∃ u, exec (.furCtlReset sv n w) s = ans u ∧ (getFur u n).issued = [] ∧ (getFur u n).cur = none ∧ (getFur u n).prefetch = []
        ∧ (getFur u n).fetching = none ∧ (getFur u n).loop = {} ∧ (getFur u n).resetting.isSome = true
        ∧ (∃ e ∈ u.flt.engResets, e.kind = .furrow ∧ e.unit = n ∧ e.since = u.clk))

/-- A doorbell that keeps its window rule sets FUR_PROD; on an Idle or Faulted furrow one that breaks it notes 0x170 and changes
nothing. A read of FUR_NOTIFY answers the head of the FIFO and pops it, or answers 0 (R53, R57).
An image that waits for its slot replaces it once no furrow's place or call stack is in the slot, and a mailbox that waited with it has
no request taken any more (R66). -/
def Obligations.DoorbellsNotifiesAndImages : Prop :=
  ((∀ (s : State) (sv n : Nat) (w : Word) (g : Furrow), g = getFur s n → Writable s sv (furAddr n 0x18) →
    ((w - g.cons).toNat ≤ g.ringSize → (w - g.prod).toNat ≤ g.ringSize →
      exec (.furDoorbell sv n w) s = .next (ended s (cpAnswer sv 0 0 (modFur n (fun g => { g with prod := w }) (fresh s)))))
    ∧ (g.ringSize < (w - g.cons).toNat ∨ g.ringSize < (w - g.prod).toNat → g.state = .idle ∨ g.state = .faulted →
      exec (.furDoorbell sv n w) s = .next (ended s (cpAnswer sv 0 0 (note 0x170 (some g.plot) .furrow n (fresh s))))))
  ∧ (∀ (s : State) (sv n : Nat), Readable s sv (furAddr n 0x34) →
    ((getFur s n).notify = [] → exec (.furNotify sv n) s = .next (ended s (cpAnswer sv 0 0 (fresh s))))
    ∧ (∀ w r, (getFur s n).notify = w :: r →
      exec (.furNotify sv n) s = .next (ended s (cpAnswer sv 0 w (modFur n (fun g => { g with notify := r }) (fresh s)))))))
  ∧ (∀ (s : State) (slot : Nat) (x : Image), s.img.waiting.find slot = some x → slotInUse s slot = false →
    ∃ t, exec (.imageReplacement slot) s = .next t
      ∧ t = { s with wlog := [], obs := t.obs, mbx := t.mbx, img := { s.img with slots := s.img.slots.set slot x, waiting := s.img.waiting.del slot } }
      ∧ (∀ i h, i < 4 → (getMbx s i).taken = some (.image slot h) → (getMbx t i).taken = none
          ∧ ((getMbx s i).rspGo = false → (getMbx t i).rspGo = true ∧ (getMbx t i).rsp = rspWords (mbxReply [h] 0 [])))
      ∧ (∀ i, (∀ h, (getMbx s i).taken ≠ some (.image slot h)) → getMbx t i = getMbx s i))

/-- A packet whose crc fails is counted and noted with 0x540; one whose plot checks fail is counted, noted with the first check's code and
kept as the link's last drop; either is discarded, and leaves nothing but its credits (R325, R368, R375). -/
def Obligations.ArrivalsThatFailChecksAreDropped : Prop :=
  ∀ (s : State) (l : Nat) (p : Packet) (u : Upset) (c : Instr) (kind : Nat), (c, kind) ∈ arrivals l p u → Delivers s l p kind →
    (kind < 0x20 → lineBusy s p = false ∧ (kind = 0x16 → atomsFull s = false)) →
    (Packet.crcOk p = false → exec c s = .next (after s (note 0x540 none .port (linkPort s l) (modLink l (fun k => { k with pktCrc := k.pktCrc + 1, crcWrap := k.crcWrap || k.pktCrc == 0xFFFFFFFF }) (taken s l p)))))
    ∧ (∀ code n, Packet.crcOk p = true → plotChecks s l p = (code, n) → code ≠ 0 →
      exec c s = .next (after s (note code (if code = 0x601 then none else some n) .port (linkPort s l) (modLink l (fun k => { k with plotDrop := k.plotDrop + 1, dropWrap := k.dropWrap || k.plotDrop == 0xFFFFFFFF, lastDrop := code }) (taken s l p)))))

/-- A request that arrives and is new to its channel is performed by a job of its own; one that its home refuses draws an error reply; one
that the channel has seen is not performed again; under L3 every request draws 0xF30 (R118, R136, R158, R166, R421, R436-R438, R566). -/
def Obligations.HomeRequestsArePerformedOnce : Prop :=
  ∀ (s : State) (l : Nat) (p : Packet) (c : Instr) (kind plot : Nat), (c, kind) ∈ homeRows l p → Arrives s l p kind plot →
    lineBusy s p = false → (kind = 0x16 → atomsFull s = false) →
    (s.flt.l3 = false → ∀ h v, Fresh s p h → v = { taken s l p with home := h } →
      (homeChecks s plot p = 0 → bedGone s plot p = false →
        exec c s = .next (after s (startJob { pkt := p, link := l, plot := plot, board := isBoard s l p } v)))
      ∧ (∀ code, homeChecks s plot p = code → code ≠ 0 → exec c s = .next (after s (refuse p plot (kind == 0x11) code v)))
      ∧ (homeChecks s plot p = 0 → bedGone s plot p = true →
        exec c s = .next (after s (collStale plot (p.ar 32 2) (undo p false v)))))
    ∧ (s.flt.l3 = false → p.row = false → (∀ w, winCheck (s.home.win.at p.src) p.seq ≠ (true, w)) →
        exec c s = .next (after s (duplicate l p plot (taken s l p))))
    ∧ (s.flt.l3 = true →
        exec c s = .next (after s (queueReply (replyTo s p 0x25 (areaOf [(16, 2, 0xF30)]) []) (kind == 0x11) (taken s l p))))

/-- A copy request that is new to its channel becomes a job, or draws copy busy while 64 wait (R165, R170). -/
def Obligations.CopyRequestsQueueOrAreBusy : Prop :=
  ∀ (s : State) (l : Nat) (p : Packet) (plot : Nat) (h : Home) (v : State), Arrives s l p 0x15 plot → lineBusy s p = false →
    s.flt.l3 = false → Fresh s p h → v = { taken s l p with home := h } → homeChecks s plot p = 0 →
    (64 ≤ copyDepth s → exec (.copyRequest l p) s = .next (after s (queueReply (replyTo s p 0x24 0 []) false
      (undo p true { v with xfer := { s.xfer with busyCnt := s.xfer.busyCnt + 1, busyWrap := s.xfer.busyWrap || s.xfer.busyCnt == 0xFFFFFFFF } }))))
    ∧ (copyDepth s < 64 → p.ar 32 8 / 2 ^ 47 % 512 ≠ selfNode s ∨ tallyOk s plot (p.ar 24 2) true = true →
      exec (.copyRequest l p) s = .next (after s (startJob { pkt := p, link := l, plot := plot } v)))

/-- A job joins its home with the next number and, when it may begin, its accesses begin; a home's read that has its lines answers with
them and its request's number, a home's write that is whole counts its lines and is acknowledged, and an access that fails draws 0x211
(R118, R158, R162, R174, R181, R434, R437). -/
def Obligations.JobsAnswerTheirRequests : Prop :=
  (∀ (j : Job) (s : State), j.held = false →
    (mayBegin s s.home.nextId j = true → startJob j s = beginJob s.home.nextId j (pushJob j s))
    ∧ (mayBegin s s.home.nextId j = false → startJob j s = pushJob { j with held := true } s))
  ∧ (∀ (s : State) (id : Nat) (j : Job) (ls : List Line), s.home.jobs.lookup id = some j → j.bw = none → j.pkt.row = false →
    ∀ v, v = dropJob id s →
    homeRead id true ls s = refuse j.pkt j.plot (j.board && j.pkt.hint != 0) 0x211 v
    ∧ (j.pkt.kind = 0x14 → ∃ a, homeRead id false ls s = queueReply (replyTo s j.pkt 0x21 a []) false v
        ∧ fld a 128 64 = leNat (((linesBytes ls).drop (reqAddr j.pkt % 128)).take 8))
    ∧ (j.pkt.kind ≠ 0x14 → ∃ a, homeRead id false ls s = queueReply (replyTo s j.pkt 0x20 a (flitsOfLines ls)) (j.board && j.pkt.hint != 0)
        { v with free := s.free + 1 }))
  ∧ (∀ (s : State) (id : Nat) (j : Job), s.home.jobs.lookup id = some j → j.bw = none → j.pkt.row = false → j.segs = 0 →
    ofDispatch j.pkt = false →
    homeWritten id true s = refuse j.pkt j.plot j.board 0x211 (dropJob id s)
    ∧ homeWritten id false s = ackReq j.pkt j.board (countJob j (dropJob id s)))

/-- An answer that arrives for an outstanding request acts on that request alone: read data is written to its lines, a short reply gives
its register the value, an acknowledgement ends every request that it names, copy done ends its request, copy busy rests it until 1 us
has passed, and an error reply ends it with the home's code (R93, R96, R151, R162, R163, R165, R169, R180). -/
def Obligations.AnswersActOnTheirRequests : Prop :=
  ∀ (s : State) (l : Nat) (p : Packet) (plot id : Nat) (r : Rq) (v : State), v = takeHint p (taken s l p) →
    (Arrives s l p 0x22 plot →
      exec (.acknowledgement l p) s = .next (after s ((ackSeqs p).foldl (fun s q => ackOne p q s) v)))
    ∧ (matchRq s p p.seq = some (id, r) →
      (∀ g run, Arrives s l p 0x20 plot → r.dead = false → r.who = .seg g run →
        exec (.readData l p) s = .next (after s (startWrite r.plot none
          ((lineWrs r.dstAddr ((List.range (p.flits / 2)).map p.line)).map (fun w => { w with bytes := 0 })) (.getDst id)
          (modRq id (fun x => { x with landing := true }) (fillAnswer r ((List.range (p.flits / 2)).map p.line) v)))))
      ∧ (∀ f tid g, Arrives s l p 0x21 plot → r.dead = false → r.who = .loadg f tid g →
        exec (.shortReply l p) s = .next (after s (endRq id r none false (modFur f (fun x => x.setReg g (BitVec.ofNat 64 (p.ar 32 8))) v))))
      ∧ (Arrives s l p 0x23 plot → exec (.copyDone l p) s = .next (after s (endRq id r none false v)))
      ∧ (Arrives s l p 0x24 plot → r.dead = false →
        exec (.copyBusy l p) s = .next (after s (modRq id (fun x => { x with busy := true, at1 := s.clk }) v)))
      ∧ (Arrives s l p 0x25 plot → exec (.errorReply l p) s = .next (after s (endRq id r (some (p.ar 16 2 % 4096)) true v))))

/-- A request that ends leaves the books, and its owner hears of it: a command's one part is over, in error with the code (R163, R180). -/
def Obligations.EndedRequestsEndTheirCommands : Prop :=
  ∀ (s : State) (id f tid g : Nat) (r : Rq) (err : Option Nat) (conseq : Bool), r.dead = false → r.who = .loadg f tid g →
    (∀ i ∈ (getFur s f).issued, i.tid = tid → i.err = none ∧ i.left = 1) →
    getRq (endRq id r err conseq s) id = none
    ∧ (∀ i ∈ (getFur (endRq id r err conseq s) f).issued, i.tid = tid → i.left = 0 ∧ i.err = err)
    ∧ (∀ n, n ≠ f → getFur (endRq id r err conseq s) n = getFur s n)

/-- A queued packet whose path has its credits, room and turn leaves on that path's link and a request then waits for its answer; a request
that no path takes ends with 0x610. A request whose end-to-end timer has run out is sent again under its number, or ends with 0x220 after
its replays; one that was answered busy goes out again after 1 us; held acknowledgements go out after 100 ns (R161, R162, R164, R165, R234,
R331, R349, R355). -/
def Obligations.QueuedPacketsLeaveAndAreResent : Prop :=
  (∀ (s : State) (id : Nat) (r : Rq), getRq s id = some r → r.sent = false → r.busy = false → mayStart s r = true → collTwin s id r = false →
    (∀ l p cur, pathOf s r = some (l, p, cur) → windowOk s r = true → roomFor s r = true → maySendPkt s l p = true → mayEnter s l p = true →
      outranked s id l p = false → ∀ w, w = freshRound l p (fresh s) →
      exec (.packetSend id) s = .next (after s (afterSend id l r (sendPkt l p { w with trl := { w.trl with cur := cur } }))))
    ∧ (pathOf s r = none → r.pkt.vn = 0 → (∃ f tid g, r.who = .loadg f tid g) →
      exec (.packetSend id) s = .next (after s (endRq id r (some 0x610) false (fresh s)))))
  ∧ (∀ (s : State) (id : Nat) (r : Rq), getRq s id = some r → r.sent = true → r.isReq = true → r.landing = false → r.busy = false →
    r.pkt.vn ≠ 6 → r.at1 + fld s.xfer.cfg 0 24 * 1000 ≤ s.clk → r.dead = false → (getPlot s r.plot).state ≠ .draining →
    (r.replays < fld s.xfer.cfg 24 4 → r.pkt.row = false →
      exec (.e2eTimerExpiry id) s = .next (after s (requeue id (modRq id (fun x => { x with replays := x.replays + 1 }) (fresh s)))))
    ∧ (fld s.xfer.cfg 24 4 ≤ r.replays → r.pkt.vn = 0 →
      exec (.e2eTimerExpiry id) s = .next (after s (endRq id r (some 0x220) false (fresh s)))))
  ∧ (∀ (s : State) (id : Nat) (r : Rq), getRq s id = some r → r.busy = true → r.at1 + 1000 ≤ s.clk →
    (r.deep = false → r.pkt.row = false → exec (.copyBusyResend id) s = .next (after s (requeue id (fresh s))))
    ∧ (r.deep = true → r.pkt.dst ≠ selfNode s → exec (.deepBusyResend id) s = .next (after s
        (modRq id (fun x => { x with sent := false, busy := false, deep := false, again := true }) (fresh s)))))
  ∧ (∀ (s : State) (node : Nat) (h : HeldAck) (t : List HeldAck), s.home.acks.at node = h :: t → h.since + 100 ≤ s.clk →
    ∃ v q, exec (.ackCoalesceExpiry node) s = .next (after s v) ∧ v.home.acks.at node = []
      ∧ v.xfer.rqs = s.xfer.rqs ++ [(s.xfer.nextId, q)] ∧ q.pkt.kind = 0x22 ∧ q.pkt.vn = 1 ∧ q.pkt.dst = node ∧ q.pkt.seq = h.seq)

/-- A packet of a bed that arrives is taken by its kind's rule at the open bed of its id and generation; without such a bed it is
discarded and counted as stale, and under L3 it is discarded (R189, R323, R421). -/
def Obligations.CollectivePacketsGoToTheirBed : Prop :=
  ∀ (s v : State) (l : Nat) (p : Packet) (u w : Upset) (c : Instr) (kind plot : Nat), (c, kind, w) ∈ collRows l p u →
    Arrives s l p kind plot → v = taken s l p →
    (s.flt.l3 = false → exec c s = .next (after s (takeColl plot p w v)))
    ∧ (s.flt.l3 = true → exec c s = .next (after s v))
    ∧ (s.flt.l3 = false → (∀ ctx, ¬ AtBed s plot p ctx) → exec c s = .next (after s (collStale plot p.bedId v)))

/-- At its bed a grant raises the horizon of its server and never lowers it; a step-ready flit is kept once for its step and rank and
compared with the others; a refusal abandons the step with its code, a step-abort notice ends the member's steps from it on; result
lines land once at their offset; a rank's candidate list is kept once; a collective acknowledgement ends its packet, or rests it while the
far end is busy (R195, R197, R200, R206, R216, R234, R255, R263, R442). -/
def Obligations.MembersAndServersHearEachOther : Prop :=
  ∀ (s v : State) (l : Nat) (p : Packet) (plot ctx : Nat) (b : Bed), v = taken s l p → b = getBed s ctx → s.flt.l3 = false →
    (AtBed s plot p ctx →
      (Arrives s l p 0x31 plot → p.vn ≠ 5 → p.lastFlag = false → (p.ar 19 1).testBit 6 = false →
        (atOrBefore (b.horizon.getD p.src 0) p.chunkNo = true →
          exec (.grant l p) s = .next (after s (modBed ctx (fun b => { b with horizon := b.horizon.set p.src p.chunkNo }) v)))
        ∧ (atOrBefore (b.horizon.getD p.src 0) p.chunkNo = false →
          exec (.grant l p) s = .next (after s (modBed ctx (fun b => b) v))))
      ∧ (Arrives s l p 0x30 plot →
        ((b.ready.lookup (p.stepNo, p.rank)).isSome = true → exec (.stepReady l p) s = .next (after s v))
        ∧ (b.ready.lookup (p.stepNo, p.rank) = none → abortedAt b.abort p.stepNo = none →
          exec (.stepReady l p) s = .next (after s (releaseWaiting ctx p.stepNo p.rank (checkReady ctx p.stepNo
                (modBed ctx (fun b => { b with ready := b.ready ++ [((p.stepNo, p.rank), readyInfo p)] }) v))))))
      ∧ (Arrives s l p 0x3B plot → exec (.refusal l p) s = .next (after s (abandonStep ctx p.stepNo (p.ar 32 2 % 4096) false v)))
      ∧ (Arrives s l p 0x26 plot →
        exec (.stepAbortNotice l p) s = .next (after s (if p.lastFlag then takeDNotice ctx p.stepNo (p.ar 32 2 % 4096) v
          else takeNotice ctx p.stepNo (p.ar 32 2 % 4096) v)))
      ∧ (∀ st, Arrives s l p 0x34 plot → findStep b p.stepNo = some st → st.stopped = false →
        st.seen.contains (p.src, p.chunkNo, p.stripe, p.ar 32 8) = false →
        exec (.result l p) s = .next (after s (land { ctx := ctx, step := st.num, bytes := p.bytes.length, ack := some p, sect := sectOf st.cmd p.stripe p.lastFlag p.bytes } (st.b + p.ar 32 8) p.bytes
          (modStep ctx st.num (fun x => { x with seen := (p.src, p.chunkNo, p.stripe, p.ar 32 8) :: x.seen }) v))))
      ∧ (∀ st, Arrives s l p 0x3C plot → findStep b p.stepNo = some st → st.live = true → (st.cands.at p.stripe).1.find p.pidx = none →
        exec (.candidateList l p) s = .next (after s (topkDone ctx st.num (collAck p false (modStep ctx st.num (fun y => { y with cands := y.cands.set p.stripe ((st.cands.at p.stripe).1.set p.pidx p.bytes, if p.lastFlag then some p.pidx else (st.cands.at p.stripe).2) }) v))))))
    ∧ (∀ id r, Arrives s l p 0x27 plot → matchColl s p = some (id, r) → r.busy = false → r.dead = false →
      ((p.ar 32 1).testBit 0 = true →
        exec (.collectiveAcknowledgement l p) s = .next (after s (modRq id (fun x => { x with busy := true, deep := true, at1 := s.clk }) v)))
      ∧ ((p.ar 32 1).testBit 0 = false → exec (.collectiveAcknowledgement l p) s = .next (after s (dropRq id v))))

/-- At its slot a contribution of a moving command is staged and acknowledged by its receipt, and one that finds a word of its slot uncorrectable abandons the step; a rank's tag counts are staged and acknowledged; a packet that the slot has seen is
counted and acknowledged again (R198, R199, R246, R267, R272, R442). -/
def Obligations.SlotsTakePacketsOnce : Prop :=
  ∀ (s v : State) (l : Nat) (p : Packet) (u : Upset) (plot ctx id : Nat) (st : CStep) (x : Slot), v = taken s l p → s.flt.l3 = false →
    (AtSlot s plot p ctx st id x →
      (∀ y, Arrives s l p 0x32 plot → cellSpan v (getBed s ctx) st (selfNode v) (seqDist st.c0 x.chunk) p.stripe p.rank p.pidx = some y →
        u ≠ .sram → isMove st.cmd.op = true → isDense st.cmd.op = true → st.cmd.op ≠ 0x59 →
        exec (.contribution l p u) s = .next (after s (receipt id p (modSlot id (fun z => { z with staged := ((p.rank, p.stripe, p.pidx), p.bytes.take y.2.len) :: z.staged }) v))))
      ∧ (Arrives s l p 0x32 plot → exec (.contribution l p .sram) s = .next (after s (slotUpset ctx st.num x.bank v)))
      ∧ (Arrives s l p 0x36 plot → st.cmd.op = 0x62 →
        exec (.tagCount l p) s = .next (after s (collAck p false (modSlot id (fun _ => tagSlot ctx st p x v) v)))
          ∧ (tagSlot ctx st p x v).staged = ((p.rank, 0, p.pidx), p.bytes.take (2 * (expertsOf (getBed s ctx).desc st.moe (selfNode v)).length - 1024 * p.pidx)) :: x.staged
          ∧ (tagSlot ctx st p x v).got = (p.rank, p.stripe, p.pidx) :: x.got))
    ∧ (∀ c, (c = .contribution l p u ∧ Arrives s l p 0x32 plot) ∨ (c = .tagCount l p ∧ Arrives s l p 0x36 plot)
        ∨ (c = .combineContribution l p u ∧ Arrives s l p 0x3A plot) →
      AtBed s plot p ctx → abortedAt (getBed s ctx).abort p.stepNo = none → findStep (getBed s ctx) p.stepNo = some st →
      slotOf s ctx st p = some (id, x) → x.got.contains (p.rank, p.stripe, p.pidx) = true →
      exec c s = .next (after s (collAck p false (modBed ctx (fun b => { b with dup := b.dup + 1, dupWrap := b.dupWrap || b.dup == 0xFFFFFFFF }) v))))

/-- A bed whose turn it is gets a slot for its next piece from a live bank, with the next number, and its grant follows; a Dibber slot is
given for its bed's next Dibber step. A member's live step that has waited for its limit ends with 0x320, a serving slot's step with
0x321, a Dibber step with 0x340 and a Dibber slot's with 0x341 (R196, R197, R214, R215, R297, R302, R433). -/
def Obligations.SlotsAreGivenAndTimed : Prop :=
  (∀ (s v : State) (ctx k g bank : Nat) (st : CStep) (slots : List (Nat × Nat)) (b : Bed), v = fresh s → b = getBed v ctx → stopped s = false →
    inRun s = true → harrowOff v = false → (wantsSlot v ctx b false = true ∨ sharedTurn v = some ctx) → nextAlloc v b = some (st, slots) →
    freeBank v = some bank → usesSieve st.cmd.op = false → (∀ d ∈ allocDoms v st, domOn s d = true) → slots[st.alloc]? = some (k, g) →
    ∃ w, exec (.slotAllocate ctx) s = .next (after s (grantAfter ctx st.num (modStep ctx st.num (fun y => { y with alloc := y.alloc + 1, unit := if y.unit.isNone && usesSieve y.cmd.op then unitFor w y.num else y.unit }) w)))
      ∧ w.coll.slots = s.coll.slots ++ [(s.coll.nextId, { ctx := ctx, step := st.num, chunk := (st.c0 + k) % 2 ^ 32, group := g, bank := bank })]
      ∧ w.coll.nextId = s.coll.nextId + 1 ∧ w.coll.beds = s.coll.beds ∧ w.coll.peak = max s.coll.peak (s.coll.slots.length + 1))
  ∧ (∀ (s v : State) (ctx : Nat) (x : DStep) (b : Bed), v = fresh s → b = getBed v ctx → stopped s = false → inRun s = true →
    (getDom v (dibDom v)).ownerOff = false → wantsDSlot v ctx b false = true → domOn v (dibDom v) = true → nextDSlot v b = some x →
    ∃ w, exec (.dibberSlotAllocate ctx) s = .next (after s w)
      ∧ w.coll.dslots = s.coll.dslots ++ [(s.coll.nextId, { ctx := ctx, step := x.num })])
  ∧ (∀ (s : State) (ctx num : Nat) (st : CStep), findStep (getBed s ctx) num = some st → (getBed s ctx).isOpen = true → e64 s = true →
    st.live = true → st.since + (getBed s ctx).desc.limit * 1000 ≤ s.clk →
    exec (.memberStepTimerExpiry ctx num) s = .next (after s (endStep ctx num (some 0x320) false (fresh s))))
  ∧ (∀ (s : State) (id : Nat) (x : Slot), getSlot s id = some x → x.first.isSome = true →
    x.since + (getBed s x.ctx).desc.limit * 1000 ≤ s.clk →
    exec (.servingStepTimerExpiry id) s = .next (after s (abandonStep x.ctx x.step 0x321 false (fresh s))))
  ∧ (∀ (s : State) (ctx num : Nat) (x : DStep), findD (getBed s ctx) num = some x → e64 s = true → x.live = true →
    x.since + s.coll.dibLimit * 1000 ≤ s.clk →
    exec (.dibberMemberTimerExpiry ctx num) s = .next (after s (endD ctx num (some 0x340) false (dibErr 0x340 ctx 0 (fresh s)))))
  ∧ (∀ (s : State) (id t0 : Nat) (y : DSlot), s.coll.dslots.lookup id = some y → y.since = some t0 → t0 + s.coll.dibLimit * 1000 ≤ s.clk →
    exec (.dibberServingTimerExpiry id) s = .next (after s (abandonD y.ctx y.step 0x341 false (fresh s))))

/-- The plane sends a packet on over its endpoint's downlink, a VN1 packet with its congestion hint, and discards one whose downlink is
down or disabled; a forwarding peer refuses a bad VN2 packet, takes one up its own uplink on its path's network or down over the mesh on
VN2; the board ring passes a VN4 packet to the next slot (R168, R208, R348, R352, R353, R357). -/
def Obligations.ForwardersPassPacketsOn : Prop :=
  ∀ (s v : State) (l plot : Nat) (p : Packet), v = fresh s →
    (ForwardsFrom v l p false plot → e64 s = false → p.dst < 512 →
      (downlinkOk v p.dst = true → maySendPkt v p.dst (stamped v p) = true →
        exec (.packetForward l p) s = .next (after s (sendAsIs p.dst (resealed p (stamped v p)) (freshRound p.dst (stamped v p) (taken s l p)))))
      ∧ (downlinkOk v p.dst = false →
        exec (.packetForward l p) s = .next (after s (note 0x620 (some plot) .port (linkPort v l)
          { taken s l p with trl := { s.trl with noRoute := s.trl.noRoute + 1 } }))))
    ∧ (e64 s = true →
      (l < linkCount s → atHead s l p = true → s.flt.safe = false → vn2Bad v l p = true →
        exec (.boardForward l p) s = .next (after s (note 0x611 (plotOfKey v p.key) .port (linkPort v l) (taken s l p))))
      ∧ (∀ o q, ForwardsFrom v l p true plot → vn2Bad v l p = false →
        (p.vn = 2 ∧ 512 ≤ p.dst ∧ o = uplink (p.dst - 512) ∧ q = { p with vn := p.pathVn }
          ∨ p.vn ≠ 2 ∧ (p.vn = 3 ∨ p.kind = 0x26 ∨ p.kind = 0x27) ∧ isMesh v l = false ∧ sameBoard v p.dst = true ∧ o = meshLink v (p.dst % 8)
            ∧ q = { p with vn := 2, pathVn := p.vn }) →
        linkUp v o = true → maySendPkt v o q = true →
        exec (.boardForward l p) s = .next (after s (sendAsIs o (resealed p q) (freshRound o q (taken s l p)))))
      ∧ (ForwardsFrom v l p false plot → p.vn = 4 → isMesh v l = true → sameBoard v p.dst = true → maySendPkt v 0 p = true →
        exec (.ringForward l p) s = .next (after s (sendAsIs 0 (resealed p p) (freshRound 0 p (taken s l p))))))

/-- An answer on OR ends the access of its tag: read data, a write's or an unlock's response frees the tag and finishes its work, lock data
sends the unlock write; an answer in error fails the access; one whose tag is not outstanding is an error, and one whose tag was
quarantined frees it. A credit is added to its port's; without an answer in time the access fails and its tag is quarantined; too few
initial credits, and the loss of MP_CLK, are captured (R518, R521, R524, R525, R527, R532, R538). -/
def Obligations.MemoryPortsTakeAnswersAndCredits : Prop :=
  ∀ (s v : State) (port : Nat) (b : OrBeat), v = fresh s → PortUp v port →
    (∀ c k, (c, k) ∈ [(Instr.mpReadData port b, 0), (.mpWriteResponse port b, 1), (.mpLockData port b, 2), (.mpUnlockResponse port b, 3)] →
      b.kind.toNat = k →
      (∀ t, (s.mp.ports.at port).tags.lookup b.tag.toNat = some t → t.acc.kind.answer = k →
        (orParityOk b = true → b.status = false → (t.acc.kind ≠ .lockRead →
          exec c s = .next (after s (finishAcc t.acc false b.data
            (modPort port (fun p => { p with tags := p.tags.filter (fun e => e.1 != b.tag.toNat) }) (countMoved port t.acc v)))))
          ∧ (∀ job, t.acc.kind = .lockRead → t.acc.what = .lock job →
            exec c s = .next (after s (unlockOf port b.tag.toNat t.acc job b.data (countMoved port t.acc v)))))
        ∧ (orParityOk b = true → b.status = true → exec c s = .next (after s (failAcc port b.tag.toNat t.acc v)))
        ∧ (orParityOk b = false → exec c s = .next (after s (failAcc port b.tag.toNat t.acc (outboundFault 0x247 port v)))))
      ∧ ((s.mp.ports.at port).tags.lookup b.tag.toNat = none →
        ((s.mp.ports.at port).quar.contains b.tag.toNat = true →
          exec c s = .next (after s (modPort port (fun p => { p with quar := p.quar.filter (fun t => t != b.tag.toNat) }) v)))
        ∧ ((s.mp.ports.at port).quar.contains b.tag.toNat = false → exec c s = .next (after s (outboundFault 0x246 port v)))))
    ∧ ((s.mp.ports.at port).oq < 1023 →
      exec (.mpCredit port false) s = .next (after s (modPort port (fun p => { p with oq := p.oq + 1, gotOq := satInc 32 p.gotOq }) v)))
    ∧ ((s.mp.ports.at port).od < 1023 →
      exec (.mpCredit port true) s = .next (after s (modPort port (fun p => { p with od := p.od + 1, gotOd := satInc 32 p.gotOd }) v)))
    ∧ (1023 ≤ (s.mp.ports.at port).oq → exec (.mpCredit port false) s = .next (after s (outboundFault 0x245 port v)))
    ∧ (∀ tag t, (s.mp.ports.at port).tags.lookup tag = some t → t.since + fld s.mp.cfg 1 15 * 1000 ≤ s.clk →
      exec (.mpRespLimitExpiry port tag) s = .next (after s (modPort port (fun p => { p with quar := tag :: p.quar })
        (failAcc port tag t.acc (outboundFault 0x248 port v)))))
    ∧ ((s.mp.ports.at port).upSince + 10000 ≤ s.clk → (s.mp.ports.at port).noted249 = false →
      (s.mp.ports.at port).gotOq < 32 ∨ (s.mp.ports.at port).gotOd < 32 →
      exec (.mpInitialCreditExpiry port) s = .next (ended s (memErr 0x249 port 0
        (raiseEv { code := 0x249, level := .l3, unit := port } (modPort port (fun p => { p with noted249 := true }) v)))))
    ∧ (s.pwr.mpClkOk = true → ∃ u, exec .mpClkRangeExpiry s = .next (ended s u) ∧ (∀ n < 16, (u.mp.ports.at n).up = false)
      ∧ u.pwr.mpClkOk = false ∧ ∃ e, u.flt.inflight = s.flt.inflight ++ [e] ∧ e.code = 0x24B)

/-- A core reads a tally's value at its place of the line, or adds a doubleword to it, within its plot's tallies; it rings the doorbell of
a furrow of its own plot; each is answered, and its beat's credits are owed (R58, R62, R524, R530, R531). -/
def Obligations.CoreAperturesReadAddAndRing : Prop :=
  ∀ (s v : State) (port : Nat) (b : IqBeat), v = returnIq port b.write (fresh s) →
    (∀ u t, IqReaches (fresh s) .tally port b → b.write = false → b.len = 7 → b.addr.toNat % 2 ^ 24 = 8 * t →
      t < (getPlot s b.plot.toNat).tallyQuota → u ≠ .tally →
      exec (.tallyApertureRead port b u) s = .next (after s (emit (.ir port false b.tag.toNat false
        (BitVec.ofNat 1024 ((getTally v b.plot.toNat t).toNat * 2 ^ (8 * (8 * t % 128))))) v)))
    ∧ (∀ k, IqReaches (fresh s) .tally port b → b.write = true → k < 16 → b.be = BitVec.ofNat 128 (255 * 2 ^ (8 * k)) →
      (b.addr.toNat % 2 ^ 24 + 8 * k) / 8 < (getPlot s b.plot.toNat).tallyQuota →
      exec (.tallyApertureWrite port b) s = .next (after s (emit (.ir port true b.tag.toNat false 0)
        (addTally b.plot.toNat ((b.addr.toNat % 2 ^ 24 + 8 * k) / 8) (BitVec.ofNat 64 (fld b.data (64 * k) 64)) v))))
    ∧ (∀ n, IqReaches (fresh s) .doorbell port b → b.write = true → b.be = 0xFF → b.addr.toNat % 2 ^ 24 = 4096 * n → n < furrowCount s →
      (getFur s n).plot = b.plot.toNat →
      exec (.doorbellApertureWrite port b) s = .next (after s (emit (.ir port true b.tag.toNat false 0)
        (doorbell n (BitVec.ofNat 32 (fld b.data 0 32)) v))))

/-- A core's board-window access within the tracker's room joins it and goes on when its order allows; a held one goes on once it may, a
held access of a home starts once it may, and withheld credit returns with the oldest request it held. A write of the line cache's
register empties it of every line or of a plot's, and the end of the sweep clears the lines of old epochs (R134, R135, R138, R142, R144,
R145, R173, R174). -/
def Obligations.BoardWindowAccessesGoInOrder : Prop :=
  (∀ (s : State) (port : Nat) (b : IqBeat) (u : Upset), IqReaches (fresh s) .window port b →
    (bwSlot b = mySlot (fresh s) ∨ meshUp (fresh s) (bwNode (fresh s) (bwSlot b)) = true) → (s.mp.ports.at port).withheld = false →
    trackRoom (fresh s) b.core.toNat = true →
    (b.write = false → exec (.boardWindowLoad port b u) s = .next (after s (bwAccept port b u (fresh s))))
    ∧ (b.write = true → exec (.boardWindowStore port b) s = .next (after s (bwAccept port b .none (fresh s)))))
  ∧ (∀ (s v : State) (id : Nat) (a : BwAcc), v = fresh s → s.rlc.acc.lookup id = some a → a.state ≠ .sent →
    (bwHit v a = none → bwOrdered v id a = true → bwBehind v id a = false → exec (.boardWindowRelease id) s = .next (after s (bwGo id a v)))
    ∧ (∀ ln, bwHit v a = some ln → bwAlone v id a = true → exec (.boardWindowRelease id) s = .next (after s (bwEnd id 0 ln v))))
  ∧ (∀ (s v : State) (id : Nat) (j : Job), v = fresh s → s.home.jobs.lookup id = some j → j.held = true → mayBegin v id j = true →
    exec (.homeAccessRelease id) s = .next (after s (beginJob id j (modJob id (fun x => { x with held := false }) v))))
  ∧ (∀ (s v : State) (port : Nat), v = fresh s → s.rlc.iqHeld.find? (fun x => x.1 == port) = none →
    exec (.creditWithholdRelease port) s = .next (after s (modPort port (fun p => { p with withheld := false }) v)))
  ∧ (∀ (s v : State) (port : Nat) (b : IqBeat) (rest : List (Nat × IqBeat)), v = fresh s →
    s.rlc.iqHeld.find? (fun x => x.1 == port) = some (port, b) → trackRoom v b.core.toNat = true →
    rest = s.rlc.iqHeld.eraseIdx (s.rlc.iqHeld.findIdx (fun x => x.1 == port)) →
    ∃ w, w = bwAccept port b .none { v with rlc := { v.rlc with iqHeld := rest } } ∧ exec (.creditWithholdRelease port) s
      = .next (after s (if rest.any (fun x => x.1 == port) then w else modPort port (fun p => { p with withheld := false }) w)))
  ∧ (∀ (s v : State) (sv : Nat) (w : Word), v = fresh s → Writable s sv 0x3C0000 →
    (bitAt w 1 = true → ∃ u, exec (.invAll sv w) s = .next (ended s (cpAnswer sv 0 0 u)) ∧ u.rlc.lines = [] ∧ u.rlc.enable = bitAt w 0)
    ∧ (bitAt w 2 = true → bitAt w 1 = false → bitAt w 0 = true → ∃ u, exec (.invPlot sv w) s = .next (ended s (cpAnswer sv 0 0 u))
      ∧ u.rlc.lines = s.rlc.lines.filter (fun l => l.plot != fld w 8 8) ∧ u.rlc.enable = true))
  ∧ (∀ (s : State), s.rlc.sweeping = true → ∃ u, exec .epochSweepDone s = .next (ended s u) ∧ u.rlc.sweeping = false
    ∧ u.rlc.lines = s.rlc.lines.filter (fun l => l.epoch == s.rlc.epoch.getD l.plot 0))

/-- A training frame in COEFF moves the taps that it asks for, and one in ALIGN counts when it says ready; the end of a step goes on to the next: DETECT to ACQUIRE once a
far end was seen, ACQUIRE to COEFF or ALIGN, COEFF to ALIGN, ALIGN to CHECK after 16 frames, CHECK to UP or, when it failed, back; a step
that passes its bound fails; DETECT without a far end for 1 s is noted once and tried again every 100 ms (R313-R316). -/
def Obligations.LanesTrainStepByStep : Prop :=
  ∀ (s v : State) (q : Nat) (x : Lane), v = fresh s →
    (∀ c, Trains v q .coeff x → x.idOk = true → x.noFar = false → frameOk c = true → fld c 4 3 ≠ 0 →
      ∃ u, exec (.trainingFrame q c) s = .next (after s u) ∧ (getLane u q).tstate = .coeff ∧ (getLane u q).seenFar = true
        ∧ (getLane u q).farIndex = fld c 25 2 ∧ (getLane u q).precodeTx = bitAt c 13
        ∧ ((getLane u q).pre, (getLane u q).post) = presets.getD (fld c 4 3 - 1) (4, 8)
        ∧ (getLane u q).preStatus = 1 ∧ (getLane u q).postStatus = 1 ∧ u.outbox = s.outbox ++ [.trainFrames q (myFrame u q false)])
    ∧ (∀ c, Trains v q .align x → x.idOk = true → x.noFar = false → frameOk c = true → bitAt c 11 = true →
      ∃ u, exec (.trainingFrame q c) s = .next (after s u) ∧ (getLane u q).tstate = .align ∧ (getLane u q).frames = x.frames + 1)
    ∧ (Trains v q .detect x → x.seenFar = true → exec (.trainingStepDone q) s = .next (after s (toStep q .acquire v)))
    ∧ (Trains v q .acquire x → x.full = true ∨ x.idOk = true → exec (.trainingStepDone q) s = .next (after s (endAcquire q v)))
    ∧ (Trains v q .coeff x → x.idOk = true → exec (.trainingStepDone q) s = .next (after s (toStep q .align v)))
    ∧ (Trains v q .align x → 16 ≤ x.frames →
      exec (.trainingStepDone q) s = .next (after s (emit (.trainFrames q (myFrame v q true)) (toStep q .check v))))
    ∧ (Trains v q .check x → (checkOk x = true → exec (.trainingStepDone q) s = .next (after s (laneUp q v)))
      ∧ (checkOk x = false → exec (.trainingStepDone q) s = .next (after s (failStep q v))))
    ∧ (∀ t, Trains v q t x → t ≠ .detect ∨ x.seenFar = true → x.stepSince + stepBound t x.full ≤ s.clk →
      exec (.trainingStepTimeout q) s = .next (after s (failStep q v)))
    ∧ (Trains v q .detect x → x.seenFar = false → x.noFar = false → x.stepSince + 1000000000 ≤ s.clk →
      exec (.detectTimeout q) s = .next (ended s (promote 8 (modLane q (fun x => { x with noFar := true, noted521 := true, fallow := true, stepSince := s.clk })
        (if x.noted521 then v else laneFault q 0x521 v)))))
    ∧ (getLane v q = x → x.noFar = true → x.stepSince + 100000000 ≤ s.clk →
      exec (.detectRetry q) s = .next (ended s (modLane q (fun x => { x with stepSince := s.clk, trainsStarted := satInc 65535 x.trainsStarted }) v)))

/-- A codeword that arrives on a lane in service is counted and taken; an ack wait that expires resends what is held, and the third in a
row takes the lane down; a bad ratio is noted; an idle direction enters Quiet and refreshes; a Fallow port with nothing held powers down;
an eye scan ends with its count; an injected error goes out; a lost supply or PLL takes a group's lanes down (R311, R318-R320, R333-R335,
R339, R341, R502, R557). -/
def Obligations.LanesInServiceTakeTheirEvents : Prop :=
  ∀ (s v : State) (q l g : Nat) (x : Lane) (k : Link), v = fresh s → x = getLane v q → k = getLink v l →
    (∀ cw, q < laneCount v → x.inPort = true → exec (.codewordReceived q cw) s = .next (after s (takeCodeword q cw v)))
    ∧ (∀ h r, x.inPort = true → x.held = h :: r → h.since + fld (getLink v (laneLink v q)).cfg 14 7 * 100 ≤ s.clk →
      (x.ackWaits < 2 → exec (.ackWaitExpiry q) s = .next (after s (resendFrom q h.seq (modLane q (fun x => { x with ackWaits := x.ackWaits + 1 }) v))))
      ∧ (2 ≤ x.ackWaits → exec (.ackWaitExpiry q) s = .next (after s (laneDown q 0x512 .detect v))))
    ∧ (∀ n, x.inPort = true → ratioBad n 65536 = true → (∀ t, x.noted513 = some t → t + 1000000000 ≤ s.clk) →
      exec (.correctedRatioWindow q n) s = .next (ended s (modLane q (fun x => { x with noted513 := some s.clk }) (laneFault q 0x513 v))))
    ∧ (k.up = true → k.quietTx = false → k.narrowing = none → fld k.cfg 0 14 ≠ 0 → heldEmpty v l = true →
      k.idleSince + fld k.cfg 0 14 * 1000 ≤ s.clk →
      exec (.quietIdleExpiry l) s = .next (after s (modLink l (fun k => { k with quietTx := true, lastRefresh := s.clk }) (sendCtl l [4] v))))
    ∧ (k.quietTx = true → k.lastRefresh + 10000 ≤ s.clk → ∃ u, exec (.quietRefresh l) s = .next (ended s u)
      ∧ (getLink u l).lastRefresh = s.clk
      ∧ u.outbox = s.outbox ++ (activeLanes v l).map (fun q => .trainFrames q (myFrame v q false)))
    ∧ (k.fallowing = true → heldEmpty v l = true → exec (.fallowPowerDown l) s = .next (after s (laneOffReady (holdFallow l v))))
    ∧ (∀ n, (s.lanes.escan.at g).busy = true → ∃ u, exec (.escanDone g n) s = .next (ended s u)
      ∧ u.lanes.escan.at g = { s.lanes.escan.at g with busy := false, done := true, err := BitVec.ofNat 32 (min n 0xFFFFFFFF) }
      ∧ u.lanes.lane = s.lanes.lane ∧ u.lanes.link = s.lanes.link)
    ∧ ((fld x.inj 0 2 = 1 ∧ x.tstate = .test) ∨ ((fld x.inj 0 2 = 2 ∨ fld x.inj 0 2 = 3) ∧ (x.inPort = true ∨ x.tstate = .check)) →
      ∃ bit u, exec (.injectionInterval q) s = .next (ended s u) ∧ u.outbox = s.outbox ++ [.inject q (fld x.inj 0 2) bit] ∧ u.lanes = s.lanes)
    ∧ (8 * g < laneCount v → bitAt s.pwr.lnPgood g = true → (∀ i < 8, (getLane v (8 * g + i)).inPort = false) →
      exec (.lnPgood g false) s = .next (after s (((List.range 8).map (fun i => 8 * g + i)).foldl
        (fun s q => modLane q (fun x => { x with fallow := true }) (laneDown q 0 .down s)) { v with pwr := { v.pwr with lnPgood := setBit v.pwr.lnPgood g false } })))
    ∧ (8 * g < laneCount v → bitAt s.pwr.lnPgood g = false →
      exec (.lnPgood g true) s = .next (after s (((List.range 8).map (fun i => 8 * g + i)).foldl
        (fun s q => startTraining q .detect s) { v with pwr := { v.pwr with lnPgood := setBit v.pwr.lnPgood g true } })))
    ∧ exec (.lanePllLockLoss g) s = .next (after s ((List.range 8).foldl (fun s i =>
        if (getLane s (8 * g + i)).inPort then laneDown (8 * g + i) 0x510 .detect s
        else if (getLane s (8 * g + i)).tstate.training then laneOut (8 * g + i) .detect s else s)
      { v with pwr := { v.pwr with laneLock := setBit v.pwr.laneLock g false } }))

/-- A write of a lane's or a port's register that reaches it answers 0 and takes effect: a retrain starts training from step 2 on the
lane or on every lane of the port's link, hold_down takes the lane down, test mode needs the lane held down, Fallow begins on a port out of
the routes, an eye scan starts on an active lane, one error is injected; a value that is not allowed changes nothing and is noted (R315,
R320, R338-R341, R343, R565). -/
def Obligations.LaneRegisterWritesTakeEffect : Prop :=
  ∀ (s v : State) (sv q g : Nat) (w : Word), v = fresh s →
    (Writable s sv (lanAddr q 0) →
      (lanCtlOk (getLane v q) w = true →
        (bitAt w 5 = true → exec (.lanCtlRetrain sv q w) s = .next (after s (cpAnswer sv 0 0 (lanCtlSet q w v))))
        ∧ exec (.lanCtlTest sv q w) s = .next (after s (cpAnswer sv 0 0 (lanCtlSet q w v)))
        ∧ exec (.holdDown sv q w) s = .next (after s (cpAnswer sv 0 0 (lanCtlSet q w v))))
      ∧ (lanCtlOk (getLane v q) w = false → ∀ c, c = .lanCtlTest sv q w ∨ c = .holdDown sv q w →
        exec c s = .next (after s (cpAnswer sv 0 0 (note 0x570 none .port (linkPort v (laneLink v q)) v)))))
    ∧ (∀ a l ls, isLinkCfg a.toNat = true → Writable s sv a.toNat → cfgLinks v a.toNat = l :: ls →
      ((∀ m ∈ l :: ls, linkCfgOk v m w = true) →
        exec (.fallow sv a w) s = .next (after s (cpAnswer sv 0 0 (laneOffReady ((l :: ls).foldl (linkCfg w) v))))
        ∧ (bitAt w 22 = true → exec (.prtLinkCfgRetrain sv a w) s = .next (after s (cpAnswer sv 0 0 ((l :: ls).foldl (linkCfg w) v))))))
    ∧ (Writable s sv (0x2C0000 + 0x40 * g) → bitAt w 25 = true → (s.lanes.escan.at g).busy = false → fld w 3 2 ≠ 3 → 20 ≤ fld w 19 6 → fld w 19 6 ≤ 40 →
      laneActive v (8 * g + fld w 0 3) = true → bitAt w 27 = false → bitAt w 28 = false → ∃ u, exec (.escanStart sv g w) s = .next (ended s (cpAnswer sv 0 0 u))
        ∧ u.lanes.escan.at g = { s.lanes.escan.at g with ctl := w &&& 0x1FFFFFF, lane := fld w 0 3, err := 0, busy := true })
    ∧ (Writable s sv (lanAddr q 0x28) → bitAt w 8 = true → 4 ≤ fld w 2 6 → fld w 2 6 ≤ 40 →
      exec (.lanInjOnce sv q w) s = .next (ended s (cpAnswer sv 0 0 (injectOne q (modLane q (fun x => { x with inj := w &&& 0xFF }) v)))))

/-- A management message of a known type takes effect and draws a management acknowledgement; an unknown type draws a NAK of reason 2. A reach
notice writes its plane's bit of the reach entry, a peer notice the peer's uplink live mask, and a Rake map request draws the oldest maps
it wants and frees them when it says so. An acknowledgement ends the message it names, a NAK of reason 2 drops it with 0x650, any other NAK
lets it rest; a message is sent again 10 us after such a NAK and 100 us after it was sent (R347, R353, R354, R371). -/
def Obligations.ManagementMessagesAreAnswered : Prop :=
  ∀ (s u v : State) (l plot : Nat) (p : Packet), u = fresh s → v = taken s l p →
    (Arrives s l p 0x60 plot →
      (p.ar 16 1 = 1 → e64 s = true → ∀ x, x = { v with trl := { s.trl with reach := s.trl.reach.set (p.ar 18 2 % 512) (setBit (reachEntry s (p.ar 18 2 % 512)) (p.ar 17 1 % 32) (p.ar 20 1 == 1)) } } →
        exec (.reachNotice l p) s = .next (after s (mgmtAnswer p 0x61 0 (moveRows
          (if p.ar 20 1 = 1 then x else resendThrough (uplink (p.ar 17 1 % 32)) (some (p.ar 18 2 % 512)) (resetPairs x))))))
      ∧ (p.ar 16 1 = 1 ∧ e64 s = false ∨ p.ar 16 1 ∉ mgmtTypes →
        exec (.reachNotice l p) s = .next (after s (mgmtAnswer p 0x62 2 v)))
      ∧ (p.ar 16 1 = 2 → e64 s = true → exec (.peerNotice l p) s = .next (after s (mgmtAnswer p 0x61 0
          { v with trl := { s.trl with peer := s.trl.peer.set (p.ar 18 2 % 8) (BitVec.ofNat 32 (p.ar 20 4)) } })))
      ∧ (p.ar 16 1 = 3 → ∀ n x, n = min s.rak.held (p.ar 17 1) →
          x = { v with outbox := v.outbox ++ [.rakeMaps p.src ((List.range n).map (fun i => mapAt s.rak (s.rak.oldest + i)))] } →
        exec (.rakeMapRequest l p) s = .next (after s (mgmtAnswer p 0x61 0 (if (p.ar 18 1).testBit 0 then rakPops n x else x)))))
    ∧ (Arrives s l p 0x61 plot →
      (∀ id, matchMgmt s p = some id → exec (.managementAcknowledgement l p) s
        = .next (after s { v with xfer := { s.xfer with rqs := s.xfer.rqs.filter (fun e => e.1 != id) } }))
      ∧ (matchMgmt s p = none → exec (.managementAcknowledgement l p) s = .next (after s v)))
    ∧ (Arrives s l p 0x62 plot →
      (∀ id, matchMgmt s p = some id →
        (p.ar 16 2 = 2 → exec (.managementNak l p) s
          = .next (after s (raise 0x650 { v with xfer := { s.xfer with rqs := s.xfer.rqs.filter (fun e => e.1 != id) } })))
        ∧ (p.ar 16 2 ≠ 2 → exec (.managementNak l p) s = .next (after s { v with xfer := { s.xfer with rqs := s.xfer.rqs.map (fun e => if e.1 = id then (e.1, { e.2 with busy := true, at1 := s.clk }) else e) } })))
      ∧ (matchMgmt s p = none → exec (.managementNak l p) s = .next (after s v)))
    ∧ (∀ id r, s.xfer.rqs.lookup id = some r → r.who = .mgmt → r.sent = true → r.at1 + (if r.busy then 10000 else 100000) ≤ s.clk →
      exec (.managementResend id) s = .next (ended s { u with xfer := { s.xfer with rqs := s.xfer.rqs.map (fun e => if e.1 = id then (e.1, { e.2 with sent := false, busy := false }) else e) } }))

/-- A hint level falls by one 1 us after its last hint, and a cap window ends after 1,024 flit slots. A write of the standby bank that R363
and R378 allow is answered 0 and reads back, and any other is noted with 0x630, as is a weight of zero. An arm that R364 allows arms the
swap for TRL_SWAP_AT, a disarm takes it back, now takes effect after a drain, and each is refused with 0x631 otherwise. At the
time of the swap the banks change places and the guard of 10 us begins (R356, R358, R362-R364, R366, R367, R378). -/
def Obligations.TrellisFollowsItsRules : Prop :=
  ∀ (s u : State) (sv : Nat) (w : Word), u = fresh s →
    (∀ d p n t, s.trl.level.at (pairKey d p) = (n + 1, t) → t + 1000 ≤ s.clk → exec (.hintDecay d p) s
      = .next (ended s { u with trl := { s.trl with level := s.trl.level.set (pairKey d p) (n, s.clk) } }))
    ∧ (∀ l, (getLink u l).up = true → (getLink u l).windowSince + 1024 * 12955 / 10000 / (activeLanes u l).length ≤ s.clk →
      ∃ t, exec (.capWindowEnd l) s = .next (ended s t) ∧ getLink t l = { getLink u l with collSlots := 0, windowSince := s.clk }
        ∧ (∀ m, m ≠ l → getLink t m = getLink u m) ∧ t = { u with lanes := t.lanes } ∧ t.lanes.lane = s.lanes.lane)
    ∧ (∀ (a : BitVec 24) off isB bank, Writable s sv a.toNat → 0x480000 ≤ a.toNat → a.toNat ≤ 0x48FFFF → off = a.toNat % 0x8000 →
        isB = decide (0x488000 ≤ a.toNat) → bank = (if isB then s.trl.bankB else s.trl.bankA) →
      (isB ≠ s.trl.live → s.trl.armed = none → s.trl.guardEnd = none → (bankWord s bank off).isSome = true →
        (e64 s = true → 0x10E0 ≤ off → off < 0x1100 → w = 0) →
        exec (.trellisTableWrite sv a w) s = .next (ended s (cpAnswer sv 0 0 { u with trl := if isB then { s.trl with bankB := bankWrite s bank off w } else { s.trl with bankA := bankWrite s bank off w } }))
        ∧ bankWord s (bankWrite s bank off w) off = some (if off < 0x800 ∧ e64 s = false then w &&& 1 else w))
      ∧ (isB = s.trl.live ∨ s.trl.armed.isSome = true ∨ s.trl.guardEnd.isSome = true ∨ bankWord s bank off = none
          ∨ (e64 s = true ∧ 0x10E0 ≤ off ∧ off < 0x1100 ∧ w ≠ 0) →
        exec (.trellisTableWrite sv a w) s = .next (ended s (cpAnswer sv 0 0 (raise 0x630 u)))))
    ∧ (Writable s sv 0x490020 →
      ((∀ v < 7, fld w (4 * v) 4 ≠ 0) → exec (.trlArb sv w) s
        = .next (ended s (cpAnswer sv 0 0 { u with trl := { s.trl with arb := w &&& 0x0FFFFFFF } })))
      ∧ ((∃ v < 7, fld w (4 * v) 4 = 0) → exec (.trlArb sv w) s = .next (ended s (cpAnswer sv 0 0 (raise 0x630 u)))))
    ∧ (∀ at0, at0 = s.trl.swapAtHi.toNat * 2 ^ 32 + s.trl.swapAtLo.toNat → Writable s sv 0x49000C →
      (bitAt w 10 = true → bitAt w 11 = false → bitAt w 12 = false →
        (fld w 0 10 ≤ 128 ∧ s.sun.time + 100000 ≤ at0 ∧ s.trl.armed = none ∧ s.trl.guardEnd = none → exec (.arm sv w) s
          = .next (ended s (cpAnswer sv 0 0 { u with trl := { s.trl with domain := fld w 0 10, armed := some at0 } })))
        ∧ (128 < fld w 0 10 ∨ at0 < s.sun.time + 100000 ∨ s.trl.armed.isSome = true ∨ s.trl.guardEnd.isSome = true →
          exec (.arm sv w) s = .next (ended s (cpAnswer sv 0 0 (raise 0x631 u)))))
      ∧ (bitAt w 10 = false → bitAt w 11 = false → bitAt w 12 = true → (∀ t, s.trl.armed = some t → s.sun.time < t) →
        exec (.disarm sv w) s = .next (ended s (cpAnswer sv 0 0 { u with trl := { s.trl with domain := fld w 0 10, armed := none } })))
      ∧ (bitAt w 10 = false → bitAt w 11 = true → bitAt w 12 = false →
        (s.trl.drainDone = true → exec (.now sv w) s = .next (ended s (cpAnswer sv 0 0 (moveRows
          { u with trl := { s.trl with domain := fld w 0 10, live := !s.trl.live } }))))
        ∧ (s.trl.drainDone = false → exec (.now sv w) s = .next (ended s (cpAnswer sv 0 0 (raise 0x631 u))))))
    ∧ (∀ t, s.trl.armed = some t → t ≤ s.sun.time → exec .swapTime s = .next (ended s (moveRows
      { u with trl := { s.trl with live := !s.trl.live, armed := none, guardEnd := some (s.clk + 10000) } })))
    ∧ (∀ t, s.trl.guardEnd = some t → t ≤ s.clk → exec .guardEnd s = .next (ended s { u with trl := { s.trl with guardEnd := none } }))

/-- A write of TRL_CTL begins a drain, or ends it and pays the credits withheld; the drain is done once no guard runs, no slot is held and
no packet is out or may start; past its limit it is noted once with 0x632 and never done (R366, R367). Rake adds a sample of every link
each microsecond, closes a window after its length into the next map slot, merges the two oldest of sixteen maps and counts that, and a
pop frees the oldest map (R370, R371). -/
def Obligations.DrainsAndRakeMaps : Prop :=
  ∀ (s u : State) (sv : Nat) (w : Word), u = fresh s →
    (Writable s sv 0x490000 →
      (bitAt w 1 = true → s.trl.drain = false → exec (.drain sv w) s = .next (ended s (cpAnswer sv 0 0
        { u with trl := { s.trl with drain := true, drainDone := false, drainSince := s.clk, noted632 := false } })))
      ∧ (bitAt w 1 = false → s.trl.drain = true → exec (.drain sv w) s = .next (ended s (cpAnswer sv 0 0
        (payAll { u with trl := { s.trl with drain := false, drainDone := false } })))))
    ∧ (s.trl.drain = true → s.trl.drainDone = false → s.trl.noted632 = false →
      (s.trl.guardEnd = none → s.coll.slots = [] → s.coll.dslots = [] → (∀ e ∈ s.xfer.rqs, e.2.sent = false ∧ mayStart u e.2 = false) →
        exec .drainDone s = .next (ended s { u with trl := { s.trl with drainDone := true } }))
      ∧ (s.trl.drainSince + s.trl.drainLimit * 1000 ≤ s.clk →
        exec .drainLimitExpiry s = .next (ended s (raise 0x632 { u with trl := { s.trl with noted632 := true } }))))
    ∧ (s.rak.enable = true → s.rak.lastSample + 1000 ≤ s.clk → ∃ t, exec .rakeSample s = .next (ended s { u with rak := t })
      ∧ t.samples = s.rak.samples + 1 ∧ t.lastSample = s.clk ∧ (s.rak.samples = 0 → t.winStart = s.sun.time)
      ∧ (∀ l < linkCount s, Tbl.getD t.sums l (0, 0)
          = ((Tbl.getD s.rak.sums l (0, 0)).1 + inUse u l, max (Tbl.getD s.rak.sums l (0, 0)).2 (inUse u l)))
      ∧ t = { s.rak with samples := t.samples, lastSample := t.lastSample, winStart := t.winStart, sums := t.sums })
    ∧ (s.rak.enable = true → 2 ^ s.rak.log2 ≤ s.rak.samples → ∀ r, r = mergeOldest s.rak →
      ∃ m t, exec .rakeWindowClose s = .next (ended s { u with rak := t })
        ∧ t = { r with slots := r.slots.set ((r.oldest + r.held) % 16) m, held := r.held + 1, seq := (s.rak.seq + 1) % 65536, samples := 0, sums := [] }
        ∧ m.start = s.rak.winStart ∧ m.window = 2 ^ s.rak.log2 ∧ m.seq = s.rak.seq % 65536
        ∧ m.links = (List.range (linkCount s)).map (fun l => (in256 (Tbl.getD s.rak.sums l (0, 0)).1 (advertised u l * s.rak.samples),
            in256 (Tbl.getD s.rak.sums l (0, 0)).2 (advertised u l)))
        ∧ (s.rak.held < 16 → r = s.rak)
        ∧ (16 ≤ s.rak.held → r.held = 15 ∧ r.decim = s.rak.decim + 1 ∧ r.merged = true ∧ r.oldest = (s.rak.oldest + 1) % 16
            ∧ (mapAt r r.oldest).start = (mapAt s.rak s.rak.oldest).start
            ∧ (mapAt r r.oldest).window = (mapAt s.rak s.rak.oldest).window + (mapAt s.rak (s.rak.oldest + 1)).window))
    ∧ (Writable s sv 0x490108 → bitAt w 0 = true → 0 < s.rak.held → exec (.rakPop sv w) s = .next (ended s (cpAnswer sv 0 0 { u with rak := { s.rak with slots := s.rak.slots.del s.rak.oldest, oldest := (s.rak.oldest + 1) % 16, held := s.rak.held - 1 } })))

/-- An open of a FREE plot with a key and a tally range of its own makes it ACTIVE, privileged when it is plot 0 or the soil lists its key; an
open that a check refuses is noted with the first check's code. A teardown or reset of an ACTIVE plot makes it DRAINING under the next
generation, resets its furrows, closes its beds and on E64 drops its cached lines. At the drain bound what is still reserved is freed with
0x660, and accesses still out raise 0x661 at L2; once none is out the plot ends FREE or ACTIVE with zero tallies and no fault of its own; 100 ms
later it raises 0x662 at L3 (R381, R382, R386, R389, R390, R409, R424). -/
def Obligations.PlotsOpenDrainAndEnd : Prop :=
  ∀ (s u : State) (sv p : Nat) (w : Word) (x : Plot), u = fresh s → x = getPlot s p → p < 256 →
    (Writable s sv (0x400000 + 0x20 * p + 4) →
      (bitAt w 0 = true → bitAt w 1 = false → bitAt w 2 = false →
        (x.state = .free → x.key ≠ 0 → (∀ o ∈ otherPlots s p, o.key ≠ x.key) → x.tallyBase + x.tallyQuota ≤ 65536 →
          (∀ o ∈ otherPlots s p, rangesMeet x.tallyBase x.tallyQuota o.tallyBase o.tallyQuota = false) →
          exec (.open_ sv p w) s = .next (after s (cpAnswer sv 0 0 (modPlot p (fun y => { y with state := .active, priv := p == 0 || s.start.privKeys.contains x.key }) u))))
        ∧ (openFault s p ≠ 0 → exec (.open_ sv p w) s = .next (after s (cpAnswer sv 0 0 (note (openFault s p) (some p) .block 0 u))))
        ∧ (x.state ≠ .free → openFault s p = 0x663))
      ∧ (∀ b c, (c = .teardown sv p w ∧ b = false ∧ bitAt w 1 = true) ∨ (c = .plotReset sv p w ∧ b = true ∧ bitAt w 1 = false ∧ bitAt w 2 = true) →
        (p ≠ 0 → x.state = .active → ∀ y z z2 : State,
          y = modPlot p (fun x => { x with state := .draining, gen := (x.gen + 1) % 16, acct := 0, since := s.clk, byReset := b, bound := false, hung := false }) u →
          z = (plotFurrows y p).foldl (fun s f => if (getFur s f).resetting.isSome then s else furReset f s) y →
          z2 = ((openBeds z).filter (fun c => (getBed z c).plot == p)).foldl (fun s c => closeBed c s) z →
          exec c s = .next (after s (cpAnswer sv 0 0 (if e64 z2 then invPlotLines p z2 else z2))))
        ∧ (p = 0 ∨ x.state ≠ .active → exec c s = .next (after s (cpAnswer sv 0 0 (note 0x663 (some p) .block 0 u))))))
    ∧ (x.state = .draining → x.bound = false → x.since + x.drain * 1000 ≤ s.clk → ∀ y z : State, y = modPlot p (fun x => { x with bound := true }) u →
        z = (if plotReserved y p = [] then y else freeReserved p (note 0x660 (some p) .block 0 y)) →
      exec (.drainBoundExpiry p) s = .next (after s (if 0 < plotAccesses z p then raiseEv { code := 0x661, level := .l2, plot := some p } z else z)))
    ∧ (x.state = .draining → x.bound = true → plotAccesses s p = 0 → ∀ y : State, y = zeroTallies p (freeReserved p u) →
      exec (.plotDrainComplete p) s = .next (after s (clearCauses (fun e => e.level == .l2 && e.plot == some p) (modFlt (fun f => { f with plotFault := setBit f.plotFault p false })
        (modPlot p (fun x => { x with state := if x.byReset then .active else .free, byReset := false, bound := false, hung := false }) y))))
      ∧ ∀ k, (getPlot (freeReserved p u) p).tallyBase ≤ k → k < (getPlot (freeReserved p u) p).tallyBase + (getPlot (freeReserved p u) p).tallyQuota → y.tally.at k = 0)
    ∧ (x.state = .draining → x.bound = true → x.hung = false → 0 < plotAccesses s p → x.since + x.drain * 1000 + 100000000 ≤ s.clk →
      exec (.plotDrainHangExpiry p) s = .next (ended s (raiseEv { code := 0x662, level := .l3, plot := some p } (modPlot p (fun x => { x with hung := true }) u))))

/-- A claim takes ownership only while there is none, else 0x670; release and handover are the owner's, and a handover to oneself or beside
a pending one is refused with 0x674; the target's accept within 100 ms takes ownership; a handover that runs out is ended with
0x673. The owner's heartbeat begins a new interval of SUP_HB_LIMIT; an interval that passes vacates ownership with 0x672. A read of the
event queue answers its head, and the owner's read pops it. A write without the right is counted (R394-R398, R401, R410). -/
def Obligations.OwnershipFollowsItsRules : Prop :=
  ∀ (s u : State) (sv : Nat) (w : Word), u = fresh s →
    (Writable s sv 0x010004 →
      (bitAt w 0 = true → bitAt w 1 = false → bitAt w 2 = false → bitAt w 3 = false →
        (s.sup.owner = none → exec (.claim sv w) s = .next (ended s (cpAnswer sv 0 0
          { u with sup := { s.sup with owner := some sv, target := none, hbSince := s.clk, hbRun := s.sup.hbLimit } })))
        ∧ (s.sup.owner.isSome = true → exec (.claim sv w) s = .next (ended s (cpAnswer sv 0 0 (raise 0x670 u)))))
      ∧ (bitAt w 1 = true →
        (s.sup.owner = some sv → exec (.release sv w) s = .next (ended s (cpAnswer sv 0 0 { u with sup := { s.sup with owner := none, target := none } })))
        ∧ (s.sup.owner ≠ some sv → exec (.release sv w) s = .next (ended s (cpAnswer sv 0 0 (denied sv u)))))
      ∧ (bitAt w 3 = true → bitAt w 1 = false → bitAt w 2 = false →
        (s.sup.owner = some sv → fld w 4 2 ≠ sv → s.sup.target = none → exec (.handover sv w) s = .next (ended s (cpAnswer sv 0 0
          { u with sup := { s.sup with target := some (fld w 4 2), hoSince := s.clk } })))
        ∧ (s.sup.owner = some sv → fld w 4 2 = sv ∨ s.sup.target.isSome = true → exec (.handover sv w) s = .next (ended s (cpAnswer sv 0 0 (raise 0x674 u))))
        ∧ (s.sup.owner ≠ some sv → exec (.handover sv w) s = .next (ended s (cpAnswer sv 0 0 (denied sv u)))))
      ∧ (bitAt w 2 = true → bitAt w 1 = false →
        (s.sup.target = some sv → s.clk ≤ s.sup.hoSince + 100000000 → exec (.accept sv w) s = .next (ended s (cpAnswer sv 0 0 { u with sup := { s.sup with owner := some sv, target := none, hbSince := s.clk, hbRun := s.sup.hbLimit, events := setBit s.sup.events 2 true } })))
        ∧ (s.sup.target ≠ some sv ∨ s.sup.hoSince + 100000000 < s.clk → exec (.accept sv w) s = .next (ended s (cpAnswer sv 0 0 (denied sv u))))))
    ∧ (s.sup.target.isSome = true → s.sup.hoSince + 100000000 ≤ s.clk → exec .handoverExpiry s = .next (ended s (raise 0x673
        { u with sup := { s.sup with target := none, events := setBit s.sup.events 1 true } })))
    ∧ (Writable s sv 0x010008 → exec (.supHeartbeat sv w) s = .next (ended s (cpAnswer sv 0 0
        { u with sup := { s.sup with hbSince := s.clk, hbRun := s.sup.hbLimit } })))
    ∧ (s.sup.owner.isSome = true → s.start.running = false → s.sup.hbSince + s.sup.hbRun * 1000000 ≤ s.clk →
      exec .heartbeatExpiry s = .next (ended s (raise 0x672 { u with sup := { s.sup with owner := none, target := none, events := setBit s.sup.events 0 true } })))
    ∧ (Readable s sv 0x010018 →
      (s.sup.owner = some sv → exec (.supEvq sv) s = .next (ended s (cpAnswer sv 0 (s.sup.evq.headD 0) { u with sup := { s.sup with evq := s.sup.evq.tail } })))
      ∧ (s.sup.owner ≠ some sv → exec (.supEvq sv) s = .next (ended s (cpAnswer sv 0 (s.sup.evq.headD 0) u))))

/-- Setting MBX_REQ_CTL.go posts a request; a write of go to MBX_RSP_CTL takes the reply and posts one that waited. Icquel takes a request,
clears go and replies under its header: ECHO returns its words, an unlisted command draws 0x681, an image is installed or waits for
its slot, a SOIL_UPDATE adds its fragment and a whole good object becomes the active one at the next start, MEASURE takes and gives
fragments and the identity, MARL_READ reads a slot or finds a record, RELAY sends its message on and draws 0x682 after 100 ms; an owner's
command from another supervisor draws 0x671 (R63-R66, R403, R406, R407, R459, R463, R479). -/
def Obligations.MailboxRequestsAreServed : Prop :=
  ∀ (s u v : State) (i : Nat) (ws : List Word), u = fresh s → v = reqTaken s i → ws = reqWords s i →
    (∀ w : Word, Writable s i (0x020040 + 0x100 * i) → bitAt w 0 = true → i < 4 → (getMbx s i).reqGo = false →
      exec (.mbxReqCtlGo i i w) s = .next (ended s (cpAnswer i 0 0 (wakeDom (mgmtDom s) (modMbx i (fun m => { m with reqGo := true }) u)))))
    ∧ (∀ w : Word, Writable s i (0x0200C0 + 0x100 * i) → bitAt w 0 = true → i < 4 →
      ((getMbx s i).owed = none → exec (.mbxRspCtlGoClear i i w) s
        = .next (ended s (cpAnswer i 0 0 (modMbx i (fun m => { m with wakeEn := bitAt w 1, rspGo := false }) u))))
      ∧ (∀ r, (getMbx s i).owed = some r → ∃ t, exec (.mbxRspCtlGoClear i i w) s = .next (ended s (cpAnswer i 0 0 t))
        ∧ t = { u with mbx := t.mbx } ∧ (∀ j, j ≠ i → getMbx t j = getMbx s j)
        ∧ getMbx t i = { getMbx s i with wakeEn := bitAt w 1, rsp := rspWords r, rspGo := true, owed := none }))
    ∧ (Served s i 0x01 → exec (.echo i) s = .next (ended s (postReply i (mbxReply ws 0 ((msgWords ws).drop 1)) v)))
    ∧ (∀ cmd, Served s i cmd → cmd = 0 ∨ 6 < cmd → exec (.echo i) s = .next (ended s (postReply i (mbxReply ws 0x681 []) (raise 0x681 v))))
    ∧ (∀ off slot x, Served s i 0x02 → fld (ws.headD 0) 16 4 = 1 ∨ fld (ws.headD 0) 16 4 = 2 → off = (wordAt ws 1).toNat + (wordAt ws 2).toNat * 2 ^ 32 →
      (sramSize s ≤ off → exec (.imageInstall i) s = .next (ended s (postReply i (mbxReply ws 0x722 []) (raise 0x722 v))))
      ∧ (off < sramSize s → parseImage (fun a n => sramRead v (off + a) n) (sramSize s - off) = some (slot, x) → x.abiMajor = runningAbi s →
        (slotInUse s slot = false → exec (.imageInstall i) s
          = .next (ended s (postReply i (mbxReply ws 0 []) { v with img := { s.img with slots := s.img.slots.set slot x } })))
        ∧ (slotInUse s slot = true → exec (.imageInstall i) s = .next (ended s (modMbx i (fun m => { m with taken := some (.image slot (ws.headD 0)) })
            { v with img := { s.img with waiting := s.img.waiting.set slot x } })))))
    ∧ (∀ kind off bs obj, Served s i 0x03 → kind = fld (wordAt ws 1) 0 2 → off = fld (wordAt ws 1) 8 24 → bs = fragBytes ws → kind = 1 ∨ kind = 2 →
        bitAt (wordAt ws 1) 2 = true ∨ s.mrl.store.partialKind = kind → off + bs.length ≤ (if kind = 1 then 2 ^ 20 else 3 * 2 ^ 20) →
        obj = Memory.writeAll (if bitAt (wordAt ws 1) 2 then [] else s.mrl.store.partialObj) (cellsAt off bs) →
      (bitAt (wordAt ws 1) 3 = false → exec (.soilUpdate i) s = .next (ended s (postReply i (mbxReply ws 0 [])
        { v with mrl := { s.mrl with store := { s.mrl.store with partialObj := obj, partialKind := kind } } })))
      ∧ (bitAt (wordAt ws 1) 3 = true → objectOk kind obj s = true →
        exec (.soilUpdate i) s = .next (ended s (postReply i (mbxReply ws 0 []) (commitObject kind obj v))))
      ∧ (bitAt (wordAt ws 1) 3 = true → objectOk kind obj s = false → exec (.soilUpdate i) s = .next (ended s (postReply i (mbxReply ws 0x713 [])
        (raise 0x713 { v with mrl := { s.mrl with store := { s.mrl.store with partialObj := [], partialKind := 0 } } })))))
    ∧ (∀ off x, Served s i 0x04 → off = fld (wordAt ws 1) 16 16 → x = (getMbx s i).spdm →
      (reqOp ws = 0 → ∀ y z, y = (if off = 0 then { x with req := [], reqLen := 0 } else x) →
          z = { y with req := y.req.writeAll (cellsAt off (fragBytes ws)), reqLen := max y.reqLen (off + (fragBytes ws).length) } →
        exec (.measureRequestFragment i) s = .next (ended s (postReply i (mbxReply ws 0 []) (takeFree (modMbx i (fun m => { m with spdm := if bitAt (wordAt ws 1) 2 then { spdmRun (z.req.readBytes 0 z.reqLen) v z with req := [], reqLen := 0 } else z }) v)))))
      ∧ (reqOp ws = 1 → exec (.measureResponseRead i) s = .next (ended s (postReply i (mbxReply ws 0 (mbxFragment x.rsp off)) v)))
      ∧ (reqOp ws = 2 → exec (.measureIdentityRead i) s = .next (ended s (postReply i (mbxReply ws 0 (mbxFragment s.start.identity off)) v))))
    ∧ (Served s i 0x05 →
      (∀ r, reqOp ws = 0 → domOn s (marlDom s) = true → exec (.marlRead i r) s = .next (ended s (postReply i (marlReadSlot ws r v).1 (marlReadSlot ws r v).2)))
      ∧ (reqOp ws = 1 → exec (.marlFind i) s = .next (ended s (postReply i (mbxReply ws 0 (match findRec s (fld (wordAt ws 2) 0 8) (wordAt ws 3).toNat with
          | some (slot, seq) => [pk [(0, slot), (15, 1)], BitVec.ofNat 32 seq]
          | none => [0, 0])) v))))
    ∧ (Served s i 0x06 → exec (.relay i) s = .next (ended s (sendRelay (fld (wordAt ws 1) 0 10) 0x10 (selfNode s) ((msgWords ws).drop 2)
        (modMbx i (fun m => { m with taken := some (.relay (ws.headD 0) (fld (wordAt ws 1) 0 10) s.clk none none) }) v))))
    ∧ (∀ hdr d since a b, i < 4 → (getMbx s i).taken = some (.relay hdr d since a b) → since + 100000000 ≤ s.clk → exec (.relayTimeout i) s
        = .next (ended s (postReply i (mbxReply [hdr] 0x682 []) (raise 0x682 (modMbx i (fun m => { m with taken := none }) u)))))
    ∧ (∀ c, i < 4 → canTake s i = true → servesCmd s (reqCmd ws) = true → s.sup.owner ≠ some i →
        (c = .soilUpdate i ∧ reqCmd ws = 0x03 ∨ c = .relay i ∧ reqCmd ws = 0x06
          ∨ c = .imageInstall i ∧ reqCmd ws = 0x02 ∧ (fld (ws.headD 0) 16 4 = 1 ∨ fld (ws.headD 0) 16 4 = 2)) →
        exec c s = .next (ended s (postReply i (mbxReply ws 0x671 []) (raise 0x671 v))))

/-- A relayed request that is whole is served and acknowledged, or draws a NAK of reason 1 while an earlier one waits; a relay's whole
answer goes to the supervisor. A good Marl write commits its record into its slot and the index; a bad read-back writes it
again into the next slot, and a second one loses it with 0x902. A second's counts go to summary records; a crash dump is queued, or
counted during another; the log ring takes an entry, or counts its drop with 0x940 (R407, R470-R472, R474-R476, R478, R496). -/
def Obligations.RelaysRecordsAndLogs : Prop :=
  ∀ (s u v : State) (l plot : Nat) (p : Packet), u = fresh s → v = taken s l p →
    (∀ n, Arrives s l p 0x60 plot → p.ar 16 1 = 0x10 → p.ar 17 1 = 2 → n = p.ar 18 2 % 1024 →
      (icqRuns s = true → (getMbx s (relayBox n)).reqGo = false → exec (.relayRequest l p) s = .next (after s (mgmtAnswer p 0x61 0
        (serveRelayed n (bytesWords (fragOf p)) { v with mgt := { s.mgt with relayIn := ((s.mgt.relayIn.set (2 * n) (fragOf p, true)).del (2 * n)).del (2 * n + 1) } }))))
      ∧ (icqRuns s = false ∨ (getMbx s (relayBox n)).reqGo = true → exec (.relayRequest l p) s = .next (after s (mgmtAnswer p 0x62 1 v))))
    ∧ (∀ i hdr since a b, Arrives s l p 0x60 plot → p.ar 16 1 = 0x11 → p.ar 17 1 = 2 → i < 4 → (getMbx s i).taken = some (.relay hdr p.src since a b) →
        (∀ j, j ≠ i → ∀ h t x y, (getMbx s j).taken ≠ some (.relay h p.src t x y)) →
      exec (.relayReply l p) s = .next (after s (mgmtAnswer p 0x61 0 (postReply i (mbxReply [hdr] 0 (msgWords (bytesWords (fragOf p))))
        (modMbx i (fun m => { m with taken := none }) v)))))
    ∧ (∀ c, domOn s (marlDom s) = true → s.mrl.cur = some c →
      (∃ t, exec (.marlCommitDone .good) s = .next t ∧ t.mrl.cur = none ∧ t.mrl.seq = s.mrl.seq + 1
        ∧ t.mrl.slots = s.mrl.slots.set c.slot { seq := (s.mrl.seq + 1).toNat, record := c.record, committed := true })
      ∧ (c.retried = false → ∀ n m, takeSlot c.record.kind s.mrl = (n, m) → exec (.marlCommitDone .badReadback) s
        = .next (ended s { u with mrl := { m with cur := some { c with slot := n, retried := true } } }))
      ∧ (c.retried = true → exec (.marlCommitDone .badReadback) s = .next (ended s (raise 0x902 { u with mrl := { s.mrl with cur := none, dumpLeft := if c.record.kind = 0x10 then s.mrl.dumpLeft - 1 else s.mrl.dumpLeft } }))))
    ∧ (∀ (r : MarlRec) (n k : Nat) (m m2 : Marl), domOn s (marlDom s) = true → s.mrl.cur = none → nextRec s.mrl.queue = some r → takeSlot r.kind { s.mrl with queue := s.mrl.queue.erase r } = (n, m) →
        takeSlot r.kind m = (k, m2) → exec (.marlCommitDone .badReadback) s = .next (ended s { u with mrl := { m2 with cur := some { record := r, slot := k, retried := true } } }))
    ∧ (s.sun.time / 10 ^ 9 ≠ s.mrl.second → ∃ t, exec .sundialSecond s = .next (ended s t) ∧ t.mrl.second = s.sun.time / 10 ^ 9 ∧ t.mrl.counts = []
        ∧ ∃ q, t.mrl.queue = s.mrl.queue ++ q ∧ q.map (fun r => r.body) = ((List.range 4).map (fun k => ((summaryEntries s.mrl.counts).drop (57 * k)).take 57)
            |>.filter (fun es => !es.isEmpty)).map (fun es => MarlBody.summary es))
    ∧ (∀ sv w, Writable s sv 0x4D0000 →
      (bitAt w 0 = true → bitAt w 10 = false → exec (.crashDump sv w) s = .next (ended s (cpAnswer sv 0 0 (takeDump 0 u))))
      ∧ (bitAt w 10 = true → bitAt w 0 = false → exec (.missedClr sv w) s = .next (ended s (cpAnswer sv 0 0 { u with mrl := { s.mrl with dumpMissed := 0 } }))))
    ∧ (∀ y trigger, (0 < y.mrl.dumpLeft → takeDump trigger y = { y with mrl := { y.mrl with dumpMissed := satInc 255 y.mrl.dumpMissed } })
      ∧ (y.mrl.dumpLeft = 0 → (takeDump trigger y).mrl.dumpLeft = dumpParts y ∧ (takeDump trigger y).mrl.nextDump = (if y.mrl.dumpHalf then 4096 else 2048)
        ∧ (takeDump trigger y).mrl.queue.length = y.mrl.queue.length + dumpParts y))
    ∧ (∀ severity source code text, icqRuns s = true →
      (s.mrl.logRing.length < 6 → ∀ e, e = logEntry s severity source code text → exec (.firmwareLogEntry severity source code text) s
        = .next (ended s { u with mrl := { s.mrl with logRing := s.mrl.logRing ++ [e], logSeq := s.mrl.logSeq + 1, logHist := (s.mrl.logHist ++ [e]).drop (s.mrl.logHist.length - 1023) } }))
      ∧ (s.mrl.logRing.length = 4096 → exec (.firmwareLogEntry severity source code text) s
        = .next (ended s (if s.mrl.logDropFlag then { u with mrl := { s.mrl with logSeq := s.mrl.logSeq + 1, logDrop := satInc 0xFFFFFFFF s.mrl.logDrop } }
            else raise 0x940 { u with mrl := { s.mrl with logSeq := s.mrl.logSeq + 1, logDrop := satInc 0xFFFFFFFF s.mrl.logDrop, logDropFlag := true } }))))

/-- The collector takes the fault that is next in order at its level, or one above the highest open entry of its class that is neither
acknowledged nor a consequence: an L0 fault is counted by its area, an L1 to L3 fault opens the lowest free entry or is counted as lost,
with 0xF40 once; L2 freezes its plot, L3 stops furrows, beds and links once, and Safe powers the block off. An acknowledgement marks one entry or all, and an entry that
is acknowledged and cleared closes; a read of FLT_LOST answers the count and clears it (R412-R417, R419-R423, R448). -/
def Obligations.FaultsAreTakenByTheirLevel : Prop :=
  ∀ (s u : State) (sv : Nat) (w : Word), u = fresh s →
    (∀ e lvl esc y z m, firstFault s.flt.inflight = some e → takenLevel s e = (lvl, esc) →
        y = siltAt e.time (siltUnit e.kind e.unit).1 (siltUnit e.kind e.unit).2 e.code e.layer e.op (e.plot.getD 0) (e.unit % 256) (e.detail % 65536)
          { u with flt := { s.flt with inflight := s.flt.inflight.erase e } } →
        z = (if lvl = .l0 then countArea e.code y else if lvl = .safe then y else openEntry e lvl esc y) →
        m = marlFault e lvl esc (if lvl = .l0 ∨ lvl = .safe then none else freeEntry s) z →
      (lvl = .l0 ∨ lvl = .l1 → exec .faultRaised s = .next (after s m))
      ∧ (∀ p x y2, lvl = .l2 → e.plot = some p → x = modFlt (fun f => { f with plotFault := setBit f.plotFault p true }) m →
          y2 = (plotFurrows x p).foldl (fun s f => freezeFur e.code f s) x →
          exec .faultRaised s = .next (after s (((openBeds y2).filter (fun c => (getBed y2 c).plot == p)).foldl (fun s c => abandonBed c e.code true s) y2)))
      ∧ (lvl = .l3 → (holds s e.code = true ∨ s.flt.l3 = true ∨ s.flt.safe = true → exec .faultRaised s = .next (after s m))
          ∧ (∀ x y2 y3, holds s e.code = false → s.flt.l3 = false → s.flt.safe = false → x = modFlt (fun f => { f with l3 := true }) m →
            y2 = (allFurs x).foldl (fun s f => haltFur e.code f s) x → y3 = (openBeds y2).foldl (fun s c => abandonBed c e.code true s) y2 →
            exec .faultRaised s = .next (after s (takeDump e.code (if e64 y3 then y3 else loseLinks (allLinks y3) y3)))))
      ∧ (lvl = .safe → (s.flt.safe = true → exec .faultRaised s = .next (after s m))
          ∧ (∀ x y2 y3, s.flt.safe = false → x = modFlt (fun f => { f with safe := true, safeCode := e.code % 4096 }) m →
            y2 = { x with start := { x.start with state := 3, running := false, wake := 0 }, glb := { x.glb with cycBusy := false, req := none } } →
            y3 = (allFurs y2).foldl (fun s f => haltFur e.code f s) y2 →
            exec .faultRaised s = .next (after s (takeDump e.code (safeRecord e.code (safeDomains (loseLinks (allLinks y3) y3))))))))
    ∧ (∀ (e : FaultEv), (e.level = .l0 ∨ e.conseq = true ∨ rivals s e.code e.plot = [] → e.level ≠ .l2 ∨ e.plot.isSome = true → takenLevel s e = (e.level, false))
      ∧ (∀ x, e.level ≠ .l0 → e.conseq = false → rivals s e.code e.plot = [x] → x.level ≠ .l0 → x.level.up ≠ .l2 → e.level ≠ .l2 → (takenLevel s e).1 = e.level.max x.level.up))
    ∧ (∀ (e : FaultEv) lvl esc i, freeEntry s = some i → openEntry e lvl esc s = { s with flt := { s.flt with isNew := true, entries := s.flt.entries.set i { valid := true, code := e.code, level := lvl, escalated := esc, conseq := e.conseq, plot := e.plot, kind := e.kind, unit := e.unit, time := e.time, layer := e.layer, op := e.op, detail := if lvl = .l1 then e.detail else 0, furrow := e.furrow, cleared := lvl == .l1 && causeGone s e } } })
    ∧ (∀ (e : FaultEv) lvl esc, freeEntry s = none → (openEntry e lvl esc s).flt.lost = satInc 0xFFFFFFFF s.flt.lost ∧ (openEntry e lvl esc s).flt.fullNoted = true
        ∧ (s.flt.fullNoted = true → (openEntry e lvl esc s).flt.inflight = s.flt.inflight)
        ∧ (s.flt.fullNoted = false → ∃ x, (openEntry e lvl esc s).flt.inflight = s.flt.inflight ++ [x] ∧ x.code = 0xF40))
    ∧ (∀ code, (countArea code s).flt.area = s.flt.area.set (code / 256 % 16) (s.flt.area.at (code / 256 % 16) + 1))
    ∧ (Writable s sv 0x030004 → ∀ c mine es, (c = .fltAck sv w ∧ bitAt w 5 = false ∧ mine = (fun i => decide (i = fld w 0 5))) ∨ (c = .fltAckAll sv w ∧ bitAt w 5 = true ∧ mine = (fun _ => true)) →
        es = (s.flt.entries.mapVals (fun i e => if mine i then { e with acked := true } else e)).filter (fun e => !(e.2.cleared && e.2.acked)) →
      exec c s = .next (ended s (cpAnswer sv 0 0 { u with flt := { s.flt with entries := es, fullNoted := s.flt.fullNoted && decide (es.length = s.flt.entries.length) } })))
    ∧ (Readable s sv 0x030008 → exec (.fltLost sv) s = .next (ended s (cpAnswer sv 0 (BitVec.ofNat 32 s.flt.lost) { u with flt := { s.flt with lost := 0 } })))

/-- A fence takes a live unit that is not the last of its kind out of service with what it worked on, and is refused otherwise (0xF20,
0x4F0 for slices, 0x3CF for Sieve units). The slot pool is sized while no bed is open, a laggard is forgotten, and each peak restarts from
what is held now (log 87). An engine that has not released its work 1 ms after its reset has its domain cycled, or fails with
0x851; an error in a unit's control state fences it, at L3 for the last one (R213, R220, R221, R245, R248, R288, R304, R430, R432, R448). -/
def Obligations.FencesPeaksAndHungEngines : Prop :=
  ∀ (s u : State) (sv : Nat) (w : Word), u = fresh s →
    (∀ kind i, Writable s sv 0x03000C → bitAt w 9 = true → kind = fld w 0 2 → i = fld w 2 7 →
      (i ∈ fenceable s kind → (fencedOf s kind).testBit i = false → lastLive s kind i = false →
        (kind = 0 → exec (.fltFence sv w) s = .next (after s (cpAnswer sv 0 0 (loseLinks (portLinks s i) { u with flt := { s.flt with fencedPrt := setBit s.flt.fencedPrt i true } }))))
        ∧ (kind = 1 → exec (.fltFence sv w) s = .next (after s (cpAnswer sv 0 0 (loseSegs 0xF11 (fun e => e == i) { u with flt := { s.flt with fencedXfr := setBit s.flt.fencedXfr i true } }))))
        ∧ (kind = 2 → exec (.fltFence sv w) s = .next (after s (cpAnswer sv 0 0 ((groupFurrows i).foldl (fun s f => killFur f s)
            { u with flt := { s.flt with fencedFur := setBit s.flt.fencedFur i true } }))))
        ∧ (kind = 3 → exec (.fltFence sv w) s = .next (after s (cpAnswer sv 0 0 (fenceBank i u)))))
      ∧ (i ∉ fenceable s kind ∨ ((fencedOf s kind).testBit i = false ∧ lastLive s kind i = true) → exec (.fltFence sv w) s = .next (after s (cpAnswer sv 0 0 (raise 0xF20 u)))))
    ∧ (∀ m, Writable s sv 0x450104 → m = s.coll.sliceFence ||| (w &&& BitVec.ofNat 32 (2 ^ sliceCount s - 1)) → m ≠ s.coll.sliceFence →
      (m.toNat ≠ 2 ^ sliceCount s - 1 → exec (.hrwSliceFence sv w) s = .next (after s (cpAnswer sv 0 0 { u with coll := { s.coll with sliceFence := m } })))
      ∧ (m.toNat = 2 ^ sliceCount s - 1 → exec (.hrwSliceFence sv w) s = .next (after s (cpAnswer sv 0 0 (raise 0x4F0 u)))))
    ∧ (∀ m us, Writable s sv 0x460004 → m = s.coll.sivFence ||| (w.setWidth 4 &&& BitVec.ofNat 4 (2 ^ unitCount s - 1)) →
        us = (List.range (unitCount s)).filter (fun i => bitAt m i && !bitAt s.coll.sivFence i) → us ≠ [] →
      (m.toNat ≠ 2 ^ unitCount s - 1 → exec (.sivFence sv w) s = .next (after s (cpAnswer sv 0 0 (us.foldl (fun s i => dropUnit i 0x3C1 s) { u with coll := { s.coll with sivFence := m } }))))
      ∧ (m.toNat = 2 ^ unitCount s - 1 → exec (.sivFence sv w) s = .next (after s (cpAnswer sv 0 0 (raise 0x3CF u)))))
    ∧ (Writable s sv 0x450000 →
      (openBeds s = [] → fld w 0 11 ≤ poolMax s → exec (.hrwPoolCfg sv w) s = .next (ended s (cpAnswer sv 0 0 { u with coll := { s.coll with poolCfg := some (fld w 0 11) } })))
      ∧ (openBeds s ≠ [] ∨ poolMax s < fld w 0 11 → exec (.hrwPoolCfg sv w) s = .next (ended s (cpAnswer sv 0 0 (raise 0x331 u)))))
    ∧ (∀ ctx, ctx < 256 → Writable s sv (0x440000 + 0x80 * ctx + 0x20) → bitAt w 31 = true → (getBed s ctx).isOpen = true → exec (.hrwLagWorstClear sv ctx w) s
        = .next (ended s (cpAnswer sv 0 0 (modBed ctx (fun b => { b with lag := { b.lag with worst := 0, worstNs := 0, valid := false } }) u))))
    ∧ (Writable s sv 0x450004 → bitAt w 22 = true → exec (.hrwPoolPeakClr sv w) s = .next (ended s (cpAnswer sv 0 0 { u with coll := { s.coll with peak := s.coll.slots.length } })))
    ∧ (Writable s sv 0x450110 → bitAt w 24 = true → exec (.hrwDeepPeakClr sv w) s = .next (ended s (cpAnswer sv 0 0 { u with coll := { s.coll with deepPeak := deepUsed s } })))
    ∧ (Writable s sv 0x460010 → bitAt w 14 = true → exec (.sivDispPeakClr sv w) s = .next (ended s (cpAnswer sv 0 0 { u with coll := { s.coll with dispPeak := s.coll.disp.length } })))
    ∧ (Writable s sv 0x470004 → bitAt w 21 = true → ∃ t, exec (.dibPeakClr sv w) s = .next (ended s (cpAnswer sv 0 0 { u with coll := t }))
        ∧ t.dibPeak = s.coll.dslots.length ∧ t = { s.coll with dibPeak := t.dibPeak, stepsWrap := t.stepsWrap, ddupWrap := t.ddupWrap })
    ∧ (∀ k x d y, s.flt.engResets[k]? = some x → x.since + 1000000 ≤ s.clk → s.glb.cycBusy = false → d = unitDom s x.kind x.unit →
        y = note 0x850 none x.kind x.unit { u with flt := { s.flt with engResets := s.flt.engResets.eraseIdx k } } →
      (mayCycle s d = true → exec (.engineResetTimeout k) s = .next (after s (startCycle d true y)))
      ∧ (mayCycle s d = false → exec (.engineResetTimeout k) s = .next (after s (raise 0x851 { y with glb := { s.glb with cycBusy := false, cycFailed := true } }))))
    ∧ (∀ kind i, kind < 3 → i ∈ fenceable s kind → (fencedOf s kind).testBit i = false → ∃ ev : FaultEv, exec (.controlStateError kind i) s = .next (after s (fenceUnit kind i (raiseEv ev u)))
        ∧ ev.code = 0xF10 + kind ∧ ev.level = (if lastLive s kind i then Level.l3 else .l0))
    ∧ (∀ i, exec (.controlStateError 3 i) s = .next (after s (raise 0xF00 u)))

/-- A write of GLB_RESET_CTL or a low WARM_RST_N requests its reset with its cause and the highest open fault, stops the block and queues
the reset record; a warm one is refused in the Safe state, a domain that is absent draws 0xF20, and a domain cycle begins or draws
0x853. A ready reset acts: a warm one begins a start at step 2 with no furrow, tally, bed or open entry, keeping the cause; a cold one and
COLD_RST_N go back to the Cold values. Losing VDD keeps what the Marl has committed; a pulse too short is noted with 0x802 (R426-R428,
R431, R447, R454, R505, R506). -/
def Obligations.ResetsAreRequestedAndAct : Prop :=
  ∀ (s u : State) (sv d : Nat) (w : Word), u = fresh s → d = fld w 3 7 →
    (Writable s sv 0x000010 →
      (d < domCount s →
        (∀ r, bitAt w 1 = true → s.glb.req = none → r = { kind := .cold, cause := 2, openCode := highestOpen s, fromL3 := s.flt.l3, fromSafe := s.flt.safe, since := s.clk } →
          exec (.cold sv w) s = .next (after s (cpAnswer sv 0 0 (resetRecord 2 (highestOpen s)
            { u with glb := { s.glb with domain := d, req := some r, stopped := true }, start := { s.start with failed := 0, running := false } }))))
        ∧ (∀ r, bitAt w 0 = true → bitAt w 1 = false → s.flt.safe = false → inRun s = true → s.glb.req = none →
            r = { kind := .warm, cause := 4, openCode := highestOpen s, fromL3 := s.flt.l3, fromSafe := false, since := s.clk } →
          exec (.warm sv w) s = .next (after s (cpAnswer sv 0 0 (resetRecord 4 (highestOpen s) (stopPorts
            { u with glb := { s.glb with domain := d, req := some r, stopped := true }, start := { s.start with running := false } })))))
        ∧ (bitAt w 0 = true → bitAt w 1 = false → s.flt.safe = true → exec (.warm sv w) s = .next (after s (cpAnswer sv 0 0 (raise 0xF20 u))))
        ∧ (bitAt w 2 = true → bitAt w 1 = false → bitAt w 0 = false → s.flt.safe = false →
          (mayCycle s d = true → s.glb.cycBusy = false → (getDom s d).req = (getDom s d).ack →
            exec (.domCycle sv w) s = .next (after s (cpAnswer sv 0 0 (startCycle d false { u with glb := { s.glb with domain := d } }))))
          ∧ (mayCycle s d = false ∨ s.glb.cycBusy = true ∨ (getDom s d).req ≠ (getDom s d).ack →
            exec (.domCycle sv w) s = .next (after s (cpAnswer sv 0 0 (raise 0x853 u))))))
      ∧ (domCount s ≤ d → ∀ c, (c = .warm sv w ∧ bitAt w 0 = true) ∨ (c = .cold sv w ∧ bitAt w 1 = true) ∨ (c = .domCycle sv w ∧ bitAt w 2 = true) →
        exec c s = .next (after s (cpAnswer sv 0 0 (raise 0xF20 u)))))
    ∧ (∀ r, s.glb.req = some r → resetReady s r = true →
      (r.kind = .warm → exec .resetAct s = .next (ended s (actWarm r u)))
      ∧ (r.kind = .cold → exec .resetAct s = .next (ended s (actCold s.glb.ties s.glb.warmPin dropAll
          { u with glb := { s.glb with cause := r.cause, openCode := r.openCode, fromL3 := r.fromL3, fromSafe := r.fromSafe } }))))
    ∧ (∀ r y, (actWarm r y).glb.cause = r.cause ∧ (actWarm r y).glb.openCode = r.openCode ∧ (actWarm r y).glb.req = none ∧ (actWarm r y).start.state = 0
        ∧ (actWarm r y).start.step = 1 ∧ (actWarm r y).start.warm = true ∧ (actWarm r y).fur = [] ∧ (actWarm r y).tally = [] ∧ (actWarm r y).coll.beds = []
        ∧ (actWarm r y).flt.entries = [] ∧ (actWarm r y).coll.sliceFence = y.coll.sliceFence ∧ (actWarm r y).trl.bankA = y.trl.bankA)
    ∧ (∀ t go keep y, (actCold t go keep y).glb.ties = t ∧ (actCold t go keep y).glb.req = none ∧ (actCold t go keep y).start.state = 0 ∧ (actCold t go keep y).start.step = 0
        ∧ (actCold t go keep y).start.warm = false ∧ (actCold t go keep y).start.running = go ∧ (actCold t go keep y).plots = [] ∧ (actCold t go keep y).fur = []
        ∧ (actCold t go keep y).tally = [] ∧ (actCold t go keep y).flt = {} ∧ (actCold t go keep y).mrl.slots = y.mrl.slots ∧ (actCold t go keep y).coll.sliceFence = 0)
    ∧ (∀ r, s.glb.warmPin = true → s.glb.coldPin = true → s.flt.safe = false → inRun s = true → s.glb.req = none →
        r = { kind := .warm, cause := 3, openCode := highestOpen s, fromL3 := s.flt.l3, fromSafe := false, since := s.clk } →
      exec .warmRstN s = .next (after s (resetRecord 3 (highestOpen s) (stopPorts
        { u with glb := { s.glb with warmPin := false, req := some r, stopped := true }, start := { s.start with running := false } }))))
    ∧ (s.start.state ≠ 0 → exec .warmRstNRelease s = .next (ended s { u with glb := { s.glb with warmPin := true } }))
    ∧ (s.glb.warmPin = false → s.glb.coldPin = true → s.start.state = 0 → s.start.running = false → s.glb.req = none → s.start.step = s.start.warm.toNat →
      exec .warmRstNRelease s = .next (ended s { u with glb := { s.glb with warmPin := true }, start := { s.start with running := true, since := s.clk, stepSince := s.clk } }))
    ∧ (2 ≤ s.start.state → s.glb.coldPin = true → exec .resetPulseRejected s = .next (ended s (raise 0x802 u)))
    ∧ (∀ c, c = .powerOn ∨ c = .powerLoss → ∃ t, exec c s = .next (ended s t) ∧ t.glb.coldPin = false ∧ t.glb.cause = 0 ∧ t.start.running = false ∧ t.start.failed = 0
        ∧ t.mrl.slots = s.mrl.slots ∧ t.fur = [] ∧ t.plots = [] ∧ ∀ e ∈ t.pwr.doms, e.2.on = false ∧ e.2.ack = false)
    ∧ (∀ ties, (s.glb.coldPin = true → ∃ t, exec (.coldRstN false ties) s = .next (ended s t) ∧ t.glb.coldPin = false ∧ t.glb.cause = 1 ∧ t.glb.openCode = highestOpen s
          ∧ t.glb.ties = s.glb.ties ∧ t.start.running = false ∧ t.fur = [] ∧ t.plots = [])
      ∧ (s.glb.coldPin = false → ∃ t, exec (.coldRstN true ties) s = .next (ended s t) ∧ t.glb.coldPin = true ∧ t.glb.ties = ties ∧ t.glb.cause = s.glb.cause
          ∧ t.start.running = true ∧ t.start.step = 0 ∧ t.start.warm = false ∧ t.mrl.slots = s.mrl.slots))

/-- A start step that has done its work lets the next one begin: step 1 checks the tie-offs, step 2 asks for the management and Marl domains
unless three starts have failed, step 10 of a cold start zeroes buffer SRAM, step 13 applies the profile, and step 16 ends in RUN. Bad
tie-offs and versions hold the block. A step that passes its bound or an Icquel that stands still fails the start: its third failure ends in
0x742, an earlier one in a cold start. The bounds of steps 14 and 15 let it go on, and Icquel beats each millisecond (R3, R399, R433, R445,
R454, R456-R458, R460, R467). -/
def Obligations.StartRunsItsSteps : Prop :=
  ∀ (s u : State) (r : StepReport), u = fresh s →
    (curStep s = 1 → s.start.state = 0 → s.glb.ties.tstEn = false →
      (tiesOk s.glb.ties = true → exec (.startStepDone r) s = .next (after s { u with start := { s.start with step := 1, stepSince := s.clk } }))
      ∧ (tiesOk s.glb.ties = false → exec (.startStepDone r) s = .next (after s (holdBlock 0x710 u))))
    ∧ (curStep s = 2 → s.start.state = 0 →
      (s.start.failed ≠ 3 → exec (.startStepDone r) s = .next (after s (needDom (marlDom s) (needDom (mgmtDom s) { u with start := { s.start with step := 2, stepSince := s.clk } }))))
      ∧ (s.start.failed = 3 → exec (.startStepDone r) s = .next (after s (raise 0x742 { u with start := { s.start with running := false } }))))
    ∧ (curStep s = 8 → ∀ code a b, versionFault s = some (code, a, b) →
      exec (.startStepDone r) s = .next (after s (holdBlock code { u with start := { s.start with ver := pk [(0, a), (16, b)] } })))
    ∧ (curStep s = 10 → s.start.state = 0 → s.start.warm = false →
      (r.ramBad = false → r.badBanks = [] → exec (.startStepDone r) s = .next (after s
        ((List.range (domCount s)).foldl (fun s d => needDom d s) { sramZero u with start := { s.start with step := 10, stepSince := s.clk } })))
      ∧ (r.ramBad = true → exec (.startStepDone r) s = .next (after s (failStart 0x741 u))))
    ∧ (∀ y, (curSram y).wf = true → curSram (sramZero y) = [])
    ∧ (curStep s = 13 → ∀ y, y = applyProfile u → y.start.state = 0 → exec (.startStepDone r) s
        = .next (after s (trainAll { y with start := { y.start with step := 13, stepSince := y.clk } })))
    ∧ (curStep s = 16 → s.start.state = 0 → startQueued s = false → exec (.startStepDone r) s = .next (after s { u with start := { s.start with state := 2, step := 16, running := false, failed := 0, timeUs := startUs s }, sup := { s.sup with hbSince := s.clk, hbRun := s.sup.hbLimit }, flt := { s.flt with beatSince := s.clk } }))
    ∧ (curStep s ≠ 0 → curStep s ≠ 14 → curStep s ≠ 15 → s.start.stepSince + startBound s (curStep s) ≤ s.clk →
      exec .startStepTimeout s = .next (after s (failStart 0x740 u)))
    ∧ (s.start.state = 0 → s.start.running = true → 9 ≤ s.start.step → s.flt.beatSince + 10000000 ≤ s.clk → exec .icquelStallExpiry s = .next (after s (failStart 0x740 u)))
    ∧ (∀ code y, (y.start.failed < 2 → (failStart code y).start.failed = y.start.failed + 1 ∧ (failStart code y).start.step = 0 ∧ (failStart code y).start.warm = false)
      ∧ (2 ≤ y.start.failed → (failStart code y).start.failed = 3 ∧ (failStart code y).start.running = false))
    ∧ (curStep s = 14 → s.start.state = 0 → s.start.stepSince + startBound s 14 ≤ s.clk → exec .startTrainingBoundExpiry s = .next (after s (startOn 14 (trainRest u))))
    ∧ (curStep s = 15 → s.start.state = 0 → s.start.stepSince + startBound s 15 ≤ s.clk → ∀ y, y = endLock u →
      exec .sundialLockBoundExpiry s = .next (after s (startOn 15 (if y.sun.state = .locked then y else raise 0x921 y))))
    ∧ (icqRuns s = true → 9 ≤ s.start.step → s.flt.beatSince + 1000000 ≤ s.clk →
      exec .icqBeat s = .next (ended s { u with flt := { s.flt with icqBeat := s.flt.icqBeat + 1, beatSince := s.clk } }))

/-- An access whose parity is right and that reaches its register is answered with status 0 and has the register's effect; a misaligned
one draws status 1 and 0x8F0, one outside the regions 0x8F3, one to a unit that the build lacks reads zero, one to a domain that is off
draws status 2, a write without the right is ignored and counted, wrong parity draws status 1 and 0x8F2, and no answer in time
status 3 and 0x8F1. While CP_CLK is absent, noted once with 0x803, nothing is answered (R7, R18, R393, R394, R514, R516, R517, R559-R561). -/
def Obligations.ControlPortAnswersEveryAccess : Prop :=
  ∀ (s u : State) (sv : Nat) (a : BitVec 24) (w : Word) (par : BitVec 2), u = fresh s →
    par.getLsbD 0 = reqParity sv true a.toNat → par.getLsbD 1 = oddParity w →
    (Writable s sv a.toNat → exec (.registerWrite sv a w par) s = .next (after s (cpAnswer sv 0 0 (regWrite sv a.toNat w u))))
    ∧ (Readable s sv a.toNat → exec (.registerRead sv a (reqParity sv false a.toNat)) s
        = .next (after s (cpAnswer sv 0 (regRead sv a.toNat u).1 (regRead sv a.toNat u).2)))
    ∧ (∀ c, c = .registerWrite sv a w par ∨ c = .registerRead sv a (reqParity sv false a.toNat) → cpServes s sv = true →
      (a.toNat % 4 ≠ 0 → exec c s = .next (after s (cpAnswer sv 1 0 (raise 0x8F0 u))))
      ∧ (a.toNat % 4 = 0 → inRegion a.toNat = false → exec c s = .next (after s (cpAnswer sv 0 0 (raise 0x8F3 u))))
      ∧ (a.toNat % 4 = 0 → inRegion a.toNat = true → cpAbsent s a.toNat = true → exec c s = .next (after s (cpAnswer sv 0 0 u)))
      ∧ (∀ d, a.toNat % 4 = 0 → inRegion a.toNat = true → cpAbsent s a.toNat = false → cpDomain s a.toNat = some d → domOn s d = false →
        exec c s = .next (after s (cpAnswer sv 2 0 u))))
    ∧ (Readable s sv a.toNat → mayWrite s sv a.toNat = false → exec (.registerWrite sv a w par) s = .next (after s (cpAnswer sv 0 0
        (if bitAt s.sup.events 3 then { u with sup := { s.sup with denied := s.sup.denied.set sv (satInc 255 (s.sup.denied.at sv)), events := setBit s.sup.events 3 true } }
         else raise 0x671 { u with sup := { s.sup with denied := s.sup.denied.set sv (satInc 255 (s.sup.denied.at sv)), events := setBit s.sup.events 3 true } }))))
    ∧ (∀ bad : BitVec 2, cpServes s sv = true → bad ≠ par →
      exec (.registerWrite sv a w bad) s = .next (after s (cpAnswer sv 1 0 (raise 0x8F2 u)))
      ∧ exec (.registerRead sv a (!reqParity sv false a.toNat)) s = .next (after s (cpAnswer sv 1 0 (raise 0x8F2 u))))
    ∧ (∀ wr, Readable s sv a.toNat → exec (.cpAnswerTimeout sv wr a) s = .next (ended s (cpAnswer sv 3 0 (raise 0x8F1 u))))
    ∧ (s.pwr.cpClk = true → exec .cpClkAbsent s = .next (ended s (raise 0x803 { u with pwr := { s.pwr with cpClk := false } })))
    ∧ exec .cpClkReturn s = .next (ended s { u with pwr := { s.pwr with cpClk := true } })
    ∧ (s.pwr.cpClk = false → ∀ c, c = .registerWrite sv a w par ∨ c = .registerRead sv a (reqParity sv false a.toNat) → exec c s = .next (after s u))

/-- The owner switches a present domain on or off while nothing else runs, and is refused with 0x820 otherwise; a domain idle for idle_us is
gated. The die's PWR_ACK turns the domain on or off as it was asked, and is noted with 0x805 when it was not; one that is late
outside a start fails the cycle. Heat and droop throttle and are noted, and the reference PLL's loss puts the Sundial in Holdover
(R430, R490, R504, R508, R509, R548, R549, R552, R553, R556-R558). -/
def Obligations.PowerFollowsItsRules : Prop :=
  ∀ (s u : State) (sv d : Nat) (w : Word) (x : Dom), u = fresh s → x = getDom s d →
    (d = fld w 0 7 → Writable s sv 0x4F000C → bitAt w 8 = true → ∀ y : State, y = { u with pwr := { s.pwr with reqReg := w &&& 0xFF } } →
      (domCount s ≤ d ∨ s.glb.cycBusy = true ∨ s.pwr.busy.isSome = true ∨ x.req ≠ x.ack → exec (.pwrDomReq sv w) s = .next (after s (cpAnswer sv 0 0 (raise 0x820 u))))
      ∧ (d < domCount s → s.glb.cycBusy = false → s.pwr.busy = none → x.req = x.ack →
        (bitAt w 7 = true → x.req = false → exec (.pwrDomReq sv w) s = .next (after s (cpAnswer sv 0 0
          (raiseReq d { y with pwr := { y.pwr with busy := some (d, true) } }))))
        ∧ (bitAt w 7 = true → x.req = true → exec (.pwrDomReq sv w) s = .next (after s (cpAnswer sv 0 0 y)))
        ∧ (bitAt w 7 = false → x.req = true → offAllowed s d = true → exec (.pwrDomReq sv w) s = .next (after s (cpAnswer sv 0 0 (ownerOff d y))))
        ∧ (bitAt w 7 = false → x.req = true → offAllowed s d = false → exec (.pwrDomReq sv w) s = .next (after s (cpAnswer sv 0 0 (raise 0x820 u))))))
    ∧ (∀ lev, d < domCount s → lev ≠ x.ack →
      (lev = x.req → ∃ t, exec (.pwrAck d lev) s = .next (after s t) ∧ t = (if lev then domUp d else domDown d) (modDom d (fun x => { x with ack := lev, late := false }) u))
      ∧ (lev ≠ x.req → x.noted805 = false → exec (.pwrAck d lev) s = .next (after s (raise 0x805 (modDom d (fun x => { x with noted805 := true }) u)))))
    ∧ (d < domCount s → x.req ≠ x.ack → x.late = false → x.reqSince + 1000000 ≤ s.clk → (s.start.state ≠ 0 ∨ s.start.running = false) → ∀ y : State,
        y = modDom d (fun x => { x with late := true }) { u with pwr := { s.pwr with busy := none } } →
      exec (.pwrAckTimeout d) s = .next (after s (raise 0x851 { y with glb := { s.glb with cycBusy := false, cycFailed := true } })))
    ∧ (∀ b, gateBit (domKind s d) = some b → bitAt s.pwr.gateCfg b = true → d < domCount s → x.on = true → x.req = true → x.ack = true → x.isolated = false →
        domIdle u d = true → inRun s = true → (s.glb.cycBusy = false ∨ s.glb.cycDomain ≠ d) → x.idleSince + fld s.pwr.gateCfg 8 16 * 1000 ≤ s.clk →
      exec (.selfGateIdleExpiry d) s = .next (after s (modDom d (fun x => { x with selfOff := true, isolated := true, req := false, reqSince := s.clk }) u)))
    ∧ exec (.thermWarnN true) s = .next (ended s { u with pwr := { s.pwr with thermLow := false, therm2 := false } })
    ∧ (s.pwr.thermLow = false → s.glb.coldPin = true → exec (.thermWarnN false) s
        = .next (ended s (raise 0x810 { u with pwr := { s.pwr with thermLow := true, thermSince := s.clk, thermEvt := true } })))
    ∧ (s.pwr.thermLow = true → s.pwr.therm2 = false → s.pwr.thermSince + s.pwr.thermLimit * 10 ^ 9 ≤ s.clk → exec .thermLimitExpiry s
        = .next (ended s (raise 0x812 { u with pwr := { s.pwr with therm2 := true, thermEvt := true } })))
    ∧ (s.pwr.droopLow = true → exec (.vdroopN true) s = .next (ended s { u with pwr := { s.pwr with droopLow := false, droopHold := some s.clk } }))
    ∧ (s.pwr.droopLow = false → s.glb.coldPin = true → exec (.vdroopN false) s
        = .next (ended s (raise 0x811 { u with pwr := { s.pwr with droopLow := true, droopHold := none, droopEvt := true } })))
    ∧ (∀ t, s.pwr.droopHold = some t → t + 1000 ≤ s.clk → exec .droopHoldExpiry s = .next (ended s { u with pwr := { s.pwr with droopHold := none } }))
    ∧ (s.pwr.refLock = true → pastLock s = true →
      (s.sun.state ≠ .holdover → exec .refPllLockLoss s = .next (ended s (raise 0x920 (raise 0x801
        { u with pwr := { s.pwr with refLock := false }, sun := { s.sun with state := .holdover, holdoverEvt := true, good := 0 } }))))
      ∧ (s.sun.state = .holdover → exec .refPllLockLoss s = .next (ended s (raise 0x801 { u with pwr := { s.pwr with refLock := false } }))))
    ∧ (∀ k, (k = 0 ∧ s.pwr.tLock = true ∨ k = 1 ∧ s.pwr.bLock = true ∨ k = 2 ∧ s.pwr.hLock = true) → pastLock s = true → exec (.corePllLockLoss k) s
        = .next (ended s (raise 0x821 { u with pwr := { s.pwr with tLock := s.pwr.tLock && k != 0, bLock := s.pwr.bLock && k != 1, hLock := s.pwr.hLock && k != 2, lockEvt := true } })))

/-- A write of CNT_CTL.snap copies every counter with its tag into its snapshot registers, and the Sundial time into CNT_SNAP_TIME; a clear
zeroes every counter, tag and flag. A read of CNT_LO or SUN_TIME_LO answers the low word and latches the rest. A ring of the build can be
selected and frozen, and thaws after 10 ms; the flood allowance is rearmed (R473, R482, R492, R493, R496). -/
def Obligations.ObservationRegistersAct : Prop :=
  ∀ (s u : State) (sv k : Nat) (w : Word), u = fresh s →
    (Writable s sv 0x4C0000 →
      (bitAt w 0 = true → bitAt w 1 = false → ∃ t, exec (.snap sv w) s = .next (ended s (cpAnswer sv 0 0 t)) ∧ t = { u with obs := { s.obs with snapTime := s.sun.time, cnt := t.obs.cnt } }
        ∧ ∀ j, getCnt t j = { getCnt s j with snap := (getCnt s j).count, snapTag := (getCnt s j).tag })
      ∧ (bitAt w 1 = true → bitAt w 0 = false → ∃ t, exec (.cntClear sv w) s = .next (ended s (cpAnswer sv 0 0 t)) ∧ t = { u with obs := { s.obs with cnt := t.obs.cnt } }
        ∧ ∀ j, getCnt t j = { getCnt s j with count := 0, tag := 0, ovf := false }))
    ∧ (k < 32 → Readable s sv (0x4C0104 + 0x20 * k) → exec (.cntLo sv k) s = .next (ended s (cpAnswer sv 0 (BitVec.ofNat 32 (getCnt s k).count)
        { u with obs := { s.obs with cnt := s.obs.cnt.set k { getCnt s k with hiLatch := (getCnt s k).count / 2 ^ 32, tagLatch := (getCnt s k).tag } } })))
    ∧ (Readable s sv 0x4A0000 → exec (.sunTimeLo sv) s = .next (ended s (cpAnswer sv 0 (BitVec.ofNat 32 s.sun.time)
        { u with sun := { s.sun with hiLatch := BitVec.ofNat 32 (s.sun.time / 2 ^ 32) } })))
    ∧ (Writable s sv 0x4D0004 →
      ((fld w 0 3, fld w 3 8) ∈ siltUnits s → exec (.dbgSiltSel sv w) s = .next (ended s (cpAnswer sv 0 0 { u with obs := { s.obs with siltSel := w &&& 0x17FF, frozenSince := s.clk } })))
      ∧ ((fld w 0 3, fld w 3 8) ∉ siltUnits s → exec (.dbgSiltSel sv w) s = .next (ended s (cpAnswer sv 0 0 (raise 0x9F0 u)))))
    ∧ (bitAt s.obs.siltSel 12 = true → s.obs.frozenSince + 10000000 ≤ s.clk → exec .siltFreezeExpiry s = .next (ended s { u with obs := { s.obs with siltSel := s.obs.siltSel &&& 0x7FF } }))
    ∧ (Writable s sv 0x4B0004 → bitAt w 0 = true → exec (.rearm sv w) s = .next (ended s (cpAnswer sv 0 0 { u with mrl := { s.mrl with fullUsed := 0, flood := false } })))

/-- Each exchange period the block sends a sync to its partners. A sync from a link off the mesh is answered with a sync reply that repeats its
first time and gives the times of its arrival; one on the mesh draws a NAK. An endpoint uses the offset of its partner's reply: half the
difference of the two directions in ps; a plane keeps it for its round, and a reply of no partner changes nothing. Without a reply for 10 ms
the Sundial goes into Holdover with 0x920; SUN_CFG names the source (R488-R490, R496). -/
def Obligations.SundialExchangesTimes : Prop :=
  ∀ (s u v : State) (l plot t sv : Nat) (p : Packet) (w : Word), u = fresh s → v = taken s l p →
    (s.sun.state ≠ .free → s.sun.lastSync + sunPeriod s ≤ s.clk → e64 s = true → ∀ y : State, y = { u with sun := { s.sun with lastSync := s.clk } } →
      exec .sundialSyncTick s = .next (ended s ((sunPartners y).foldl (fun z n => sendMgmt n [(16, 1, 0x20), (17, 1, sunTells z)] (supersede n 0x20 0 z)) y)))
    ∧ (Arrives s l p 0x60 plot → p.ar 16 1 = 0x20 →
      (isMesh s l = true → exec (.sync l p t) s = .next (after s (mgmtAnswer p 0x62 2 v)))
      ∧ (isMesh s l = false → ∀ y : State, y = { v with sun := { s.sun with peers := s.sun.peers.set p.src (p.ar 17 1 % 8) } } →
        exec (.sync l p t) s = .next (after s (mgmtAnswer p 0x61 0 (sendMgmt p.src [(16, 1, 0x21), (17, 1, sunTells y), (20, 8, p.ar 20 8), (28, 8, t)] (supersede p.src 0x21 0 y))))))
    ∧ (Arrives s l p 0x60 plot → p.ar 16 1 = 0x21 → isMesh s l = false → ∀ y : State, y = { v with sun := { s.sun with peers := s.sun.peers.set p.src (p.ar 17 1 % 8) } } →
      (p.src ∉ sunPartners y → exec (.syncReply l p t) s = .next (after s (mgmtAnswer p 0x61 0 y)))
      ∧ (p.src ∈ sunPartners y → e64 s = true → exec (.syncReply l p t) s = .next (after s (mgmtAnswer p 0x61 0 (useOffset
          (((Int.ofNat (p.ar 28 8) - Int.ofNat (p.ar 20 8)) - (Int.ofNat t - Int.ofNat (p.ar 36 8))) * 500) { y with sun := { y.sun with lastReply := s.clk } }))))
      ∧ (p.src ∈ sunPartners y → e64 s = false → exec (.syncReply l p t) s = .next (after s (mgmtAnswer p 0x61 0
          { y with sun := { y.sun with lastReply := s.clk, replies := s.sun.replies.set p.src (replyOffset p t) } }))))
    ∧ (s.sun.state = .locked ∨ s.sun.state = .locking → (e64 s = true ∨ sunDepth s ≠ 0) → inRun s = true → s.sun.lastReply + 10000000 ≤ s.clk →
      exec .holdoverExpiry s = .next (ended s (raise 0x920 { u with sun := { s.sun with state := .holdover, holdoverEvt := true, good := 0 } })))
    ∧ (Writable s sv 0x4A0008 →
      (fld w 0 5 ≠ s.sun.source → exec (.sunCfg sv w) s = .next (ended s (cpAnswer sv 0 0 { u with sun := { s.sun with source := fld w 0 5, good := 0, replies := [] } })))
      ∧ (fld w 0 5 = s.sun.source → exec (.sunCfg sv w) s = .next (ended s (cpAnswer sv 0 0 u))))

/-- Sampling shifts the cells out and takes new ones in service; the wrapper's bypass, sample and identity act always. With the test enable the
EXTEST modes take every lane down, drive the preloaded cells and capture the pins, and the wrapper preloads, drives, clamps, tests and
scans; without it each is refused with 0x871 and leaves the bypass selected (R535-R537; log 94 says what the cells take). -/
def Obligations.TestAccessFollowsItsModes : Prop :=
  ∀ (s u : State) (cells : List Bool) (res : BitVec 64) (q : State), u = fresh s → q = { u with tst := { s.tst with wir := 0, driveOut := false, driveIn := false, clamp := false, scan := false } } →
    exec (.samplePreload cells) s = .next (ended s { u with outbox := s.outbox ++ [.testOut s.tst.laneCells], tst := { s.tst with lbsMode := 0, laneCells := laneCells s cells, lanePreload := laneCells s cells } })
    ∧ exec .wsBypass s = .next (ended s q)
    ∧ exec (.wsSample cells) s = .next (ended s { q with tst := { q.tst with wir := 1, bound := cells } })
    ∧ exec .wsId s = .next (ended s { q with outbox := s.outbox ++ [.testOut ((List.range 32).map (fun i => bitAt (glbId s) i))], tst := { q.tst with wir := 6, idReg := glbId s } })
    ∧ (s.glb.ties.tstEn = true →
      (∀ c m z, c = .extest cells ∧ m = 1 ∨ c = .extestPulse cells ∧ m = 2 ∨ c = .extestTrain cells ∧ m = 3 →
          z = (List.range (laneCount s)).foldl (fun s q => laneDown q 0 .down s) { u with tst := { s.tst with lbsMode := m } } →
        exec c s = .next (after s { z with outbox := z.outbox ++ [.testOut z.tst.lanePreload], tst := { z.tst with laneCells := (List.range (2 * laneCount z)).map (fun i => if i % 2 = 0 then z.tst.lanePreload.getD i false else cells.getD i false) } }))
      ∧ exec (.wsPreload cells) s = .next (ended s { q with tst := { q.tst with wir := 2, bound := cells, boundPreload := cells } })
      ∧ exec (.wsExtest cells) s = .next (ended s { q with outbox := s.outbox ++ [.testOut s.tst.boundPreload], tst := { q.tst with wir := 3, driveOut := true, bound := cells } })
      ∧ exec (.wsIntest cells) s = .next (ended s { q with outbox := s.outbox ++ [.testOut s.tst.boundPreload], tst := { q.tst with wir := 4, driveIn := true, bound := cells } })
      ∧ exec .wsClamp s = .next (ended s { q with tst := { q.tst with wir := 5, clamp := true } })
      ∧ exec (.wsMbist res) s = .next (ended s { q with outbox := s.outbox ++ [.testOut ((List.range 64).map (fun i => res.getLsbD i))], tst := { q.tst with wir := 8, mbist := res } })
      ∧ exec .wsScan s = .next (ended s { q with tst := { q.tst with wir := 9, scan := true } }))
    ∧ (s.glb.ties.tstEn = false →
      (∀ c, c = .extest cells ∨ c = .extestPulse cells ∨ c = .extestTrain cells → exec c s = .next (after s (raise 0x871 { u with tst := { s.tst with lbsMode := 0 } })))
      ∧ (∀ c, c = .wsPreload cells ∨ c = .wsExtest cells ∨ c = .wsIntest cells ∨ c = .wsClamp ∨ c = .wsMbist res ∨ c = .wsScan → exec c s = .next (ended s (raise 0x871 q))))

/-- The state at reset: nothing waits, buffer SRAM is in canonical form, the block is in RUN after a cold start with plot 0 ACTIVE and
privileged and no owner, and registers read their Cold values: GLB_ID, SUP_OWNER, SUP_HB_LIMIT, TRL_ARB, TRL_DRAIN_LIMIT,
PWR_GATE_CFG, RAK_CFG (R6, R376, R377, R382, R410, R454, R558). That the machine begins there, as an E64 of node 0, is the
model's choice (logs 1 and 2). -/
def Obligations.ResetLeavesTheColdValues : Prop :=
  State.reset.MemInv ∧ State.reset.pending = [] ∧ State.reset.start.state = 2 ∧ State.reset.flt.entries = [] ∧ State.reset.fur = [] ∧ State.reset.sup.owner = none
    ∧ (getPlot State.reset 0).state = .active ∧ (getPlot State.reset 0).priv = true ∧ (∀ p, p ≠ 0 → (getPlot State.reset p).state = .free)
    ∧ (∀ sv, (regRead sv 0x000000 State.reset).1 = 0x01000001 ∧ (regRead sv 0x01000C State.reset).1 = 2000 ∧ (regRead sv 0x490020 State.reset).1 = 0x01124244
      ∧ (regRead sv 0x490018 State.reset).1 = 5000 ∧ (regRead sv 0x4F0010 State.reset).1 = 0x0003E821 ∧ (regRead sv 0x490100 State.reset).1 = 0x1A)
    ∧ (∀ sv, sv < 4 → (regRead sv 0x010000 State.reset).1 = BitVec.ofNat 32 (7 + 64 * sv))

/-- Every command, packet header, link word and codeword payload survives being written and read: a well-formed command reads back from its
32 bytes and every 32 bytes are those of the command that they spell, a header likewise when its first byte is 2, a link word and ten flits
are what a payload built from them holds, and a payload given another link word keeps its flits (R67, R306, R321, R322, R329). -/
def Obligations.WordsReadBackWhatWasWritten : Prop :=
  (∀ c : Cmd, c.wf = true → decodeCmd (encodeCmd c) = c)
  ∧ (∀ w : BitVec 256, (decodeCmd w).wf = true ∧ encodeCmd (decodeCmd w) = w)
  ∧ (∀ p : Packet, p.wf = true → decodeHeader (encodeHeader p) = { p with payload := [] })
  ∧ (∀ w : BitVec 512, fld w 0 8 = 2 → encodeHeader (decodeHeader w) = w)
  ∧ (∀ w : LinkWord, w.wf = true → decodeLinkWord (encodeLinkWord w) = w)
  ∧ (∀ b : BitVec 20, (decodeLinkWord b).wf = true ∧ encodeLinkWord (decodeLinkWord b) = b)
  ∧ (∀ (w : LinkWord) (fs : List (BitVec 512)), w.wf = true → payloadWord (encodePayload w fs) = w ∧ ∀ f < 10, payloadFlit (encodePayload w fs) f = fs.getD f 0)
  ∧ (∀ (p : BitVec 5140) (w : LinkWord), w.wf = true → payloadWord (setPayloadWord p w) = w ∧ payloadFlits (setPayloadWord p w) = payloadFlits p)
end

