-- ==== Sys2Proof/Laws/Table.lean ====
section
/-! SUPPORT. Laws of tables and of the canonical byte memory. -/

namespace Sys2Proof.Laws

open Sys2Proof.Machine

@[simp] theorem getD_set_self {α : Type} (t : Tbl α) (k : Nat) (v d : α) : (t.set k v).getD k d = v := by
  induction t with
  | nil => simp [Tbl.set, Tbl.getD]
  | cons e r ih =>
    simp only [Tbl.set]
    split
    · simp [Tbl.getD]
    · split
      · simp [Tbl.getD]
      · simp only [Tbl.getD, ih]
        split
        · exact absurd ‹_› ‹_›
        · rfl

@[simp] theorem getD_set_other {α : Type} (t : Tbl α) (k j : Nat) (v d : α) (h : j ≠ k) : (t.set k v).getD j d = t.getD j d := by
  induction t with
  | nil => simp [Tbl.set, Tbl.getD, h.symm]
  | cons e r ih =>
    simp only [Tbl.set]
    split
    · rename_i hk
      simp [Tbl.getD, hk, h.symm]
    · split
      · simp [Tbl.getD, h.symm]
      · simp only [Tbl.getD, ih]

@[simp] theorem at_set_self {α : Type} [Inhabited α] (t : Tbl α) (k : Nat) (v : α) : (t.set k v).at k = v := getD_set_self t k v default

@[simp] theorem at_set_other {α : Type} [Inhabited α] (t : Tbl α) (k j : Nat) (v : α) (h : j ≠ k) : (t.set k v).at j = t.at j :=
  getD_set_other t k j v default h

@[simp] theorem at_mod_self {α : Type} [Inhabited α] (t : Tbl α) (k : Nat) (f : α → α) : (t.mod k f).at k = f (t.at k) := by
  simp [Tbl.mod]

@[simp] theorem at_mod_other {α : Type} [Inhabited α] (t : Tbl α) (k j : Nat) (f : α → α) (h : j ≠ k) : (t.mod k f).at j = t.at j := by
  simp [Tbl.mod, h]

/-- The later of two settings of an entry stands. -/
@[simp] theorem set_set {α : Type} (t : Tbl α) (k : Nat) (v w : α) : (t.set k v).set k w = t.set k w := by
  induction t with
  | nil => simp [Tbl.set]
  | cons e r ih =>
    obtain ⟨j, x⟩ := e
    unfold Tbl.set
    by_cases h : j = k
    · simp [h, Tbl.set]
    · by_cases g : k < j
      · simp [h, g, Tbl.set]
      · simp [h, g, Tbl.set, ih]

/-- An entry that is deleted reads as the default. -/
@[simp] theorem getD_del_self {α : Type} (t : Tbl α) (k : Nat) (d : α) : (t.del k).getD k d = d := by
  induction t with
  | nil => simp [Tbl.del, Tbl.getD]
  | cons e r ih =>
    obtain ⟨j, x⟩ := e
    unfold Tbl.del at ih ⊢
    by_cases h : j = k
    · simp [h, ih]
    · simp [h, Tbl.getD, ih]

@[simp] theorem at_del_self {α : Type} [Inhabited α] (t : Tbl α) (k : Nat) : (t.del k).at k = default := getD_del_self t k default

/-- Deleting an entry leaves every other one. -/
@[simp] theorem getD_del_other {α : Type} (t : Tbl α) (k j : Nat) (d : α) (h : j ≠ k) : (t.del k).getD j d = t.getD j d := by
  induction t with
  | nil => rfl
  | cons e r ih =>
    obtain ⟨i, x⟩ := e
    unfold Tbl.del at ih ⊢
    by_cases g : i = k
    · subst g; simp [ih, Tbl.getD, h.symm]
    · simp [g, Tbl.getD, ih]

@[simp] theorem at_del_other {α : Type} [Inhabited α] (t : Tbl α) (k j : Nat) (h : j ≠ k) : (t.del k).at j = t.at j :=
  getD_del_other t k j default h

/-- A read after a write (R113). -/
theorem read_write (m : Memory) (a b : Nat) (v : Byte) (hm : Memory.wf m = true) :
    (m.write a v).read b = if b = a then v else m.read b := by
  have key : ∀ (m : Memory) (lo : Option Nat), Memory.wfFrom lo m = true →
      (∀ x, lo = some x → ∀ c, c ≤ x → m.read c = 0) := by
    intro m
    induction m with
    | nil => intro lo _ x _ c _; rfl
    | cons e r ih =>
      intro lo h x hx c hc
      subst hx
      simp only [Memory.wfFrom, Bool.and_eq_true, decide_eq_true_eq] at h
      obtain ⟨⟨h1, -⟩, h3⟩ := h
      simp only [Memory.read]
      rw [if_neg (by omega)]
      exact ih (some e.1) h3 e.1 rfl c (by omega)
  have main : ∀ (m : Memory) (lo : Option Nat), Memory.wfFrom lo m = true →
      (m.write a v).read b = if b = a then v else m.read b := by
    intro m
    induction m with
    | nil =>
      intro lo _
      simp only [Memory.write]
      split
      · split <;> simp_all [Memory.read]
      · simp only [Memory.read]
        by_cases hb : b = a
        · subst hb; simp
        · rw [if_neg (fun h => hb h.symm), if_neg hb]
    | cons e r ih =>
      intro lo h
      simp only [Memory.wfFrom, Bool.and_eq_true, decide_eq_true_eq] at h
      obtain ⟨⟨-, -⟩, h3⟩ := h
      have ih' := ih (some e.1) h3
      have zero : ∀ c, c ≤ e.1 → Memory.read r c = 0 := key r (some e.1) h3 e.1 rfl
      simp only [Memory.write]
      split
      · rename_i he
        split
        · rename_i hv
          by_cases hb : b = a
          · rw [if_pos hb, hb, hv]; exact zero a (by omega)
          · rw [if_neg hb]; simp only [Memory.read]; rw [if_neg (by omega)]
        · simp only [Memory.read]
          by_cases hb : b = a
          · simp [hb]
          · rw [if_neg hb, if_neg (fun h => hb h.symm), if_neg (by omega)]
      · split
        · rename_i hlt
          split
          · rename_i hv
            by_cases hb : b = a
            · rw [if_pos hb, hb, hv]; simp only [Memory.read]; rw [if_neg (by omega)]; exact zero a (by omega)
            · rw [if_neg hb]
          · simp only [Memory.read]
            by_cases hb : b = a
            · simp [hb]
            · rw [if_neg hb, if_neg (fun h => hb h.symm)]
        · simp only [Memory.read, ih']
          by_cases hb : b = a
          · subst hb
            simp [*]
          · simp [hb]
  exact main m none hm

/-- A write keeps the canonical form, above any bound below its address. -/
theorem write_wfFrom (a : Nat) (v : Byte) (m : Memory) :
    ∀ lo : Option Nat, (∀ x, lo = some x → x < a) → Memory.wfFrom lo m = true → Memory.wfFrom lo (m.write a v) = true := by
  induction m with
  | nil =>
    intro lo hlo _
    simp only [Memory.write]
    split
    · rfl
    · rename_i hv
      cases lo with
      | none => simpa [Memory.wfFrom] using hv
      | some x => simpa [Memory.wfFrom, hlo x rfl] using hv
  | cons e r ih =>
    intro lo hlo h
    simp only [Memory.wfFrom, Bool.and_eq_true, decide_eq_true_eq] at h
    obtain ⟨⟨h1, h2⟩, h3⟩ := h
    have weak : ∀ (m : Memory) (x y : Nat), x ≤ y → Memory.wfFrom (some y) m = true → Memory.wfFrom (some x) m = true := by
      intro m x y hxy
      cases m with
      | nil => intro _; rfl
      | cons p q =>
        simp only [Memory.wfFrom, Bool.and_eq_true, decide_eq_true_eq]
        exact fun ⟨⟨u, w⟩, z⟩ => ⟨⟨by omega, w⟩, z⟩
    have weakN : ∀ (m : Memory) (y : Nat), Memory.wfFrom (some y) m = true → Memory.wfFrom none m = true := by
      intro m y
      cases m with
      | nil => intro _; rfl
      | cons p q =>
        simp only [Memory.wfFrom, Bool.and_eq_true, decide_eq_true_eq]
        exact fun ⟨⟨_, w⟩, z⟩ => ⟨⟨trivial, w⟩, z⟩
    simp only [Memory.write]
    split
    · rename_i he
      split
      · cases lo with
        | none => exact weakN r e.1 h3
        | some x => exact weak r x e.1 (by simp at h1; omega) h3
      · rename_i hv
        subst he
        simp only [Memory.wfFrom, Bool.and_eq_true, decide_eq_true_eq]
        exact ⟨⟨h1, hv⟩, h3⟩
    · split
      · rename_i hlt
        split
        · simp only [Memory.wfFrom, Bool.and_eq_true, decide_eq_true_eq]; exact ⟨⟨h1, h2⟩, h3⟩
        · rename_i hv
          simp only [Memory.wfFrom, Bool.and_eq_true, decide_eq_true_eq]
          refine ⟨⟨?_, hv⟩, ⟨hlt, h2⟩, h3⟩
          cases lo with
          | none => trivial
          | some x => simpa using hlo x rfl
      · simp only [Memory.wfFrom, Bool.and_eq_true, decide_eq_true_eq]
        exact ⟨⟨h1, h2⟩, ih (some e.1) (fun x hx => by simp at hx; omega) h3⟩

/-- A write keeps the canonical form. -/
theorem write_wf (m : Memory) (a : Nat) (v : Byte) (h : Memory.wf m = true) : Memory.wf (m.write a v) = true :=
  write_wfFrom a v m none (fun _ hx => nomatch hx) h

/-- Writes in order keep the canonical form. -/
theorem writeAll_wf (cs : List Host.Cell) : ∀ m : Memory, Memory.wf m = true → Memory.wf (m.writeAll cs) = true := by
  induction cs with
  | nil => exact fun _ h => h
  | cons c r ih => exact fun m h => ih _ (write_wf m c.1 c.2 h)

/-- The empty memory has the canonical form. -/
@[simp] theorem nil_wf : Memory.wf [] = true := rfl

/-- An address that no write of a list names reads as before. -/
theorem read_writeAll_other (b : Nat) (cs : List Host.Cell) (hb : ∀ c ∈ cs, c.1 ≠ b) :
    ∀ m : Memory, Memory.wf m = true → (m.writeAll cs).read b = m.read b := by
  induction cs with
  | nil => exact fun _ _ => rfl
  | cons c r ih =>
    intro m hm
    have h1 := ih (fun x hx => hb x (List.mem_cons_of_mem c hx)) (m.write c.1 c.2) (write_wf m c.1 c.2 hm)
    rw [show m.writeAll (c :: r) = (m.write c.1 c.2).writeAll r from rfl, h1, read_write m c.1 b c.2 hm,
      if_neg (fun h => hb c (List.mem_cons_self) h.symm)]

end Sys2Proof.Laws
end

