-- ==== Sys2Proof/Laws/Commands.lean ====
section
/-! SUPPORT. What every command does, said once: how it ends, what the Silt events of a change touch, and the shared beginnings of
opcode events and of control-port accesses. -/

namespace Sys2Proof.Laws

open Sys2Proof.Machine

/-- A command run as a change. -/
theorem act_next (f : State → State) (s : State) : act f s = .next (ended s (f (fresh s))) := rfl

/-- A command run as a change, with what follows at once. -/
theorem run_next (f : State → State) (s : State) : run f s = .next (after s (f (fresh s))) := rfl

/-- `u` differs from `t` in the Silt rings alone. -/
def RingsOnly (t u : State) : Prop := ∃ r, u = { t with obs := { t.obs with rings := r } }

theorem RingsOnly.rfl {t : State} : RingsOnly t t := ⟨t.obs.rings, by cases t; exact Eq.refl _⟩

theorem RingsOnly.trans {a b c : State} (h : RingsOnly a b) (k : RingsOnly b c) : RingsOnly a c := by
  obtain ⟨o, rfl⟩ := h
  obtain ⟨p, rfl⟩ := k
  exact ⟨p, Eq.refl _⟩

theorem RingsOnly.foldl {α : Type} (g : State → α → State) (h : ∀ s a, RingsOnly s (g s a)) (l : List α) :
    ∀ s, RingsOnly s (l.foldl g s) := by
  induction l with
  | nil => exact fun _ => .rfl
  | cons a r ih => exact fun s => (h s a).trans (ih (g s a))

theorem RingsOnly.ite {t u v : State} {c : Prop} [Decidable c] (hu : RingsOnly t u) (hv : RingsOnly t v) :
    RingsOnly t (if c then u else v) := by
  split <;> assumption

theorem silt_rings (k i c l o p x d : Nat) (s : State) : RingsOnly s (silt k i c l o p x d s) := ⟨_, rfl⟩

theorem siltStates_rings (s t : State) : RingsOnly t (siltStates s t) := by
  unfold siltStates
  refine .trans ?_ (.foldl _ ?_ _ _)
  · exact .foldl _ (fun a e => .ite .rfl (silt_rings ..)) _ _
  · exact fun a e => .ite .rfl (silt_rings ..)

theorem siltLinks_rings (s t : State) : RingsOnly t (siltLinks s t) := by
  unfold siltLinks
  refine .trans ?_ (.foldl _ ?_ _ _)
  · exact .foldl _ (fun a e => .ite .rfl (silt_rings ..)) _ _
  · exact fun a e => .ite .rfl (silt_rings ..)

theorem siltBeds_rings (s t : State) : RingsOnly t (siltBeds s t) := by
  have h : RingsOnly t (s.coll.beds.foldl (fun u e =>
      if e.2.isOpen && !(u.coll.beds.at e.1).isOpen then silt 4 0 0x005 0 0 e.2.plot 0 e.1 u else u)
      (t.coll.beds.foldl (fun u e =>
        let o := s.coll.beds.at e.1
        let gone := o.steps.filter (fun x => !x.stopped && !(e.2.steps.any (fun y => y.num == x.num)))
        let u := gone.foldl (fun u x => silt 4 0 0x006 0 0 e.2.plot 0 (x.num % 65536) u) u
        if o.isOpen = e.2.isOpen then u else silt 4 0 0x004 0 0 e.2.plot 0 e.1 u) t)) := by
    refine .trans (.foldl _ ?_ _ _) (.foldl _ ?_ _ _)
    · intro a e
      have h1 : RingsOnly a (((s.coll.beds.at e.1).steps.filter (fun x => !x.stopped && !(e.2.steps.any (fun y => y.num == x.num)))).foldl
          (fun u x => silt 4 0 0x006 0 0 e.2.plot 0 (x.num % 65536) u) a) := .foldl _ (fun _ _ => silt_rings ..) _ _
      exact .ite h1 (h1.trans (silt_rings ..))
    · exact fun a e => .ite (silt_rings ..) .rfl
  unfold siltBeds
  exact .ite h (h.trans (silt_rings ..))

theorem siltFence_rings (n k g c a b : Nat) (s : State) : RingsOnly s (siltFence n k g c a b s) := by
  unfold siltFence
  exact .foldl _ (fun _ _ => .ite (silt_rings ..) .rfl) _ _

theorem siltFences_rings (s t : State) : RingsOnly t (siltFences s t) := by
  unfold siltFences
  exact (siltFence_rings ..).trans ((siltFence_rings ..).trans ((siltFence_rings ..).trans
    ((siltFence_rings ..).trans ((siltFence_rings ..).trans (siltFence_rings ..)))))

/-- The Silt events of what a command changed touch nothing but the observation unit (R481). -/
theorem siltChanges_rings (s t : State) : RingsOnly t (siltChanges s t) :=
  (siltStates_rings s t).trans ((siltLinks_rings s _).trans ((siltBeds_rings s _).trans (siltFences_rings s _)))

/-- What a command leaves, in terms of its effect. -/
theorem ended_eq (s u : State) : ∃ o, ended s u =
    { u with pending := s.pending, clk := s.clk, sram := s.sram.writeAll u.wlog, wlog := []
             obs := { u.obs with rings := o } } := by
  obtain ⟨o, h⟩ := siltChanges_rings s u
  exact ⟨o, by rw [ended, h, commit]⟩

section
variable (s u : State)

@[simp] theorem ended_pending : (ended s u).pending = s.pending := rfl
@[simp] theorem ended_clk : (ended s u).clk = s.clk := rfl
@[simp] theorem ended_wlog : (ended s u).wlog = [] := rfl
@[simp] theorem ended_sram : (ended s u).sram = s.sram.writeAll u.wlog := by obtain ⟨o, h⟩ := ended_eq s u; rw [h]
@[simp] theorem ended_free : (ended s u).free = u.free := by obtain ⟨o, h⟩ := ended_eq s u; rw [h]
@[simp] theorem ended_outbox : (ended s u).outbox = u.outbox := by obtain ⟨o, h⟩ := ended_eq s u; rw [h]
@[simp] theorem ended_glb : (ended s u).glb = u.glb := by obtain ⟨o, h⟩ := ended_eq s u; rw [h]
@[simp] theorem ended_start : (ended s u).start = u.start := by obtain ⟨o, h⟩ := ended_eq s u; rw [h]
@[simp] theorem ended_sup : (ended s u).sup = u.sup := by obtain ⟨o, h⟩ := ended_eq s u; rw [h]
@[simp] theorem ended_mbx : (ended s u).mbx = u.mbx := by obtain ⟨o, h⟩ := ended_eq s u; rw [h]
@[simp] theorem ended_flt : (ended s u).flt = u.flt := by obtain ⟨o, h⟩ := ended_eq s u; rw [h]
@[simp] theorem ended_pwr : (ended s u).pwr = u.pwr := by obtain ⟨o, h⟩ := ended_eq s u; rw [h]
@[simp] theorem ended_mrl : (ended s u).mrl = u.mrl := by obtain ⟨o, h⟩ := ended_eq s u; rw [h]
@[simp] theorem ended_sun : (ended s u).sun = u.sun := by obtain ⟨o, h⟩ := ended_eq s u; rw [h]
@[simp] theorem ended_tst : (ended s u).tst = u.tst := by obtain ⟨o, h⟩ := ended_eq s u; rw [h]
@[simp] theorem ended_plots : (ended s u).plots = u.plots := by obtain ⟨o, h⟩ := ended_eq s u; rw [h]
@[simp] theorem ended_tally : (ended s u).tally = u.tally := by obtain ⟨o, h⟩ := ended_eq s u; rw [h]
@[simp] theorem ended_fur : (ended s u).fur = u.fur := by obtain ⟨o, h⟩ := ended_eq s u; rw [h]
@[simp] theorem ended_img : (ended s u).img = u.img := by obtain ⟨o, h⟩ := ended_eq s u; rw [h]
@[simp] theorem ended_xfer : (ended s u).xfer = u.xfer := by obtain ⟨o, h⟩ := ended_eq s u; rw [h]
@[simp] theorem ended_mp : (ended s u).mp = u.mp := by obtain ⟨o, h⟩ := ended_eq s u; rw [h]
@[simp] theorem ended_rlc : (ended s u).rlc = u.rlc := by obtain ⟨o, h⟩ := ended_eq s u; rw [h]
@[simp] theorem ended_home : (ended s u).home = u.home := by obtain ⟨o, h⟩ := ended_eq s u; rw [h]
@[simp] theorem ended_lanes : (ended s u).lanes = u.lanes := by obtain ⟨o, h⟩ := ended_eq s u; rw [h]
@[simp] theorem ended_trl : (ended s u).trl = u.trl := by obtain ⟨o, h⟩ := ended_eq s u; rw [h]
@[simp] theorem ended_rak : (ended s u).rak = u.rak := by obtain ⟨o, h⟩ := ended_eq s u; rw [h]
@[simp] theorem ended_mgt : (ended s u).mgt = u.mgt := by obtain ⟨o, h⟩ := ended_eq s u; rw [h]
@[simp] theorem ended_coll : (ended s u).coll = u.coll := by obtain ⟨o, h⟩ := ended_eq s u; rw [h]

end

section
variable (s : State)

@[simp] theorem fresh_wlog : (fresh s).wlog = [] := rfl
@[simp] theorem fresh_pending : (fresh s).pending = s.pending := rfl
@[simp] theorem fresh_sram : (fresh s).sram = s.sram := rfl
@[simp] theorem fresh_clk : (fresh s).clk = s.clk := rfl
@[simp] theorem fresh_free : (fresh s).free = s.free := rfl
@[simp] theorem fresh_outbox : (fresh s).outbox = s.outbox := rfl
@[simp] theorem fresh_glb : (fresh s).glb = s.glb := rfl
@[simp] theorem fresh_start : (fresh s).start = s.start := rfl
@[simp] theorem fresh_sup : (fresh s).sup = s.sup := rfl
@[simp] theorem fresh_mbx : (fresh s).mbx = s.mbx := rfl
@[simp] theorem fresh_flt : (fresh s).flt = s.flt := rfl
@[simp] theorem fresh_pwr : (fresh s).pwr = s.pwr := rfl
@[simp] theorem fresh_mrl : (fresh s).mrl = s.mrl := rfl
@[simp] theorem fresh_obs : (fresh s).obs = s.obs := rfl
@[simp] theorem fresh_sun : (fresh s).sun = s.sun := rfl
@[simp] theorem fresh_tst : (fresh s).tst = s.tst := rfl
@[simp] theorem fresh_plots : (fresh s).plots = s.plots := rfl
@[simp] theorem fresh_tally : (fresh s).tally = s.tally := rfl
@[simp] theorem fresh_fur : (fresh s).fur = s.fur := rfl
@[simp] theorem fresh_img : (fresh s).img = s.img := rfl
@[simp] theorem fresh_xfer : (fresh s).xfer = s.xfer := rfl
@[simp] theorem fresh_mp : (fresh s).mp = s.mp := rfl
@[simp] theorem fresh_rlc : (fresh s).rlc = s.rlc := rfl
@[simp] theorem fresh_home : (fresh s).home = s.home := rfl
@[simp] theorem fresh_lanes : (fresh s).lanes = s.lanes := rfl
@[simp] theorem fresh_trl : (fresh s).trl = s.trl := rfl
@[simp] theorem fresh_rak : (fresh s).rak = s.rak := rfl
@[simp] theorem fresh_mgt : (fresh s).mgt = s.mgt := rfl
@[simp] theorem fresh_coll : (fresh s).coll = s.coll := rfl
@[simp] theorem fresh_e64 : e64 (fresh s) = e64 s := rfl
@[simp] theorem fresh_getPlot (p : Nat) : getPlot (fresh s) p = getPlot s p := rfl
@[simp] theorem fresh_getTally (p t : Nat) : getTally (fresh s) p t = getTally s p t := rfl
@[simp] theorem fresh_tallyOk (p t : Nat) (b : Bool) : tallyOk (fresh s) p t b = tallyOk s p t b := rfl
@[simp] theorem fresh_getBed (c : Nat) : getBed (fresh s) c = getBed s c := rfl

end

/-- A furrow after its own change. -/
@[simp] theorem getFur_modFur_self (f : Nat) (g : Furrow → Furrow) (s : State) : getFur (modFur f g s) f = g (getFur s f) := by
  simp [getFur, modFur, e64]

/-- Another furrow after a furrow's change. -/
@[simp] theorem getFur_modFur_other (f n : Nat) (g : Furrow → Furrow) (s : State) (h : n ≠ f) :
    getFur (modFur f g s) n = getFur s n := by
  simp [getFur, modFur, e64, h]

/-- An opcode event on a command that issues runs its rule. -/
theorem withCmd_issues {s : State} {f op : Nat} {outst : Bool} {r : Ready} (h : Issues s f op outst r)
    (k : Cmd → Opnd → Place → State → State) :
    withCmd f op outst k (fresh s) = k r.cmd (operands (getFur s f) r.cmd) r.place (fresh s) := by
  obtain ⟨h1, h2⟩ := h
  have h1' : atIssue (fresh s) f op = some r := h1
  have hg : getFur (fresh s) f = getFur s f := rfl
  simp [withCmd, h1', hg, h2]

/-- A command whose checks pass goes on. -/
theorem checked_passes {f : Nat} {c : Cmd} {checks : List (Bool × Nat)} (h : Passes checks) (k : State → State) (s : State) :
    checked f c checks k s = k s := by
  simp only [Passes] at h
  simp [checked, h]

/-- A write that reaches its register has the register's effect and is answered with status 0. -/
theorem cpWrite_writable {s : State} {sv addr : Nat} (h : Writable s sv addr) (f : State → State) :
    cpWrite sv addr f (fresh s) = cpAnswer sv 0 0 (f (fresh s)) := by
  obtain ⟨h1, h2, h3, h4, h5, h6⟩ := h
  have e1 : cpServes (fresh s) sv = true := h1
  have e4 : cpAbsent (fresh s) addr = false := h4
  have e6 : mayWrite (fresh s) sv addr = true := h6
  have e5 : cpDomain (fresh s) addr = cpDomain s addr := rfl
  simp only [cpWrite, e1, cpGate, h2, h3, e4, e5, e6]
  cases hd : cpDomain s addr with
  | none => simp
  | some d =>
    have : domOn (fresh s) d = true := h5 d hd
    simp [this]

/-- A read that reaches its register answers with its value. -/
theorem cpRead_readable {s : State} {sv addr : Nat} (h : Readable s sv addr) (f : State → Word × State) :
    cpRead sv addr f (fresh s) = cpAnswer sv 0 (f (fresh s)).1 (f (fresh s)).2 := by
  obtain ⟨h1, h2, h3, h4, h5⟩ := h
  have e1 : cpServes (fresh s) sv = true := h1
  have e4 : cpAbsent (fresh s) addr = false := h4
  have e5 : cpDomain (fresh s) addr = cpDomain s addr := rfl
  simp only [cpRead, e1, cpGate, h2, h3, e4, e5]
  cases hd : cpDomain s addr with
  | none => simp
  | some d =>
    have : domOn (fresh s) d = true := h5 d hd
    simp [this]

end Sys2Proof.Laws
end

