-- ==== Sys2Proof/Laws/Arrivals.lean ====
section
/-! SUPPORT. Taking a packet from its buffer, and the checks that every arriving packet passes. -/

namespace Sys2Proof.Laws

open Sys2Proof.Machine

/-- Only lanes, links and outputs have changed. -/
def LaneWork (s u : State) : Prop := u = { s with lanes := u.lanes, outbox := u.outbox }

theorem LaneWork.rfl {s : State} : LaneWork s s := by cases s; exact Eq.refl _

theorem LaneWork.trans {s t u : State} (h : LaneWork s t) (k : LaneWork t u) : LaneWork s u := by
  unfold LaneWork at *; rw [k, h]

theorem LaneWork.foldl {α : Type} (g : State → α → State) (h : ∀ s a, LaneWork s (g s a)) (l : List α) :
    ∀ s, LaneWork s (l.foldl g s) := by
  induction l with
  | nil => intro s; exact .rfl
  | cons a r ih => intro s; exact (h s a).trans (ih _)

theorem LaneWork.ite {s u v : State} {c : Prop} [Decidable c] (h : LaneWork s u) (k : LaneWork s v) : LaneWork s (if c then u else v) := by
  split
  · exact h
  · exact k

theorem lanes_modLink (l : Nat) (g : Link → Link) (s : State) : LaneWork s (modLink l g s) := Eq.refl _
theorem lanes_modLane (q : Nat) (g : Lane → Lane) (s : State) : LaneWork s (modLane q g s) := Eq.refl _
theorem lanes_emit (o : Output) (s : State) : LaneWork s (emit o s) := Eq.refl _

theorem lanes_wake (l : Nat) (s : State) : LaneWork s (wake l s) := by
  unfold wake
  exact .ite ((LaneWork.foldl _ (fun s q => lanes_emit _ s) _ s).trans (lanes_modLink ..)) .rfl

theorem lanes_sendWord (q k a : Nat) (s : State) : LaneWork s (sendWord q k a s) := (lanes_wake ..).trans (lanes_emit ..)

theorem lanes_returnCredits (l vn n : Nat) (s : State) : LaneWork s (returnCredits l vn n s) := by
  unfold returnCredits
  refine .ite ?_ .rfl
  cases activeLanes s l with
  | nil => exact .rfl
  | cons q r => exact lanes_sendWord ..

/-- Taking a packet changes lanes, links and outputs alone (R331). -/
theorem lanes_takePkt (l : Nat) (p : Packet) (s : State) : LaneWork s (takePkt l p s) :=
  (lanes_modLink ..).trans (lanes_returnCredits ..)

theorem taken_eq (s : State) (l : Nat) (p : Packet) :
    taken s l p = { s with wlog := [], lanes := (taken s l p).lanes, outbox := (taken s l p).outbox } := lanes_takePkt l p (fresh s)

section
variable (s : State) (l : Nat) (p : Packet)
@[simp] theorem taken_flt : (taken s l p).flt = s.flt := by rw [taken_eq]
@[simp] theorem taken_home : (taken s l p).home = s.home := by rw [taken_eq]
@[simp] theorem taken_xfer : (taken s l p).xfer = s.xfer := by rw [taken_eq]
@[simp] theorem taken_glb : (taken s l p).glb = s.glb := by rw [taken_eq]
@[simp] theorem taken_plots : (taken s l p).plots = s.plots := by rw [taken_eq]
@[simp] theorem taken_trl : (taken s l p).trl = s.trl := by rw [taken_eq]
@[simp] theorem taken_coll : (taken s l p).coll = s.coll := by rw [taken_eq]
@[simp] theorem taken_mp : (taken s l p).mp = s.mp := by rw [taken_eq]
@[simp] theorem taken_fur : (taken s l p).fur = s.fur := by rw [taken_eq]
end

/-- An event on a packet that is delivered takes it and checks it (R325). -/
theorem arrival_delivers {s : State} {l kind : Nat} {p : Packet} (h : Delivers s l p kind) (stale : State → State)
    (k : Nat → State → State) : arrival l p kind stale k (fresh s) = received l p stale k (taken s l p) := by
  obtain ⟨h1, h2, h3, h4, h5, h6⟩ := h
  unfold arrival
  refine if_pos ?_
  have e1 : decide (l < linkCount (fresh s)) = true := decide_eq_true h1
  have e2 : atHead (fresh s) l p = true := h2
  have e4 : p.dst = selfNode (fresh s) := h4
  have e6 : vn2Bad (fresh s) l p = false := h6
  have e5 : (fresh s).flt.safe = false := h5
  rw [e1, e2, h3, e4, e5, e6]; simp

/-- What passes every check goes on with its plot (R325, R368, R369). -/
theorem received_passes {s : State} {l plot : Nat} {p : Packet} (hc : Packet.crcOk p = true) (hp : plotChecks s l p = (0, plot))
    (hg : (getPlot s plot).gen = p.gen) (stale : State → State) (k : Nat → State → State) :
    received l p stale k (taken s l p) = k plot (taken s l p) := by
  have e1 : plotChecks (taken s l p) l p = plotChecks s l p := by
    unfold plotChecks plotOfKey admits liveBank getPlot; rw [taken_plots, taken_trl]
  have e2 : getPlot (taken s l p) plot = getPlot s plot := by unfold getPlot; rw [taken_plots]
  unfold received
  rw [hc, e1, hp]
  simp only [Bool.not_true, Bool.false_eq_true, if_false, ne_eq, not_true_eq_false, e2, hg]

/-- An event on a packet that arrives and passes acts on it (R325, R368, R369). -/
theorem arrival_arrives {s : State} {l kind plot : Nat} {p : Packet} (h : Arrives s l p kind plot) (stale : State → State)
    (k : Nat → State → State) : arrival l p kind stale k (fresh s) = k plot (taken s l p) := by
  obtain ⟨h1, h2, h3, h4⟩ := h
  rw [arrival_delivers h1, received_passes h2 h3 h4]

theorem addWeights_fresh (s : State) (d : Nat) (ps : List Nat) : ∀ cur, addWeights (fresh s) d ps cur = addWeights s d ps cur := by
  induction ps with
  | nil => intro cur; rfl
  | cons p r ih => intro cur; exact ih _

/-- The path of a packet does not hang on the bytes that a command writes. -/
@[simp] theorem pathOf_fresh (s : State) (r : Rq) : pathOf (fresh s) r = pathOf s r := by
  have h : ∀ d, sprayChoice (fresh s) d = sprayChoice s d := by
    intro d
    have e : addWeights (fresh s) d (spraySet (fresh s) d) (fresh s).trl.cur = addWeights s d (spraySet s d) s.trl.cur := addWeights_fresh ..
    simp only [sprayChoice, e]; rfl
  have k : ∀ d c, choosePath (fresh s) d c = choosePath s d c := by
    intro d c
    unfold choosePath
    rw [h]; rfl
  simp only [pathOf, k]; rfl

@[simp] theorem outranked_fresh (s : State) (id l : Nat) (p : Packet) : outranked (fresh s) id l p = outranked s id l p := by
  unfold outranked
  simp only [pathOf_fresh]; rfl

end Sys2Proof.Laws
end

