-- ==== Sys2Proof/Laws/Furrow.lean ====
section
/-! SUPPORT. What the operations on one furrow change, and what they leave. -/

namespace Sys2Proof.Laws

open Sys2Proof.Machine

/-- `u` differs from `s` in furrow `f` and the observation unit alone. -/
def FurOnly (f : Nat) (s u : State) : Prop :=
  (∀ n, n ≠ f → getFur u n = getFur s n) ∧ u = { s with fur := u.fur, obs := u.obs }

theorem FurOnly.rfl {f : Nat} {s : State} : FurOnly f s s := ⟨fun _ _ => Eq.refl _, by cases s; exact Eq.refl _⟩

theorem FurOnly.trans {f : Nat} {s t u : State} (h : FurOnly f s t) (k : FurOnly f t u) : FurOnly f s u := by
  obtain ⟨h1, h2⟩ := h
  obtain ⟨k1, k2⟩ := k
  refine ⟨fun n hn => (k1 n hn).trans (h1 n hn), ?_⟩
  rw [k2, h2]

theorem furOnly_modFur (f : Nat) (g : Furrow → Furrow) (s : State) : FurOnly f s (modFur f g s) :=
  ⟨fun n hn => getFur_modFur_other f n g s hn, Eq.refl _⟩

theorem furOnly_obs (f : Nat) (o : Obs) (s : State) : FurOnly f s { s with obs := o } := ⟨fun _ _ => Eq.refl _, Eq.refl _⟩

theorem furOnly_cntCommand (f n k : Nat) (s : State) : FurOnly f s (cntCommand n k s) := furOnly_obs f _ s

theorem furOnly_pushIssued (f : Nat) (i : Issued) (s : State) : FurOnly f s (pushIssued f i s) := furOnly_modFur ..

theorem furOnly_issueNow (f : Nat) (c : Cmd) (s : State) : FurOnly f s (issueNow f c s) :=
  (furOnly_pushIssued ..).trans (furOnly_cntCommand ..)

theorem furOnly_issueOut (f : Nat) (c : Cmd) (n : Nat) (d : Option Nat) (s : State) : FurOnly f s (issueOut f c n d s) :=
  (furOnly_pushIssued ..).trans (furOnly_cntCommand ..)

theorem furOnly_waitOn (f : Nat) (k : WaitKind) (s : State) : FurOnly f s (waitOn f k s) := furOnly_modFur ..

theorem furOnly_stopFur (f : Nat) (c : StopCause) (s : State) : FurOnly f s (stopFur f c s) := furOnly_modFur ..

theorem furOnly_jumpTo (f : Nat) (p : Place) (o : Int) (s : State) : FurOnly f s (jumpTo f p o s) := by
  unfold jumpTo
  split <;> exact furOnly_modFur ..

@[simp] theorem getFur_ended (s u : State) (n : Nat) : getFur (ended s u) n = getFur u n := by
  obtain ⟨o, he⟩ := ended_eq s u
  rw [he]
  rfl

@[simp] theorem getFur_fresh (s : State) (n : Nat) : getFur (fresh s) n = getFur s n := rfl

/-- A command's own change of one furrow, as the command leaves it. -/
theorem FurOnly.ended {f : Nat} {s u : State} (h : FurOnly f (fresh s) u) : OnlyFurrow s (ended s u) f := by
  obtain ⟨h1, h2⟩ := h
  obtain ⟨o, he⟩ := ended_eq s u
  have hw : u.wlog = [] := by rw [h2]; rfl
  refine ⟨fun n hn => (getFur_ended s u n).trans (h1 n hn), ?_⟩
  rw [he, hw, h2]
  rfl

@[simp] theorem getFur_cntCommand (f k n : Nat) (s : State) : getFur (cntCommand f k s) n = getFur s n := rfl

@[simp] theorem getFur_issueNow_self (f : Nat) (c : Cmd) (s : State) :
    getFur (issueNow f c s) f = (getFur s f).completing c := by
  simp [issueNow, pushIssued, Furrow.completing, Furrow.issuing]

@[simp] theorem getFur_issueOut_self (f : Nat) (c : Cmd) (n : Nat) (d : Option Nat) (s : State) :
    getFur (issueOut f c n d s) f = (getFur s f).sending c n d := by
  simp [issueOut, pushIssued, Furrow.sending, Furrow.issuing]

/-- A command whose effect is on one furrow alone. -/
theorem act_fur {f : Nat} {s u : State} {g : Furrow} {F : State → State} (e : F (fresh s) = u) (h : FurOnly f (fresh s) u)
    (hg : getFur u f = g) : ∃ t, act F s = .next t ∧ OnlyFurrow s t f ∧ getFur t f = g := by
  subst e
  exact ⟨_, act_next F s, h.ended, (getFur_ended ..).trans hg⟩

/-- An opcode event on a command that issues and whose checks pass. -/
theorem cmd_passes {s : State} {f op : Nat} {outst : Bool} {r : Ready} {o : Opnd} (h : Issues s f op outst r)
    (ho : operands (getFur s f) r.cmd = o) {chk : Cmd → Opnd → Place → State → List (Bool × Nat)}
    {k : Cmd → Opnd → Place → State → State → State} (p : Passes (chk r.cmd o r.place (fresh s))) :
    withCmd f op outst (fun c o p s => checked f c (chk c o p s) (k c o p s) s) (fresh s)
      = k r.cmd o r.place (fresh s) (fresh s) := by
  subst ho
  rw [withCmd_issues h, checked_passes p]

/-- A SIGNAL of its kind that issues runs its rule. -/
theorem withSignal_issues {s : State} {f kind : Nat} {r : Ready} (h : Issues s f 0x44 false r) (ho : r.cmd.osel = kind)
    (k : Cmd → Opnd → State → State) :
    withSignal f kind k (fresh s) = k r.cmd (operands (getFur s f) r.cmd) (fresh s) := by
  unfold withSignal
  rw [withCmd_issues h, if_pos ho]

/-- The first check of a list passes. -/
theorem firstFail_pass {b : Bool} {c : Nat} {l : List (Bool × Nat)} (h : b = false) : firstFail ((b, c) :: l) = firstFail l := by
  simp [firstFail, h]

/-- The field rules of step 4 hold before the command's effect as they hold for the state. -/
theorem regCheck_fresh {s : State} {f : Nat} {r : Ready} (h : FieldsHold s f r) :
    (regCheck (fresh s) r.cmd (operands (getFur s f) r.cmd)).1 = false := h

/-- Two changes of one furrow are one. -/
theorem modFur_modFur (f : Nat) (g h : Furrow → Furrow) (s : State) : modFur f h (modFur f g s) = modFur f (fun x => h (g x)) s := by
  have e : getFur (modFur f g s) f = g (getFur s f) := getFur_modFur_self ..
  have d : (modFur f g s).fur = s.fur.set f (g (getFur s f)) := rfl
  rw [modFur, e, d, set_set]; rfl

/-- Two changes that give a furrow the same value are the same. -/
theorem modFur_congr {f : Nat} {g h : Furrow → Furrow} {s : State} (e : g (getFur s f) = h (getFur s f)) : modFur f g s = modFur f h s := by
  rw [modFur, modFur, e]

/-- A command that fails with nothing else issued leaves its furrow Faulted and tells the collector (R79). -/
theorem failCmd_faults {s : State} {f : Nat} (c : Cmd) (code : Nat) (hi : (getFur s f).issued = []) (hf : (getFur s f).forced = none) :
    FaultsAtIssue s (ended s (failCmd f c code (fresh s))) f c code := by
  unfold FaultsAtIssue
  simp only [getFur_ended, ended_flt]
  simp [failCmd, settleFault, pushIssued, hi, hf, raiseEv, enterFaulted]
  unfold getFur
  simp

end Sys2Proof.Laws
end

