-- ==== Sys2Proof/Laws/Engines.lean ====
section
/-! SUPPORT. What the transfer engines and the memory accesses touch, and what they leave. -/

namespace Sys2Proof.Machine

open Sys2Proof.Laws

theorem EngineWork.rfl {s : State} : EngineWork s s :=
  ⟨by cases s; exact Eq.refl _, fun _ => Eq.refl _, fun _ => Eq.refl _⟩

theorem EngineWork.trans {s t u : State} (h : EngineWork s t) (k : EngineWork t u) : EngineWork s u :=
  ⟨by rw [k.rest, h.rest], fun n => (k.furrows n).trans (h.furrows n), fun p => (k.plots p).trans (h.plots p)⟩

theorem EngineWork.foldl {α : Type} (g : State → α → State) (h : ∀ s a, EngineWork s (g s a)) (l : List α) :
    ∀ s, EngineWork s (l.foldl g s) := by
  induction l with
  | nil => exact fun _ => .rfl
  | cons a r ih => exact fun s => (h s a).trans (ih (g s a))

theorem EngineWork.ite {s u v : State} {c : Prop} [Decidable c] (h : EngineWork s u) (k : EngineWork s v) :
    EngineWork s (if c then u else v) := by
  split <;> assumption

/-- A change of the parts that hold no furrow and no plot. -/
theorem EngineWork.of {s u : State}
    (h : u = { s with wlog := u.wlog, free := u.free, obs := u.obs, flt := { s.flt with inflight := u.flt.inflight }, tally := u.tally,
                      xfer := u.xfer, mp := u.mp, rlc := u.rlc, home := u.home }) : EngineWork s u :=
  ⟨by rw [h], fun n => by rw [h]; exact Eq.refl _, fun p => by rw [h]; exact Eq.refl _⟩

/-- Work after such a change. -/
theorem EngineWork.since {s t u : State} (k : EngineWork t u)
    (h : t = { s with wlog := t.wlog, free := t.free, obs := t.obs, flt := { s.flt with inflight := t.flt.inflight }, tally := t.tally,
                      xfer := t.xfer, mp := t.mp, rlc := t.rlc, home := t.home }) : EngineWork s u := (EngineWork.of h).trans k

theorem work_pushFin (x : Fin) (s : State) : EngineWork s (pushFin x s) := .of (Eq.refl _)

theorem work_modPort (p : Nat) (g : MPort → MPort) (s : State) : EngineWork s (modPort p g s) := .of (Eq.refl _)

theorem work_raiseEv (e : FaultEv) (s : State) : EngineWork s (raiseEv e s) := .of (Eq.refl _)

theorem work_noteIf (b : Bool) (c : Nat) (s : State) : EngineWork s (noteIf b c s) := by
  unfold noteIf
  split
  · exact work_raiseEv ..
  · exact .rfl

theorem work_countSrc (a b n : Nat) (s : State) : EngineWork s (countSrc a b n s) := by
  exact .since (work_noteIf ..) (Eq.refl _)

theorem work_addTally (p t : Nat) (v : DWord) (s : State) : EngineWork s (addTally p t v s) := by
  unfold addTally
  split
  · exact .rfl
  · exact .of (Eq.refl _)

theorem work_countLine (p : Nat) (t : Option Nat) (n : Nat) (s : State) : EngineWork s (countLine p t n s) := by
  unfold countLine
  split
  · refine ⟨Eq.refl _, fun _ => Eq.refl _, fun q => ?_⟩
    by_cases h : q = p
    · subst h; simp [getPlot]
    · simp [getPlot, h]
  · split
    · exact .rfl
    · split
      · exact .rfl
      · exact (work_addTally ..).trans (work_countSrc ..)

theorem work_finishRead (g i : Nat) (e : Bool) (l : Line) (s : State) : EngineWork s (finishRead g i e l s) := by
  unfold finishRead
  split
  · exact .rfl
  · simp only []
    split
    · exact .since (work_pushFin ..) (Eq.refl _)
    · exact .of (Eq.refl _)

theorem work_finishWrite (w n : Nat) (e : Bool) (s : State) : EngineWork s (finishWrite w n e s) := by
  unfold finishWrite
  split
  · exact .rfl
  · rename_i x _
    have h : EngineWork s (if (e || decide (n = 0)) = true then s else countLine x.plot x.tally n s) := by
      split
      · exact .rfl
      · exact work_countLine ..
    simp only []
    split
    · exact h.trans (.since (work_pushFin ..) (Eq.refl _))
    · exact h.trans (.of (Eq.refl _))

theorem work_finishAcc (a : Access) (e : Bool) (l : Line) (s : State) : EngineWork s (finishAcc a e l s) := by
  unfold finishAcc
  split
  · exact work_finishRead ..
  · exact work_finishWrite ..
  · split <;> exact work_pushFin ..

theorem work_access (a : Access) (s : State) : EngineWork s (access a s) := by
  unfold access sramAccess
  split
  · exact work_modPort ..
  · split
    · exact work_finishAcc ..
    · exact work_finishAcc ..
    · exact .since (work_finishAcc ..) (Eq.refl _)
    · exact .since (work_finishAcc ..) (Eq.refl _)

theorem work_startRead (p : Nat) (ls : List Nat) (k : RCont) (s : State) : EngineWork s (startRead p ls k s) := by
  unfold startRead
  simp only []
  split
  · exact work_pushFin ..
  · exact .since (.foldl _ (fun _ _ => work_access ..) _ _) (Eq.refl _)

theorem work_startWrite (p : Nat) (t : Option Nat) (ws : List LineWr) (k : WCont) (s : State) :
    EngineWork s (startWrite p t ws k s) := by
  unfold startWrite
  simp only []
  split
  · exact work_pushFin ..
  · exact .since (.foldl _ (fun _ _ => work_access ..) _ _) (Eq.refl _)

theorem work_partDone (f tid : Nat) (e : Option Nat) (c : Bool) (s : State) : EngineWork s (partDone f tid e c s) := by
  refine ⟨Eq.refl _, fun n => ?_, fun _ => Eq.refl _⟩
  by_cases h : n = f
  · subst h
    simp only [partDone, getFur_modFur_self, Furrow.bare, List.map_map]
    congr 1
    refine List.map_congr_left (fun i _ => ?_)
    simp only [Function.comp]
    split <;> exact Eq.refl _
  · rw [partDone, getFur_modFur_other _ _ _ _ h]

theorem work_failOut (f tid c : Nat) (s : State) : EngineWork s (failOut f tid c s) := by
  refine ⟨Eq.refl _, fun n => ?_, fun _ => Eq.refl _⟩
  by_cases h : n = f
  · subst h
    simp only [failOut, getFur_modFur_self, Furrow.bare, List.map_map]
    congr 1
    refine List.map_congr_left (fun i _ => ?_)
    simp only [Function.comp]
    split
    · exact Eq.refl _
    · exact Eq.refl _
  · rw [failOut, getFur_modFur_other _ _ _ _ h]

theorem work_xferErr (c n : Nat) (h : Bool) (p : Nat) (s : State) : EngineWork s (xferErr c n h p s) := by
  unfold xferErr
  split
  · exact .rfl
  · exact .of (Eq.refl _)

theorem work_noteOwn (c p : Nat) (s : State) : EngineWork s (noteOwn c p s) := work_raiseEv ..

theorem work_selfRefusal (c p : Nat) (s : State) : EngineWork s (selfRefusal c p s) := (work_noteOwn ..).trans (work_xferErr ..)

theorem work_modSeg (i : Nat) (g : Seg → Seg) (s : State) : EngineWork s (modSeg i g s) := .of (Eq.refl _)

theorem work_ownerPart (o : Owner) (a b : Option Nat) (c : Bool) (s : State) : EngineWork s (ownerPart o a b c s) := by
  unfold ownerPart
  split
  · exact work_pushFin ..
  · exact work_partDone ..
  · exact work_pushFin ..

theorem work_runDone (i : Nat) (e : Option Nat) (c : Bool) (s : State) : EngineWork s (runDone i e c s) := by
  unfold runDone
  split
  · exact .rfl
  · rename_i g _
    simp only []
    have h : EngineWork s (match g.err, e with | none, some code => xferErr code g.far false g.plot s | _, _ => s) := by
      split
      · exact work_xferErr ..
      · exact .rfl
    split
    · exact h.trans (.since (work_ownerPart ..) (Eq.refl _))
    · exact h.trans (work_modSeg ..)

theorem work_noteAccess (g : Seg) (c : Nat) (s : State) : EngineWork s (noteAccess g c s) := by
  unfold noteAccess
  split
  · exact .rfl
  · split
    · exact .rfl
    · split
      · exact work_selfRefusal ..
      · exact work_noteOwn ..

theorem work_queueReq (r : Rq) (s : State) : EngineWork s (queueReq r s) := by
  have h : EngineWork s (bumpSeq r.pkt s) := by
    unfold bumpSeq
    simp only []
    split <;> exact .of (Eq.refl _)
  exact h.trans (.of (Eq.refl _))

theorem work_formed (i : Nat) (r : Option Rq) (s : State) : EngineWork s (formed i r s) := by
  unfold formed
  split
  · exact .rfl
  · simp only []
    split
    · exact work_queueReq ..
    · exact (work_queueReq ..).trans (.of (Eq.refl _))

theorem work_flushRow (far c k : Nat) : ∀ s : State, EngineWork s (flushRow far c k s) := by
  induction k with
  | zero => exact fun _ => .rfl
  | succ k ih =>
    intro s
    unfold flushRow
    split
    · exact .rfl
    · split
      · exact .rfl
      · exact ((work_modSeg ..).trans (work_formed ..)).trans (ih _)

theorem work_submit (i r : Nat) (q : Option Rq) (s : State) : EngineWork s (submit i r q s) := by
  unfold submit
  split
  · exact .rfl
  · split
    · exact work_formed ..
    · exact (work_modSeg ..).trans (work_flushRow ..)

theorem work_dropLines (a n : Nat) (s : State) : EngineWork s (dropLines a n s) := by
  unfold dropLines
  split
  · exact .of (Eq.refl _)
  · exact .rfl

@[simp] theorem dropLines_segs (a n : Nat) (s : State) : (dropLines a n s).xfer.segs = s.xfer.segs := by
  unfold dropLines; split <;> exact Eq.refl _
@[simp] theorem dropLines_glb (a n : Nat) (s : State) : (dropLines a n s).glb = s.glb := by
  unfold dropLines; split <;> exact Eq.refl _
@[simp] theorem dropLines_plots (a n : Nat) (s : State) : (dropLines a n s).plots = s.plots := by
  unfold dropLines; split <;> exact Eq.refl _
@[simp] theorem dropLines_ctr (a n : Nat) (s : State) : (dropLines a n s).xfer.ctr = s.xfer.ctr := by
  unfold dropLines; split <;> exact Eq.refl _
@[simp] theorem dropLines_rowCtr (a n : Nat) (s : State) : (dropLines a n s).xfer.rowCtr = s.xfer.rowCtr := by
  unfold dropLines; split <;> exact Eq.refl _

theorem work_activateSeg (i : Nat) (s : State) : EngineWork s (activateSeg i s) := by
  unfold activateSeg
  split
  · exact .rfl
  · rename_i g _
    have bad : EngineWork s (runDone i (some 0x210) false (noteAccess g 0x210 (modSeg i (fun x => { x with active := true, left := 1 }) s))) :=
      ((work_modSeg ..).trans (work_noteAccess ..)).trans (work_runDone ..)
    cases hk : g.kind <;> simp only [Bool.false_eq_true, if_false]
    · split
      · exact bad
      · exact (work_modSeg ..).trans (.foldl _ (fun _ _ => work_startRead ..) _ _)
    · exact (work_modSeg ..).trans (.foldl _ (fun _ _ => work_submit ..) _ _)
    · split
      · exact bad
      · have h : EngineWork s (if g.vol then dropLines (rackAddr g.far g.src) g.lines s else s) := by
          split
          · exact work_dropLines ..
          · exact .rfl
        exact .trans (.ite (h.trans (work_modSeg ..)) ((h.trans (work_modSeg ..)).trans (work_startWrite ..)))
          (.foldl _ (fun _ _ => work_submit ..) _ _)
    · split
      · exact bad
      · exact (work_modSeg ..).trans (work_startRead ..)
    · split
      · exact bad
      · exact (work_modSeg ..).trans (work_startWrite ..)
    · exact (work_modSeg ..).trans (work_submit ..)

theorem work_activateAll (s : State) : EngineWork s (activateAll s) := by
  unfold activateAll
  refine .foldl _ (fun s e => ?_) _ _
  split
  · exact work_activateSeg ..
  · exact .rfl

theorem work_pushSegs (l : List Seg) : ∀ s : State, EngineWork s (pushSegs l s) := by
  induction l with
  | nil => exact fun _ => .rfl
  | cons g r ih => exact fun s => .since (ih _) (Eq.refl _)

theorem work_packetSeg (o : Owner) (p far : Nat) (r : Option Nat) (mk : Nat → Rq) (s : State) :
    EngineWork s (packetSeg o p far r mk s) := (work_pushSegs ..).trans (work_activateAll _)

theorem work_cacheUpset (p a : Nat) (s : State) : EngineWork s (cacheUpset p a s) := .of (Eq.refl _)

theorem work_lookupLines (f : Nat) (c : Cmd) (o : Opnd) (u : Upset) (s : State) : EngineWork s (lookupLines f c o u s) := by
  unfold lookupLines
  simp only []
  split
  · exact .rfl
  · refine .trans (.trans ?_ (work_countSrc ..)) (work_countSrc ..)
    split
    · exact work_cacheUpset ..
    · exact .rfl

theorem work_ownUnmapped (f tid p : Nat) (s : State) : EngineWork s (ownUnmapped f tid p s) :=
  (work_selfRefusal ..).trans (work_failOut ..)

theorem work_pushJob (j : Job) (s : State) : EngineWork s (pushJob j s) := .of (Eq.refl _)

theorem work_modJob (i : Nat) (g : Job → Job) (s : State) : EngineWork s (modJob i g s) := .of (Eq.refl _)

theorem work_beginJob (i : Nat) (j : Job) (s : State) : EngineWork s (beginJob i j s) := by
  unfold beginJob beginCopy
  split
  · exact work_startRead ..
  · exact work_startRead ..
  · exact ((work_modJob ..).trans (work_pushSegs ..)).trans (work_activateAll _)
  · exact work_access ..
  · exact work_pushFin ..
  · exact work_startWrite ..

theorem work_startJob (j : Job) (s : State) : EngineWork s (startJob j s) := by
  unfold startJob
  simp only []
  split
  · exact (work_pushJob ..).trans (work_beginJob ..)
  · exact work_pushJob ..

/-- A request that joins the send queue stands last in it, with the next number of its channel. -/
theorem last_queueReq (r : Rq) (s : State) :
    (queueReq r s).xfer.rqs.getLast? = some (s.xfer.nextId, { r with pkt := { r.pkt with seq := nextSeq s r.pkt } }) := by
  unfold queueReq pushRq bumpSeq
  simp only []
  split <;> simp

/-- With idle engines the packet of a command that needs no channel joins the send queue at once. -/
theorem packetSeg_idle {s : State} {o : Owner} {plot far : Nat} {mk : Nat → Rq} (h : s.xfer.segs = [])
    (hs : ∀ a b, (mk s.xfer.nextId).who ≠ .seg a b) :
    (packetSeg o plot far none mk s).xfer.rqs.getLast? = some (s.xfer.nextId + 1, { mk s.xfer.nextId with
      pkt := { (mk s.xfer.nextId).pkt with seq := nextSeq s (mk s.xfer.nextId).pkt } }) := by
  simp [packetSeg, pushSegs, activateAll, mayActivate, h, activateSeg, getSeg, List.lookup, Tbl.find, submit, modSeg, formed]
  exact last_queueReq ..

/-- `u` differs from `s` in counters, the line cache, the engines' books and the like, and in no furrow. -/
def PlainWork (s u : State) : Prop :=
  u = { s with wlog := u.wlog, free := u.free, obs := u.obs, flt := { s.flt with inflight := u.flt.inflight }, tally := u.tally,
               xfer := u.xfer, mp := u.mp, rlc := u.rlc, home := u.home }

theorem PlainWork.rfl {s : State} : PlainWork s s := by cases s; exact Eq.refl _

theorem PlainWork.trans {s t u : State} (h : PlainWork s t) (k : PlainWork t u) : PlainWork s u := by
  unfold PlainWork at *
  rw [k, h]

theorem PlainWork.ite {s u v : State} {c : Prop} [Decidable c] (h : PlainWork s u) (k : PlainWork s v) :
    PlainWork s (if c then u else v) := by
  split <;> assumption

theorem plain_noteIf (b : Bool) (c : Nat) (s : State) : PlainWork s (noteIf b c s) := .ite (Eq.refl _) .rfl

theorem plain_countSrc (a b n : Nat) (s : State) : PlainWork s (countSrc a b n s) :=
  .trans (t := { s with obs := _ }) (Eq.refl _) (plain_noteIf ..)

theorem plain_dropLines (a n : Nat) (s : State) : PlainWork s (dropLines a n s) := by
  unfold dropLines
  split
  · exact Eq.refl _
  · exact .rfl

theorem plain_lookupLines (f : Nat) (c : Cmd) (o : Opnd) (u : Upset) (s : State) : PlainWork s (lookupLines f c o u s) := by
  unfold lookupLines
  simp only []
  split
  · exact .rfl
  · refine .trans (.trans ?_ (plain_countSrc ..)) (plain_countSrc ..)
    split
    · exact Eq.refl _
    · exact .rfl

/-- A command issued after such work has the same effect on its furrow. -/
theorem work_issueOut_plain {s t : State} (h : PlainWork s t) (f n : Nat) (c : Cmd) (d : Option Nat) :
    EngineWork (issueOut f c n d s) (issueOut f c n d t) := by
  refine .of ?_
  unfold PlainWork at h
  rw [h]
  exact Eq.refl _

/-- A transfer that its segments were cut for goes out. -/
theorem sends_move {s t : State} {f : Nat} {c : Cmd} {segs : List Seg} (h : PlainWork (fresh s) t) :
    Sends s (issueMove f c segs t) f c segs.length none :=
  ((work_issueOut_plain h ..).trans (work_pushSegs ..)).trans (work_activateAll _)

/-- A command that goes out: its furrow has it outstanding, and the engines have taken its work. -/
theorem work_issueOut {f n : Nat} {c : Cmd} {d : Option Nat} {s u : State} (h : EngineWork (issueOut f c n d s) u) :
    (getFur u f).bare = ((getFur s f).sending c n d).bare := by rw [h.furrows, getFur_issueOut_self]

end Sys2Proof.Machine
end

