-- ==== Sys2Proof/Laws/Packets.lean ====
section
/-! SUPPORT. Fields of packets: what a field of a kind area reads after the area was put together from fields. -/

namespace Sys2Proof.Laws

open Sys2Proof.Machine

@[simp] theorem fld_zero {n : Nat} (lo len : Nat) : fld (0 : BitVec n) lo len = 0 := by simp [fld]

/-- A field of two words joined bit by bit. -/
theorem fld_or {n : Nat} (a b : BitVec n) (lo len : Nat) : fld (a ||| b) lo len = fld a lo len ||| fld b lo len := by
  simp [fld, Nat.shiftRight_or_distrib, Nat.or_mod_two_pow]

/-- A field of an area, field by field. -/
theorem fld_area_cons (i n v lo len : Nat) (r : List (Nat × Nat × Nat)) :
    fld (areaOf ((i, n, v) :: r)) lo len
      = ((v % 2 ^ (8 * n)) <<< (8 * (i - 16)) % 2 ^ 352) >>> lo % 2 ^ len ||| fld (areaOf r) lo len := by
  rw [areaOf, fld_or]
  simp only [fld, BitVec.toNat_ofNat]

@[simp] theorem fld_area_nil (lo len : Nat) : fld (areaOf []) lo len = 0 := by simp [areaOf, fld]

/-- The number that the little-endian bytes of a number spell. -/
theorem leNat_leBytes (k : Nat) : ∀ v : Nat, leNat (leBytes k v) = v % 256 ^ k := by
  induction k with
  | zero => intro v; simp [leBytes, leNat, Nat.mod_one]
  | succ k ih =>
    intro v
    simp only [leBytes, leNat, ih, BitVec.toNat_ofNat]
    rw [Nat.pow_succ 256 k, Nat.mul_comm (256 ^ k) 256, Nat.mod_mul]

/-- The bytes of a number from one of them on. -/
theorem leNat_lt : ∀ bs : List Byte, leNat bs < 256 ^ bs.length := by
  intro bs
  induction bs with
  | nil => simp [leNat]
  | cons b r ih =>
    have : b.toNat < 256 := b.isLt
    simp only [leNat, List.length_cons, Nat.pow_succ]
    omega

theorem leNat_take_lt (k : Nat) (bs : List Byte) : leNat (bs.take k) < 2 ^ (8 * k) := by
  refine Nat.lt_of_lt_of_le (leNat_lt _) ?_
  rw [show (2 : Nat) ^ (8 * k) = 256 ^ k by rw [Nat.pow_mul]]
  exact Nat.pow_le_pow_right (by decide) (List.length_take_le ..)

theorem leBytes_drop (i : Nat) : ∀ k v : Nat, (leBytes k v).drop i = leBytes (k - i) (v / 256 ^ i) := by
  induction i with
  | zero => intro k v; simp
  | succ i ih =>
    intro k v
    cases k with
    | zero => simp [leBytes]
    | succ k =>
      simp only [leBytes, List.drop_succ_cons, ih]
      rw [Nat.add_sub_add_right, Nat.div_div_eq_div_mul, Nat.pow_succ, Nat.mul_comm 256]

/-- The first bytes of a number. -/
theorem leBytes_take (m : Nat) : ∀ k v : Nat, (leBytes k v).take m = leBytes (min m k) v := by
  induction m with
  | zero => intro k v; simp [leBytes]
  | succ m ih =>
    intro k v
    cases k with
    | zero => simp [leBytes]
    | succ k => simp only [leBytes, List.take_succ_cons, ih, Nat.add_min_add_right]

/-- Eight bytes of a line as a number (R17). -/
theorem line_dword (l : Line) (i : Nat) (h : i + 8 ≤ 128) : leNat (((lineBytes l).drop i).take 8) = fld l (8 * i) 64 := by
  rw [lineBytes, leBytes_drop, leBytes_take, leNat_leBytes, fld, Nat.shiftRight_eq_div_pow, Nat.pow_mul]
  rw [show min 8 (128 - i) = 8 by omega]
  all_goals rfl

/-- A field read where it was put. -/
theorem area_here (v m k w : Nat) (h : k + m ≤ w) : ((v % 2 ^ m) <<< k % 2 ^ w) >>> k % 2 ^ m = v % 2 ^ m := by
  refine Nat.eq_of_testBit_eq (fun j => ?_)
  simp only [Nat.testBit_mod_two_pow, Nat.testBit_shiftRight, Nat.testBit_shiftLeft]
  by_cases hj : j < m
  · have : k + j < w := by omega
    simp [hj, this]
  · simp [hj]

/-- A field put above the one read. -/
theorem area_above (v m k w lo len : Nat) (h : lo + len ≤ k) : ((v % 2 ^ m) <<< k % 2 ^ w) >>> lo % 2 ^ len = 0 := by
  refine Nat.eq_of_testBit_eq (fun j => ?_)
  simp only [Nat.testBit_mod_two_pow, Nat.testBit_shiftRight, Nat.testBit_shiftLeft, Nat.zero_testBit]
  by_cases hj : j < len
  · have : ¬ k ≤ lo + j := by omega
    simp [this]
  · simp [hj]

/-- A field put below the one read. -/
theorem area_below (v m k w lo len : Nat) (h : k + m ≤ lo) : ((v % 2 ^ m) <<< k % 2 ^ w) >>> lo % 2 ^ len = 0 := by
  refine Nat.eq_of_testBit_eq (fun j => ?_)
  simp only [Nat.testBit_mod_two_pow, Nat.testBit_shiftRight, Nat.testBit_shiftLeft, Nat.zero_testBit]
  have : ¬ lo + j - k < m := by omega
  simp [this]

/-- The first field of an area, when no later field overlaps it. -/
theorem area_first (i n v : Nat) (r : List (Nat × Nat × Nat)) (h : 8 * (i - 16) + 8 * n ≤ 352)
    (hr : fld (areaOf r) (8 * (i - 16)) (8 * n) = 0) :
    fld (areaOf ((i, n, v) :: r)) (8 * (i - 16)) (8 * n) = v % 2 ^ (8 * n) := by
  rw [fld_area_cons, hr, area_here _ _ _ _ h, Nat.or_zero]

/-- A field of an area that the first field does not overlap. -/
theorem area_later (i n v lo len : Nat) (r : List (Nat × Nat × Nat)) (h : 8 * (i - 16) + 8 * n ≤ lo ∨ lo + len ≤ 8 * (i - 16)) :
    fld (areaOf ((i, n, v) :: r)) lo len = fld (areaOf r) lo len := by
  rw [fld_area_cons]
  rcases h with h | h
  · rw [area_below _ _ _ _ _ _ h, Nat.zero_or]
  · rw [area_above _ _ _ _ _ _ h, Nat.zero_or]

/-- The address of a request whose area gives it first. -/
theorem reqAddr_first (p : Packet) (a : Nat) (r : List (Nat × Nat × Nat)) (h : p.area = areaOf ((16, 8, a) :: r))
    (hr : fld (areaOf r) 0 64 = 0) (ha : a < 2 ^ 47) : reqAddr p = a := by
  have := area_first 16 8 a r (by decide) hr
  simp only [reqAddr, Packet.ar, h]
  rw [show 8 * (16 - 16) = 0 from Eq.refl _, show 8 * 8 = 64 from Eq.refl _] at *
  rw [this]
  omega

end Sys2Proof.Laws
end

