-- ==== Sys2Proof/Tests/Slice0.lean ====
section
/-! SUPPORT. Small tests: ill-formed operands are refused, and worked values of the manual. -/

namespace Sys2Proof.Tests

open Sys2Proof Sys2Proof.Machine

theorem test_wf_nop : (Instr.nop 255).wf = true := by decide
theorem test_wf_furrow : (Instr.nop 256).wf = false := by decide
theorem test_wf_supervisor : (Instr.furDoorbell 4 0 0).wf = false := by decide
theorem test_wf_doorbell_furrow : (Instr.furDoorbell 0 256 0).wf = false := by decide
theorem test_wf_slot : (Instr.imageReplacement 64).wf = false := by decide
theorem test_wf_node : (Instr.ackCoalesceExpiry 65536).wf = false := by decide
theorem test_wf_link : (Instr.writeData 512 { kind := 0, vn := 0 }).wf = false := by decide
theorem test_wf_packet_kind : (Packet.wf { kind := 256, vn := 0 }) = false := by decide
theorem test_wf_packet_vn : (Packet.wf { kind := 0, vn := 8 }) = false := by decide
theorem test_wf_packet_pathVn : (Packet.wf { kind := 0, vn := 0, pathVn := 8 }) = false := by decide
theorem test_wf_packet_flits : (Packet.wf { kind := 0, vn := 0, flits := 32 }) = false := by decide
theorem test_wf_packet_length : (Packet.wf { kind := 0, vn := 0, flits := 1 }) = false := by decide
theorem test_wf_packet_rowCh : (Packet.wf { kind := 0, vn := 0, rowCh := 8 }) = false := by decide
theorem test_wf_packet_key : (Packet.wf { kind := 0, vn := 0, key := 4096 }) = false := by decide
theorem test_wf_packet_gen : (Packet.wf { kind := 0, vn := 0, gen := 16 }) = false := by decide
theorem test_wf_packet_src : (Packet.wf { kind := 0, vn := 0, src := 65536 }) = false := by decide
theorem test_wf_packet_dst : (Packet.wf { kind := 0, vn := 0, dst := 65536 }) = false := by decide
theorem test_wf_packet_hint : (Packet.wf { kind := 0, vn := 0, hint := 65536 }) = false := by decide
theorem test_wf_packet_seq : (Packet.wf { kind := 0, vn := 0, seq := 4294967296 }) = false := by decide
theorem test_wf_port : (Instr.mpCredit 16 true).wf = false := by decide
theorem test_wf_tag : (Instr.mpRespLimitExpiry 0 1024).wf = false := by decide
theorem test_wf_lane : (Instr.detectRetry 512).wf = false := by decide
theorem test_wf_group : (Instr.lanePllLockLoss 64).wf = false := by decide
theorem test_wf_plot : (Instr.plotDrainComplete 256).wf = false := by decide
theorem test_wf_mailbox : (Instr.echo 4).wf = false := by decide
theorem test_wf_domain : (Instr.pwrAckTimeout 96).wf = false := by decide
theorem test_wf_hint_dest : (Instr.hintDecay 1024 0).wf = false := by decide
theorem test_wf_severity : (Instr.firmwareLogEntry 4 0 0 0).wf = false := by decide
theorem test_wf_source : (Instr.firmwareLogEntry 0 256 0 0).wf = false := by decide
theorem test_wf_code : (Instr.firmwareLogEntry 0 0 65536 0).wf = false := by decide
theorem test_wf_unit_kind : (Instr.controlStateError 4 0).wf = false := by decide
theorem test_wf_cmd_op : (Cmd.wf { op := 256 }) = false := by decide
theorem test_wf_cmd_layer : (Cmd.wf { layer := 65536 }) = false := by decide
theorem test_wf_cmd_oper : (Cmd.wf { oper := 65536 }) = false := by decide
theorem test_wf_cmd_id : (Cmd.wf { id := 65536 }) = false := by decide
theorem test_wf_cmd_len : (Cmd.wf { len := 4294967296 }) = false := by decide
theorem test_wf_cmd_d : (Cmd.wf { d := 256 }) = false := by decide
theorem test_wf_cmd_sel : (Cmd.wf { sel := 256 }) = false := by decide
theorem test_wf_word_seq : (LinkWord.wf { seq := 256 }) = false := by decide
theorem test_wf_word_kind : (LinkWord.wf { kind := 4 }) = false := by decide
theorem test_wf_word_arg : (LinkWord.wf { arg := 256 }) = false := by decide

end Sys2Proof.Tests
end

section
/-! SUPPORT. The scope family: commands whose effect is known, the reset state, the start sequence, the control port's checks, and
the statements that they settle. -/

namespace Sys2Proof.Laws

open Sys2Proof.Machine

/-- A command run as a change whose effect is known, with what follows at once. -/
theorem run_of {f : State → State} {s v : State} (h : f (fresh s) = v) : run f s = .next (after s v) := h ▸ run_next f s

/-- A command run as a change whose effect is known. -/
theorem act_of {f : State → State} {s v : State} (h : f (fresh s) = v) : act f s = .next (ended s v) := h ▸ act_next f s

/-! ### The reset state -/

/-- Every plot but plot 0 reads as free at reset. -/
theorem reset_getPlot_other {p : Nat} (h : p ≠ 0) : getPlot State.reset p = {} := by
  have hp : ¬ 0 = p := fun e => h e.symm
  simp only [getPlot, State.reset, State.coldStarted, Tbl.at, Tbl.getD, hp, if_false]
  rfl

/-- SUP_OWNER at reset: no owner reads as 7, and the reader's number stands in bits 6 and 7 (R410). -/
theorem reset_supOwner {sv : Nat} (h : sv < 4) : (regRead sv 0x010000 State.reset).1 = BitVec.ofNat 32 (7 + 64 * sv) := by
  obtain rfl | rfl | rfl | rfl : sv = 0 ∨ sv = 1 ∨ sv = 2 ∨ sv = 3 := by omega
  all_goals rfl

/-! ### Buffer SRAM zeroed, and records that leave the start sequencer alone -/

theorem writeAll_append (cs ds : List Host.Cell) : ∀ m : Memory, m.writeAll (cs ++ ds) = (m.writeAll cs).writeAll ds := by
  induction cs with
  | nil => exact fun _ => rfl
  | cons c r ih => exact fun m => ih (m.write c.1 c.2)

/-- A zero written over every listed byte leaves none listed: each write removes the byte at the front. -/
theorem writeAll_zeros (m : Memory) : m.writeAll (m.map (fun c => (c.1, 0))) = [] := by
  induction m with
  | nil => rfl
  | cons c r ih =>
    have front : Memory.write (c :: r) c.1 0 = r := by simp [Memory.write]
    rw [List.map_cons, Memory.writeAll, front, ih]

theorem curSram_sramZero (s : State) : curSram (sramZero s) = [] := by
  rw [curSram, sramZero, writeAll_append]
  exact writeAll_zeros (curSram s)

@[simp] theorem wakeDom_start (d : Nat) (s : State) : (wakeDom d s).start = s.start := by
  simp only [wakeDom]
  split <;> rfl

@[simp] theorem queueRec_start (r : MarlRec) (s : State) : (queueRec r s).start = s.start := wakeDom_start ..

theorem foldl_queueRec_start {α : Type} (rec : α → MarlRec) (l : List α) :
    ∀ s : State, (l.foldl (fun s a => queueRec (rec a) s) s).start = s.start := by
  induction l with
  | nil => exact fun _ => rfl
  | cons a r ih => exact fun s => (ih _).trans (queueRec_start ..)

@[simp] theorem takeDump_start (code : Nat) (s : State) : (takeDump code s).start = s.start := by
  unfold takeDump
  split
  · rfl
  · exact foldl_queueRec_start ..

@[simp] theorem startRecord_start (n code : Nat) (s : State) : (startRecord n code s).start = s.start := queueRec_start ..

/-! ### The start sequence (R454-R460) -/

theorem skipped_cold {s : State} (n : Nat) (h : s.start.warm = false) : skipped s n = n := by simp [skipped, h]

theorem skipped_other (s : State) {n : Nat} (h11 : n ≠ 11) (h12 : n ≠ 12) : skipped s n = n := by simp [skipped, h11, h12]

/-- A step of a start after which nothing is skipped lets the next one begin. -/
theorem startOn_next {s : State} {n : Nat} (h0 : s.start.state = 0) (hn : n ≠ 16) (hk : skipped s n = n) :
    startOn n s = enterStep (n + 1) { s with start := { s.start with step := n, stepSince := s.clk } } := by
  rw [startOn, if_pos h0, advance, if_neg hn, hk]
  rfl

/-- Step 11 of a cold start asks for every domain. -/
theorem enterStep_cold {s : State} (h : s.start.warm = false) :
    enterStep 11 s = (List.range (domCount s)).foldl (fun s d => needDom d s) s := by
  simp only [enterStep, h, Bool.false_eq_true, if_false]

section
variable {s : State} {r : StepReport}

theorem finishStep_tieoffs (h : curStep s = 1) (h0 : s.start.state = 0) (ht : s.glb.ties.tstEn = false) :
    finishStep r s = if tiesOk s.glb.ties = true then { s with start := { s.start with step := 1, stepSince := s.clk } }
      else holdBlock 0x710 s := by
  simp only [finishStep, h, ht, Bool.false_eq_true, if_false]
  rw [startOn_next h0 (by decide) (skipped_other s (by decide) (by decide))]
  rfl

theorem finishStep_failedCount (h : curStep s = 2) (h0 : s.start.state = 0) :
    finishStep r s = if s.start.failed = 3 then raise 0x742 { s with start := { s.start with running := false } }
      else needDom (marlDom s) (needDom (mgmtDom s) { s with start := { s.start with step := 2, stepSince := s.clk } }) := by
  simp only [finishStep, h]
  rw [startOn_next h0 (by decide) (skipped_other s (by decide) (by decide))]
  rfl

theorem finishStep_versions {code a b : Nat} (h : curStep s = 8) (hv : versionFault s = some (code, a, b)) :
    finishStep r s = holdBlock code { s with start := { s.start with ver := pk [(0, a), (16, b)] } } := by
  simp only [finishStep, h, hv]
  rfl

/-- A self-test that finds nothing only zeroes buffer SRAM. -/
theorem selfTest_clean (hr : r.ramBad = false) (hb : r.badBanks = []) : selfTest r s = (sramZero s, true) := by
  simp [selfTest, hr, hb]

theorem selfTest_ramBad (hr : r.ramBad = true) : selfTest r s = (s, false) := by simp [selfTest, hr]

theorem finishStep_selfTest (h : curStep s = 10) (h0 : s.start.state = 0) (hw : s.start.warm = false)
    (hr : r.ramBad = false) (hb : r.badBanks = []) :
    finishStep r s = (List.range (domCount s)).foldl (fun s d => needDom d s)
      { sramZero s with start := { s.start with step := 10, stepSince := s.clk } } := by
  have tested : finishStep r s = startOn 10 (sramZero s) := by simp [finishStep, h, hw, selfTest_clean hr hb]
  exact tested.trans ((startOn_next (s := sramZero s) h0 (by decide) (skipped_cold 10 hw)).trans (enterStep_cold hw))

theorem finishStep_selfTestBad (h : curStep s = 10) (hw : s.start.warm = false) (hr : r.ramBad = true) :
    finishStep r s = failStart 0x741 s := by
  simp only [finishStep, h, hw, selfTest_ramBad hr, Bool.false_eq_true, if_false]

theorem finishStep_profile (h : curStep s = 13) (h0 : (applyProfile s).start.state = 0) :
    finishStep r s = trainAll { applyProfile s with
      start := { (applyProfile s).start with step := 13, stepSince := (applyProfile s).clk } } := by
  simp only [finishStep, h]
  exact startOn_next h0 (by decide) (skipped_other _ (by decide) (by decide))

theorem finishStep_last (h : curStep s = 16) (h0 : s.start.state = 0) (hq : startQueued s = false) :
    finishStep r s = toRun s := by
  simp only [finishStep, h, hq, Bool.false_eq_true, if_false, startOn, h0, if_true, advance]

theorem stepLate_fails (h0 : curStep s ≠ 0) (h14 : curStep s ≠ 14) (h15 : curStep s ≠ 15)
    (hp : s.start.stepSince + startBound s (curStep s) ≤ s.clk) : stepLate s = failStart 0x740 s :=
  if_pos ⟨h0, h14, h15, decide_eq_true hp⟩

theorem icqStalled_fails (h0 : s.start.state = 0) (hr : s.start.running = true) (h9 : 9 ≤ s.start.step)
    (hp : s.flt.beatSince + 10000000 ≤ s.clk) : icqStalled s = failStart 0x740 s :=
  if_pos ⟨h0, hr, h9, decide_eq_true hp⟩

theorem trainLate_goesOn (h : curStep s = 14) (h0 : s.start.state = 0) (hp : s.start.stepSince + startBound s 14 ≤ s.clk) :
    trainLate s = startOn 14 (trainRest s) :=
  if_pos ⟨h, h0, decide_eq_true hp⟩

theorem lockLate_goesOn (h : curStep s = 15) (h0 : s.start.state = 0) (hp : s.start.stepSince + startBound s 15 ≤ s.clk) :
    lockLate s = startOn 15 (if (endLock s).sun.state = .locked then endLock s else raise 0x921 (endLock s)) := by
  rw [lockLate, if_pos ⟨h, h0, decide_eq_true hp⟩]
  by_cases hl : (endLock s).sun.state = .locked <;> simp [noteIf, hl]

theorem beat_advances (hi : icqRuns s = true) (h9 : 9 ≤ s.start.step) (hp : s.flt.beatSince + 1000000 ≤ s.clk) :
    beat s = { s with flt := { s.flt with icqBeat := s.flt.icqBeat + 1, beatSince := s.clk } } := by
  have hb : (icqRuns s && decide (9 ≤ s.start.step) && passed s s.flt.beatSince 1000000) = true := by simp [passed, *]
  rw [beat, if_pos hb]
  rfl

/-- A first or second failure of a start counts and begins a cold start (R460). -/
theorem failStart_again (code : Nat) (h : s.start.failed < 2) :
    (failStart code s).start.failed = s.start.failed + 1 ∧ (failStart code s).start.step = 0
      ∧ (failStart code s).start.warm = false := by
  have hn : ¬ 3 ≤ s.start.failed + 1 := by omega
  simp [failStart, hn, actCold, startBegun]

/-- A third failure of a start ends it (R460). -/
theorem failStart_third (code : Nat) (h : 2 ≤ s.start.failed) :
    (failStart code s).start.failed = 3 ∧ (failStart code s).start.running = false := by
  have hn : 3 ≤ s.start.failed + 1 := by omega
  simp [failStart, hn]

end

/-! ### The control port's checks, in their order (R516, R560, R561) -/

theorem serves_of_readable {s : State} {sv addr : Nat} (h : Readable s sv addr) : cpServes s sv = true := h.1

section
variable {s : State} {sv addr : Nat} (k : State → State)

theorem cpGate_misaligned (h : addr % 4 ≠ 0) : cpGate sv addr k s = cpAnswer sv 1 0 (raise 0x8F0 s) := if_pos h

theorem cpGate_outside (ha : addr % 4 = 0) (hr : inRegion addr = false) :
    cpGate sv addr k s = cpAnswer sv 0 0 (raise 0x8F3 s) := by simp [cpGate, ha, hr]

theorem cpGate_absent (ha : addr % 4 = 0) (hr : inRegion addr = true) (hu : cpAbsent s addr = true) :
    cpGate sv addr k s = cpAnswer sv 0 0 s := by simp [cpGate, ha, hr, hu]

theorem cpGate_off {d : Nat} (ha : addr % 4 = 0) (hr : inRegion addr = true) (hu : cpAbsent s addr = false)
    (hd : cpDomain s addr = some d) (ho : domOn s d = false) : cpGate sv addr k s = cpAnswer sv 2 0 s := by
  simp [cpGate, ha, hr, hu, hd, ho]

/-- An access that reaches its register passes every check. -/
theorem cpGate_readable (h : Readable s sv addr) : cpGate sv addr k s = k s := by
  obtain ⟨-, ha, hr, hu, hon⟩ := h
  cases hd : cpDomain s addr with
  | none => simp [cpGate, ha, hr, hu, hd]
  | some d => simp [cpGate, ha, hr, hu, hd, hon d hd]

/-- A write that reaches its register without the right is answered with status 0, ignored and counted (R394). -/
theorem cpWrite_denied (h : Readable s sv addr) (hm : mayWrite s sv addr = false) :
    cpWrite sv addr k s = cpAnswer sv 0 0 (denied sv s) := by
  rw [cpWrite, if_pos (serves_of_readable h), cpGate_readable _ h]
  simp only [hm, Bool.false_eq_true, if_false]

end

/-- A denied write counted, and its event set (R394). -/
def deniedCounted (sv : Nat) (s : State) : State :=
  { s with sup := { s.sup with denied := s.sup.denied.set sv (satInc 255 (s.sup.denied.at sv)), events := setBit s.sup.events 3 true } }

/-- A denied write is counted, and noted with 0x671 unless the event already stands (R394). -/
theorem denied_eq (sv : Nat) (s : State) :
    denied sv s = if bitAt s.sup.events 3 then deniedCounted sv s else raise 0x671 (deniedCounted sv s) := by
  cases h : bitAt s.sup.events 3 <;> simp [denied, deniedCounted, noteIf, h]

/-! ### Parity (R514, R516) -/

theorem parityChecked_wrong {s : State} {sv : Nat} {ok : Bool} (k : State → State) (hs : cpServes s sv = true) (h : ok = false) :
    parityChecked sv ok k s = cpAnswer sv 1 0 (raise 0x8F2 s) := by simp [parityChecked, hs, h]

section
variable {s : State} {sv : Nat} {a : BitVec 24} {w : Word} {par : BitVec 2}

theorem writeAccess_parity (h0 : par.getLsbD 0 = reqParity sv true a.toNat) (h1 : par.getLsbD 1 = oddParity w) :
    writeAccess sv a.toNat w par s = cpWrite sv a.toNat (regWrite sv a.toNat w) s := by
  simp only [writeAccess, parityChecked, h0, h1, beq_self_eq_true, Bool.and_self, if_true]

theorem readAccess_parity : readAccess sv a.toNat (reqParity sv false a.toNat) s = cpRead sv a.toNat (regRead sv a.toNat) s := by
  simp [readAccess, parityChecked]

/-- Two parity bits other than the right ones are wrong in one of them. -/
theorem writeParity_wrong {bad : BitVec 2} (h0 : par.getLsbD 0 = reqParity sv true a.toNat) (h1 : par.getLsbD 1 = oddParity w)
    (h : bad ≠ par) : (bad.getLsbD 0 == reqParity sv true a.toNat && bad.getLsbD 1 == oddParity w) = false := by
  rw [← h0, ← h1, Bool.eq_false_iff]
  intro e
  obtain ⟨e0, e1⟩ := Bool.and_eq_true_iff.mp e
  refine h (BitVec.eq_of_getLsbD_eq fun i hi => ?_)
  obtain rfl | rfl : i = 0 ∨ i = 1 := by omega
  · exact beq_iff_eq.mp e0
  · exact beq_iff_eq.mp e1

/-- An access of right parity, a write or a read, passes the port's checks before its own rule, while the port serves. -/
theorem access_gated {c : Instr} (h0 : par.getLsbD 0 = reqParity sv true a.toNat) (h1 : par.getLsbD 1 = oddParity w)
    (hc : c = .registerWrite sv a w par ∨ c = .registerRead sv a (reqParity sv false a.toNat)) (hs : cpServes s sv = true) :
    ∃ k, exec c s = .next (after s (cpGate sv a.toNat k (fresh s))) := by
  rcases hc with rfl | rfl
  · exact ⟨_, run_of ((writeAccess_parity h0 h1).trans (if_pos hs))⟩
  · exact ⟨_, run_of (readAccess_parity.trans (if_pos hs))⟩

/-- While the port does not serve, an access does nothing. -/
theorem access_unserved {c : Instr} (h0 : par.getLsbD 0 = reqParity sv true a.toNat) (h1 : par.getLsbD 1 = oddParity w)
    (hc : c = .registerWrite sv a w par ∨ c = .registerRead sv a (reqParity sv false a.toNat)) (hs : ¬ cpServes s sv = true) :
    exec c s = .next (after s (fresh s)) := by
  rcases hc with rfl | rfl
  · exact run_of ((writeAccess_parity h0 h1).trans (if_neg hs))
  · exact run_of (readAccess_parity.trans (if_neg hs))

end

end Sys2Proof.Laws

namespace Sys2Proof.Proofs

open Sys2Proof.Machine Sys2Proof.Laws

/-- Settles O1: the queue's first case. -/
theorem stepRunsFrontCommand : Obligations.StepRunsFrontCommand := by
  unfold Obligations.StepRunsFrontCommand
  intro s c r h
  simp only [step, h]

/-- Settles O59: the reset state is a closed term, so that each named part of it is read off. -/
theorem resetLeavesTheColdValues : Obligations.ResetLeavesTheColdValues := by
  unfold Obligations.ResetLeavesTheColdValues
  refine ⟨⟨rfl, rfl⟩, rfl, rfl, rfl, rfl, rfl, rfl, rfl, fun p hp => ?plots, fun sv => ?registers, fun sv => reset_supOwner⟩
  case plots => rw [reset_getPlot_other hp]
  case registers => exact ⟨rfl, rfl, rfl, rfl, rfl, rfl⟩

/-- Settles O53: each clause is the lemma of the sequencer's function for that step. -/
theorem startRunsItsSteps : Obligations.StartRunsItsSteps := by
  unfold Obligations.StartRunsItsSteps
  rintro s u r rfl
  refine ⟨fun h h0 ht => ⟨fun hok => ?tiesGood, fun hok => ?tiesBad⟩, fun h h0 => ⟨fun hf => ?domains, fun hf => ?threeFailures⟩,
    fun h code a b hv => ?versions, fun h h0 hw => ⟨fun hr hb => ?zeroed, fun hr => ?ramBad⟩, fun y _ => curSram_sramZero y, ?profile,
    fun h h0 hq => ?inRun, fun h0 h14 h15 hp => ?late, fun h0 hr h9 hp => ?stalled,
    fun code y => ⟨failStart_again code, failStart_third code⟩, fun h h0 hp => ?trainingBound, ?lockBound, fun hi h9 hp => ?beat⟩
  case tiesGood => exact run_of ((finishStep_tieoffs (s := fresh s) h h0 ht).trans (if_pos hok))
  case tiesBad => exact run_of ((finishStep_tieoffs (s := fresh s) h h0 ht).trans (if_neg (by simp [hok])))
  case domains => exact run_of ((finishStep_failedCount (s := fresh s) h h0).trans (if_neg hf))
  case threeFailures => exact run_of ((finishStep_failedCount (s := fresh s) h h0).trans (if_pos hf))
  case versions => exact run_of (finishStep_versions (s := fresh s) h hv)
  case zeroed => exact run_of (finishStep_selfTest (s := fresh s) h h0 hw hr hb)
  case ramBad => exact run_of (finishStep_selfTestBad (s := fresh s) h hw hr)
  case profile =>
    rintro h _ rfl h0
    exact run_of (finishStep_profile (s := fresh s) h h0)
  case inRun => exact run_of (finishStep_last (s := fresh s) h h0 hq)
  case late => exact run_of (stepLate_fails (s := fresh s) h0 h14 h15 hp)
  case stalled => exact run_of (icqStalled_fails (s := fresh s) h0 hr h9 hp)
  case trainingBound => exact run_of (trainLate_goesOn (s := fresh s) h h0 hp)
  case lockBound =>
    rintro h h0 hp _ rfl
    exact run_of (lockLate_goesOn (s := fresh s) h h0 hp)
  case beat => exact act_of (beat_advances (s := fresh s) hi h9 hp)

/-- Settles O54: each clause is the port's check, in its order, that answers the access. -/
theorem controlPortAnswersEveryAccess : Obligations.ControlPortAnswersEveryAccess := by
  unfold Obligations.ControlPortAnswersEveryAccess
  rintro s u sv a w par rfl h0 h1
  refine ⟨fun h => ?write, fun h => ?read, fun c hc hs => ?gate, fun h hm => ?noRight, fun bad hs hb => ⟨?badWrite, ?badRead⟩,
    fun wr h => ?timeout, fun h => ?clockLost, ?clockBack, fun h c hc => ?noClock⟩
  case write => exact run_of ((writeAccess_parity h0 h1).trans (cpWrite_writable h _))
  case read => exact run_of (readAccess_parity.trans (cpRead_readable h _))
  case gate =>
    obtain ⟨k, he⟩ := access_gated h0 h1 hc hs
    rw [he]
    refine ⟨fun ha => ?_, fun ha hr => ?_, fun ha hr hu => ?_, fun d ha hr hu hd ho => ?_⟩
    · rw [cpGate_misaligned k ha]
    · rw [cpGate_outside k ha hr]
    · rw [cpGate_absent (s := fresh s) k ha hr hu]
    · rw [cpGate_off (s := fresh s) k ha hr hu hd ho]
  case noRight =>
    have ignored := (cpWrite_denied (s := fresh s) (regWrite sv a.toNat w) h hm).trans (congrArg (cpAnswer sv 0 0) (denied_eq sv (fresh s)))
    exact run_of ((writeAccess_parity h0 h1).trans ignored)
  case badWrite => exact run_of (parityChecked_wrong (s := fresh s) _ hs (writeParity_wrong h0 h1 hb))
  case badRead => exact run_of (parityChecked_wrong (s := fresh s) _ hs (by simp))
  case timeout => exact act_of ((if_pos (serves_of_readable h)).trans (cpGate_readable (s := fresh s) _ h))
  case clockLost => exact act_of (if_pos h)
  case clockBack => exact act_of rfl
  case noClock => exact access_unserved h0 h1 hc (by simp [cpServes, h])

end Sys2Proof.Proofs
end

section
/-! SUPPORT. The ordering family: home requests and their jobs, a core's board-window accesses, the line cache's register, and the
statements that they settle. -/

namespace Sys2Proof.Laws

open Sys2Proof.Machine

/-! ### A request at its home: its channel, its checks, and what becomes of it (R158, R436-R438, R566) -/

/-- What a home asks of a request before it performs it does not hang on the packet's buffer, nor on the home's windows. -/
theorem homeChecks_taken (s : State) (l plot : Nat) (p : Packet) (h : Home) :
    homeChecks { taken s l p with home := h } plot p = homeChecks s plot p := by rw [taken_eq]; rfl

theorem bedGone_taken (s : State) (l plot : Nat) (p : Packet) (h : Home) :
    bedGone { taken s l p with home := h } plot p = bedGone s plot p := by rw [taken_eq]; rfl

theorem isBoard_taken (s : State) (l : Nat) (p : Packet) (h : Home) :
    isBoard { taken s l p with home := h } l p = isBoard s l p := by rw [taken_eq]; rfl

theorem replyTo_taken (s : State) (l kind : Nat) (p : Packet) (area : BitVec 352) (payload : List (BitVec 512)) :
    replyTo (taken s l p) p kind area payload = replyTo s p kind area payload := by rw [taken_eq]; rfl

/-- A request that is new to its channel moves its channel on, and nothing else (R436, R438). -/
theorem dedup_new {s : State} {l : Nat} {p : Packet} {h : Home} (hf : Fresh s p h) :
    dedup (taken s l p) p = (.fresh, { taken s l p with home := h }) := by
  unfold Fresh at hf
  unfold dedup
  cases hr : p.row with
  | true =>
    rw [if_pos hr] at hf
    obtain ⟨hq, rfl⟩ := hf
    simp [hq, modHome]
  | false =>
    rw [if_neg (by simp [hr])] at hf
    obtain ⟨w, hw, rfl⟩ := hf
    simp [hw, modHome]

/-- A counted request that the window has seen is a duplicate (R436). -/
theorem dedup_seen {s : State} {l : Nat} {p : Packet} (hr : p.row = false)
    (hw : ∀ w, winCheck (s.home.win.at p.src) p.seq ≠ (true, w)) : dedup (taken s l p) p = (.dup, taken s l p) := by
  unfold dedup
  rw [taken_home, if_neg (by simp [hr])]
  cases hc : winCheck (s.home.win.at p.src) p.seq with
  | mk ok w =>
    cases ok with
    | true => exact absurd hc (hw w)
    | false => rfl

section
variable {s : State} {l kind plot : Nat} {p : Packet} {h : Home} (k : Nat → State → State)

theorem arrives_kind (hp : Arrives s l p kind plot) : p.kind = kind := by
  obtain ⟨⟨-, -, hk, -⟩, -⟩ := hp
  exact hk

/-- No atomic holds a line of the request, and an ATOM finds room: the request may leave its buffer (R166, R179). -/
theorem request_free (hb : lineBusy s p = false) (ha : kind = 0x16 → atomsFull s = false) :
    ¬ (lineBusy (fresh s) p || (kind == 0x16 && atomsFull (fresh s))) = true := by
  have idle : lineBusy (fresh s) p = false := hb
  have room : kind = 0x16 → atomsFull (fresh s) = false := ha
  simpa [idle] using room

variable (hp : Arrives s l p kind plot) (hb : lineBusy s p = false) (ha : kind = 0x16 → atomsFull s = false)
include hp hb ha

theorem homeRequest_l3 (h3 : s.flt.l3 = true) : homeRequest l p kind k (fresh s)
    = queueReply (replyTo s p 0x25 (areaOf [(16, 2, 0xF30)]) []) (p.kind == 0x11) (taken s l p) := by
  rw [homeRequest, if_neg (request_free hb ha), arrival_arrives hp, taken_flt, if_pos h3, replyTo_taken]

theorem homeRequest_seen (h3 : s.flt.l3 = false) (hd : dedup (taken s l p) p = (.dup, taken s l p)) :
    homeRequest l p kind k (fresh s) = duplicate l p plot (taken s l p) := by
  rw [homeRequest, if_neg (request_free hb ha), arrival_arrives hp, taken_flt, if_neg (by simp [h3]), hd]

/-- A new request meets the checks of its home, and goes on with what they leave (R566). -/
theorem homeRequest_new (h3 : s.flt.l3 = false) (hf : Fresh s p h) :
    homeRequest l p kind k (fresh s) = if homeChecks s plot p ≠ 0
      then refuse p plot (p.kind == 0x11) (homeChecks s plot p) { taken s l p with home := h }
      else k plot { taken s l p with home := h } := by
  rw [homeRequest, if_neg (request_free hb ha), arrival_arrives hp, taken_flt, if_neg (by simp [h3]), dedup_new hf]
  simp only [homeChecks_taken]

/-- A new request that the home performs by its memory accesses becomes a job, unless its bed is gone (R158, R189). -/
theorem memRequest_passed (h3 : s.flt.l3 = false) (hf : Fresh s p h) (hc : homeChecks s plot p = 0) :
    memRequest l p kind (fresh s) = if bedGone s plot p = true
      then collStale plot (p.ar 32 2) (undo p false { taken s l p with home := h })
      else startJob { pkt := p, link := l, plot := plot, board := isBoard s l p } { taken s l p with home := h } := by
  rw [memRequest, homeRequest_new _ hp hb ha h3 hf, if_neg (by simp [hc]), bedGone_taken, isBoard_taken]

end

/-- Every row of a home request runs the home's rule for requests that memory accesses perform. -/
theorem exec_homeRows {l kind : Nat} {p : Packet} {c : Instr} (h : (c, kind) ∈ homeRows l p) (s : State) :
    exec c s = run (memRequest l p kind) s := by
  simp only [homeRows, List.mem_cons, List.not_mem_nil, or_false, Prod.mk.injEq] at h
  rcases h with ⟨rfl, rfl⟩ | ⟨rfl, rfl⟩ | ⟨rfl, rfl⟩ | ⟨rfl, rfl⟩ | ⟨rfl, rfl⟩ | ⟨rfl, rfl⟩ | ⟨rfl, rfl⟩ | ⟨rfl, rfl⟩ <;> rfl

/-! ### Jobs at a home (R132, R136, R158, R162) -/

theorem startJob_begins {j : Job} {s : State} (hj : j.held = false) (hm : mayBegin s s.home.nextId j = true) :
    startJob j s = beginJob s.home.nextId j (pushJob j s) := by
  have same : { j with held := !true } = j := by cases j; cases hj; rfl
  simp only [startJob, hm, same, if_true]

theorem startJob_waits {j : Job} {s : State} (hm : mayBegin s s.home.nextId j = false) :
    startJob j s = pushJob { j with held := true } s := by
  simp only [startJob, hm, Bool.not_false, Bool.false_eq_true, if_false]

theorem releaseJob_begins {id : Nat} {j : Job} {s : State} (hl : s.home.jobs.lookup id = some j) (hj : j.held = true)
    (hm : mayBegin s id j = true) : releaseJob id s = beginJob id j (modJob id (fun x => { x with held := false }) s) := by
  simp only [releaseJob, hl, hj, hm, Bool.and_self, if_true]

/-- A job of no row channel ends without letting another begin. -/
theorem endJob_counted {id : Nat} {j : Job} {s : State} (hr : j.pkt.row = false) : endJob id j s = dropJob id s := by
  simp only [endJob, hr, Bool.false_eq_true, if_false]

/-- A job of no row channel issues every write of its request in one go. -/
theorem nextWrites_counted {j : Job} (hr : j.pkt.row = false) (h0 : j.segs = 0) : nextWrites j = jobWrites j.pkt := by
  simp [nextWrites, h0, hr]

section
variable {s : State} {id : Nat} {j : Job} {ls : List Line} (hl : s.home.jobs.lookup id = some j) (hw : j.bw = none)
  (hr : j.pkt.row = false)
include hl hw hr

theorem homeRead_failed :
    homeRead id true ls s = refuse j.pkt j.plot (j.board && j.pkt.hint != 0) 0x211 (dropJob id s) := by
  simp only [homeRead, hl, hw, endJob_counted hr, if_true]

theorem homeRead_short (hk : j.pkt.kind = 0x14) : homeRead id false ls s
    = queueReply (replyTo s j.pkt 0x21 (areaOf [(32, 8, leNat (((linesBytes ls).drop (reqAddr j.pkt % 128)).take 8))]) []) false
        (dropJob id s) := by
  simp only [homeRead, hl, hw, hk, endJob_counted hr, Bool.false_eq_true, if_false, if_true]
  rfl

theorem homeRead_lines (hk : j.pkt.kind ≠ 0x14) : homeRead id false ls s
    = queueReply (replyTo s j.pkt 0x20 (areaOf [(16, 8, (Config.readDest (s.free + 1)).toNat)]) (flitsOfLines ls))
        (j.board && j.pkt.hint != 0) { dropJob id s with free := s.free + 1 } := by
  simp only [homeRead, hl, hw, hk, endJob_counted hr, Bool.false_eq_true, if_false]
  rfl

theorem homeWritten_failed : homeWritten id true s = refuse j.pkt j.plot j.board 0x211 (dropJob id s) := by
  simp only [homeWritten, hl, hw, endJob_counted hr, Bool.not_true, Bool.false_and, Bool.false_eq_true, if_false, if_true]

theorem homeWritten_whole (h0 : j.segs = 0) (hd : ofDispatch j.pkt = false) :
    homeWritten id false s = ackReq j.pkt j.board (countJob j (dropJob id s)) := by
  have whole : ¬ j.segs + (nextWrites j).length < (jobWrites j.pkt).length := by rw [nextWrites_counted hr h0]; omega
  simp only [homeWritten, hl, hw, hd, endJob_counted hr, whole, decide_false, Bool.and_false, Bool.false_eq_true, if_false]

end

/-- The value that a short reply carries: the eight bytes read (R151). -/
theorem shortReply_value (bs : List Byte) : fld (areaOf [(32, 8, leNat (bs.take 8))]) 128 64 = leNat (bs.take 8) := by
  have read := area_first 32 8 (leNat (bs.take 8)) [] (by decide) (fld_area_nil ..)
  exact read.trans (Nat.mod_eq_of_lt (leNat_take_lt 8 bs))

/-! ### A core's board-window accesses (R134-R138, R144) -/

/-- A beat that reaches the board window of a port meets the window's own checks (R528, R529). -/
theorem iqRequest_window {s : State} {port : Nat} {b : IqBeat} (u : Upset) (h : IqReaches s .window port b) :
    iqRequest .window b.write port b u s = bwRequest port b u s := by
  obtain ⟨he, hp, hu, hg, hs, h3, hr, hc, ho⟩ := h
  simp [iqRequest, he, hp, hu, hg, hs, h3, hr, hc, ho]

theorem bwRequest_accepts {s : State} {port : Nat} {b : IqBeat} (u : Upset)
    (hm : bwSlot b = mySlot s ∨ meshUp s (bwNode s (bwSlot b)) = true) (hw : (s.mp.ports.at port).withheld = false)
    (ht : trackRoom s b.core.toNat = true) : bwRequest port b u s = bwAccept port b u s := by
  have reach : ¬ (bwSlot b ≠ mySlot s ∧ (!meshUp s (bwNode s (bwSlot b))) = true) := by
    rintro ⟨h1, h2⟩
    rcases hm with hm | hm
    · exact h1 hm
    · simp [hm] at h2
  rw [bwRequest, if_neg reach, if_neg (by simp [hw, ht])]

section
variable {s : State} {id : Nat} {a : BwAcc} (hl : s.rlc.acc.lookup id = some a) (hs : a.state ≠ .sent)
include hl hs

theorem bwTry_miss (hh : bwHit s a = none) (ho : bwOrdered s id a = true) (hb : bwBehind s id a = false) :
    bwTry id s = bwGo id a s := by
  simp [bwTry, hl, hs, hh, ho, hb]

theorem bwTry_hit {ln : Line} (hh : bwHit s a = some ln) (ho : bwAlone s id a = true) : bwTry id s = bwEnd id 0 ln s := by
  simp [bwTry, hl, hs, hh, ho]

end

theorem releaseCredit_idle {s : State} {port : Nat} (h : s.rlc.iqHeld.find? (fun x => x.1 == port) = none) :
    releaseCredit port s = modPort port (fun p => { p with withheld := false }) s := by
  simp only [releaseCredit, h]

theorem releaseCredit_held {s : State} {port : Nat} {b : IqBeat} {rest : List (Nat × IqBeat)}
    (h : s.rlc.iqHeld.find? (fun x => x.1 == port) = some (port, b)) (ht : trackRoom s b.core.toNat = true)
    (hr : rest = s.rlc.iqHeld.eraseIdx (s.rlc.iqHeld.findIdx (fun x => x.1 == port))) :
    releaseCredit port s = if rest.any (fun x => x.1 == port)
      then bwAccept port b .none { s with rlc := { s.rlc with iqHeld := rest } }
      else modPort port (fun p => { p with withheld := false })
        (bwAccept port b .none { s with rlc := { s.rlc with iqHeld := rest } }) := by
  subst hr
  simp only [releaseCredit, h, ht, if_true]

/-! ### The line cache's register (R142) -/

@[simp] theorem invPlotLines_rlc (plot : Nat) (s : State) :
    (invPlotLines plot s).rlc = { s.rlc with lines := s.rlc.lines.filter (fun l => l.plot != plot) } := rfl

@[simp] theorem invAllLines_rlc (s : State) : (invAllLines s).rlc = { s.rlc with lines := [] } := rfl

/-- The register's enable bit is the one written, whatever lines the write empties. -/
theorem rlcCtl_enable (w : Word) (s : State) : (rlcCtl w s).rlc.enable = bitAt w 0 := by
  simp only [rlcCtl, apply_ite State.rlc, apply_ite Rlc.enable, invAllLines_rlc, invPlotLines_rlc, modRlc_rlc, ite_self]

theorem rlcCtl_all {w : Word} (h1 : bitAt w 1 = true) (s : State) : (rlcCtl w s).rlc.lines = [] := by
  simp [rlcCtl, h1]

theorem rlcCtl_plot {w : Word} (h2 : bitAt w 2 = true) (h1 : bitAt w 1 = false) (h0 : bitAt w 0 = true) (s : State) :
    (rlcCtl w s).rlc.lines = s.rlc.lines.filter (fun l => l.plot != fld w 8 8) := by
  simp [rlcCtl, h0, h1, h2]

end Sys2Proof.Laws

namespace Sys2Proof.Proofs

open Sys2Proof.Machine Sys2Proof.Laws

/-- Settles O26: the request leaves its buffer, and its channel says which of the home's rules takes it. -/
theorem homeRequestsArePerformedOnce : Obligations.HomeRequestsArePerformedOnce := by
  unfold Obligations.HomeRequestsArePerformedOnce
  intro s l p c kind plot hc hp hb ha
  obtain rfl := arrives_kind hp
  rw [exec_homeRows hc]
  refine ⟨fun h3 h v hf hv => ?new, fun h3 hr hw => ?seen, fun h3 => ?l3⟩
  case new =>
    subst hv
    refine ⟨fun h0 hg => ?performed, fun code he h0 => ?refused, fun h0 hg => ?discarded⟩
    case performed => exact run_of ((memRequest_passed hp hb ha h3 hf h0).trans (if_neg (by simp [hg])))
    case refused =>
      subst he
      exact run_of ((homeRequest_new _ hp hb ha h3 hf).trans (if_pos h0))
    case discarded => exact run_of ((memRequest_passed hp hb ha h3 hf h0).trans (if_pos hg))
  case seen => exact run_of (homeRequest_seen _ hp hb ha h3 (dedup_seen hr hw))
  case l3 => exact run_of (homeRequest_l3 _ hp hb ha h3)

/-- Settles O28: a job of no row channel leaves its home alone as it ends, so that its answer is the whole effect. -/
theorem jobsAnswerTheirRequests : Obligations.JobsAnswerTheirRequests := by
  unfold Obligations.JobsAnswerTheirRequests
  refine ⟨fun j s hj => ⟨startJob_begins hj, startJob_waits⟩, ?reads, fun s id j hl hw hr h0 hd => ?writes⟩
  case reads =>
    rintro s id j ls hl hw hr v rfl
    refine ⟨homeRead_failed hl hw hr, fun hk => ⟨_, homeRead_short hl hw hr hk, shortReply_value _⟩, fun hk => ⟨_, homeRead_lines hl hw hr hk⟩⟩
  case writes => exact ⟨homeWritten_failed hl hw hr, homeWritten_whole hl hw hr h0 hd⟩

/-- Settles O39: each clause is the lemma of the tracker's, the home's or the cache's own function. -/
theorem boardWindowAccessesGoInOrder : Obligations.BoardWindowAccessesGoInOrder := by
  unfold Obligations.BoardWindowAccessesGoInOrder
  refine ⟨fun s port b u hi hm hw ht => ?arrives, ?goesOn, ?homeAccess, ?creditIdle, ?creditHeld, ?register, fun s hs => ?sweep⟩
  case arrives =>
    have accepted : ∀ x, iqRequest .window b.write port b x (fresh s) = bwAccept port b x (fresh s) := fun x =>
      (iqRequest_window x hi).trans (bwRequest_accepts x hm hw ht)
    exact ⟨fun hr => run_of (hr ▸ accepted u), fun hr => run_of (hr ▸ accepted .none)⟩
  case goesOn =>
    rintro s v id a rfl hl hs
    exact ⟨fun hh ho hb => run_of (bwTry_miss (s := fresh s) hl hs hh ho hb), fun ln hh ho => run_of (bwTry_hit (s := fresh s) hl hs hh ho)⟩
  case homeAccess =>
    rintro s v id j rfl hl hj hm
    exact run_of (releaseJob_begins (s := fresh s) hl hj hm)
  case creditIdle =>
    rintro s v port rfl h
    exact run_of (releaseCredit_idle (s := fresh s) h)
  case creditHeld =>
    rintro s v port b rest rfl h ht hr
    exact ⟨_, rfl, run_of (releaseCredit_held (s := fresh s) h ht hr)⟩
  case register =>
    rintro s v sv w rfl hw
    have answered := cpWrite_writable hw (rlcCtl w)
    refine ⟨fun h1 => ⟨_, act_of ((if_pos h1).trans answered), rlcCtl_all h1 _, rlcCtl_enable ..⟩, fun h2 h1 h0 => ?_⟩
    exact ⟨_, act_of ((if_pos h2).trans answered), rlcCtl_plot h2 h1 h0 _, (rlcCtl_enable ..).trans h0⟩
  case sweep => exact ⟨sweepDone (fresh s), act_of (if_pos hs), rfl, rfl⟩

end Sys2Proof.Proofs
end

section
/-! SUPPORT. The remote family: how a transfer is cut, copy requests at their home, requests that end, what the send queue and its timers
do, forwarding, and the statements that they settle. -/

namespace Sys2Proof.Laws

open Sys2Proof.Machine

/-! ### Segments of a transfer (R156) -/

/-- A transfer has an `i`th segment when it has a line beyond the first `i` segments. -/
theorem lt_segCount {n i : Nat} : i < ceilDiv n 32 ↔ 32 * i < n := by
  unfold ceilDiv
  omega

@[simp] theorem dealSegs_length (s : State) (first : Nat) (g : Seg) : (dealSegs s first g).length = ceilDiv g.lines 32 := by
  simp [dealSegs]

theorem dealSegs_get {s : State} {first i : Nat} {g : Seg} (h : i < ceilDiv g.lines 32) :
    (dealSegs s first g)[i]? = some { g with eng := dealEngine s first i, src := g.src + 4096 * i, dst := g.dst + 4096 * i,
                                             lines := min 32 (g.lines - 32 * i) } := by
  simp [dealSegs, h]

/-- The first `k` segments hold 32 lines each, as far as the lines go. -/
theorem segLines_sum (n k : Nat) : ((List.range k).map (fun i => min 32 (n - 32 * i))).sum = min (32 * k) n := by
  induction k with
  | zero => simp
  | succ k ih =>
    rw [List.range_succ, List.map_append, List.sum_append, ih, List.map_singleton, List.sum_singleton]
    omega

theorem dealSegs_lines (s : State) (first : Nat) (g : Seg) : ((dealSegs s first g).map (fun h => h.lines)).sum = g.lines := by
  have lines : (dealSegs s first g).map (fun h => h.lines)
      = (List.range (ceilDiv g.lines 32)).map (fun i => min 32 (g.lines - 32 * i)) := by
    simp [dealSegs]
  have all : g.lines ≤ 32 * ceilDiv g.lines 32 := Nat.le_of_not_lt (fun h => Nat.lt_irrefl _ (lt_segCount.mpr h))
  rw [lines, segLines_sum, Nat.min_eq_right all]

/-! ### Packets of a segment (R157) -/

/-- The lines of a packet that begins at line `first`, of `left` lines: up to the next 1 KiB boundary of the remote address. -/
def runLen (remote first left : Nat) : Nat := min left (8 - (remote / 128 + first) % 8)

@[simp] theorem cutRuns_done (k remote first : Nat) : cutRuns k remote first 0 = [] := by cases k <;> rfl

theorem cutRuns_more {left : Nat} (k remote first : Nat) (h : 0 < left) : cutRuns (k + 1) remote first left
    = (first, runLen remote first left) :: cutRuns k remote (first + runLen remote first left) (left - runLen remote first left) :=
  if_neg (by omega)

section
variable {left : Nat} (remote first : Nat)

theorem runLen_le_left : runLen remote first left ≤ left := Nat.min_le_left ..

theorem runLen_le_eight : runLen remote first left ≤ 8 :=
  Nat.le_trans (Nat.min_le_right ..) (Nat.sub_le ..)

theorem runLen_pos (h : 0 < left) : 1 ≤ runLen remote first left := by
  unfold runLen
  omega

/-- The first and the last line of a packet lie in one KiB. -/
theorem runLen_sameKib (h : 0 < left) :
    (remote / 128 + first) / 8 = (remote / 128 + first + runLen remote first left - 1) / 8 := by
  unfold runLen
  omega

end

/-- With as much fuel as there are lines, every line goes into a packet. -/
theorem cutRuns_lines (remote k : Nat) : ∀ first left : Nat, left ≤ k →
    ((cutRuns k remote first left).map (fun x => x.2)).sum = left := by
  induction k with
  | zero =>
    intro first left h
    obtain rfl : left = 0 := by omega
    rfl
  | succ k ih =>
    intro first left h
    obtain rfl | hpos := Nat.eq_zero_or_pos left
    · rfl
    · have shorter := runLen_pos remote first hpos
      have within := runLen_le_left (left := left) remote first
      rw [cutRuns_more k remote first hpos, List.map_cons, List.sum_cons, ih _ _ (by omega)]
      omega

/-- Each packet has 1 to 8 lines within one KiB, and begins where those before it end. -/
theorem cutRuns_get (remote k : Nat) : ∀ (first left i : Nat) (x : Nat × Nat), (cutRuns k remote first left)[i]? = some x →
    1 ≤ x.2 ∧ x.2 ≤ 8 ∧ (remote / 128 + x.1) / 8 = (remote / 128 + x.1 + x.2 - 1) / 8
      ∧ x.1 = first + (((cutRuns k remote first left).take i).map (fun y => y.2)).sum := by
  induction k with
  | zero => exact fun _ _ _ _ h => nomatch h
  | succ k ih =>
    intro first left i x h
    obtain rfl | hpos := Nat.eq_zero_or_pos left
    · exact nomatch h
    rw [cutRuns_more k remote first hpos] at h ⊢
    cases i with
    | zero =>
      obtain rfl : (first, runLen remote first left) = x := Option.some.inj h
      exact ⟨runLen_pos remote first hpos, runLen_le_eight remote first, runLen_sameKib remote first hpos, rfl⟩
    | succ i =>
      obtain ⟨hlow, hhigh, hkib, hplace⟩ := ih _ _ i x h
      refine ⟨hlow, hhigh, hkib, ?_⟩
      rw [hplace, List.take_succ_cons, List.map_cons, List.sum_cons, Nat.add_assoc]

/-! ### Copy requests at their home (R165, R170) -/

/-- A copy busy answer is counted, and the wrap of its counter kept (R165, R183). -/
def busyCounted (s : State) : State :=
  { s with xfer := { s.xfer with busyCnt := s.xfer.busyCnt + 1, busyWrap := s.xfer.busyWrap || s.xfer.busyCnt == 0xFFFFFFFF } }

section
variable {s : State} {l plot : Nat} {p : Packet} {h : Home}

theorem copyDepth_new (l : Nat) (hf : Fresh s p h) : copyDepth { taken s l p with home := h } = copyDepth s := by
  have jobs : h.jobs = s.home.jobs := by
    unfold Fresh at hf
    split at hf
    · obtain ⟨-, rfl⟩ := hf
      rfl
    · obtain ⟨w, -, rfl⟩ := hf
      rfl
  simp only [copyDepth, jobs]

theorem selfNode_taken : selfNode { taken s l p with home := h } = selfNode s := by rw [taken_eq]; rfl

theorem tallyOk_taken (t : Nat) (count : Bool) : tallyOk { taken s l p with home := h } plot t count = tallyOk s plot t count := by
  rw [taken_eq]; rfl

variable (hp : Arrives s l p 0x15 plot) (hb : lineBusy s p = false) (h3 : s.flt.l3 = false) (hf : Fresh s p h)
  (hc : homeChecks s plot p = 0)
include hp hb h3 hf hc

theorem copyRequest_busy (hn : 64 ≤ copyDepth s) : copyRequest l p (fresh s)
    = queueReply (replyTo s p 0x24 0 []) false (undo p true (busyCounted { taken s l p with home := h })) := by
  rw [copyRequest, homeRequest_new _ hp hb (fun e => nomatch e) h3 hf, if_neg (by simp [hc]), copyDepth_new l hf, if_pos hn]
  have reply : replyTo { taken s l p with home := h } p 0x24 0 [] = replyTo s p 0x24 0 [] := replyTo_taken s l 0x24 p 0 []
  exact congrArg (fun q => queueReply q false _) reply

theorem copyRequest_queued (hn : copyDepth s < 64)
    (ht : p.ar 32 8 / 2 ^ 47 % 512 ≠ selfNode s ∨ tallyOk s plot (p.ar 24 2) true = true) :
    copyRequest l p (fresh s) = startJob { pkt := p, link := l, plot := plot } { taken s l p with home := h } := by
  have notRefused : ¬ (p.ar 32 8 / 2 ^ 47 % 512 = selfNode s ∧ (!tallyOk s plot (p.ar 24 2) true) = true) := by
    rintro ⟨own, bad⟩
    rcases ht with ht | ht
    · exact ht own
    · simp [ht] at bad
  rw [copyRequest, homeRequest_new _ hp hb (fun e => nomatch e) h3 hf, if_neg (by simp [hc]), copyDepth_new l hf, if_neg (by omega)]
  simp only [selfNode_taken, tallyOk_taken, decide_eq_true_eq]
  exact if_neg notRefused

end

/-! ### Requests that end (R163, R180) -/

@[simp] theorem xferErr_rqs (code node : Nat) (home : Bool) (plot : Nat) (s : State) :
    (xferErr code node home plot s).xfer.rqs = s.xfer.rqs := by
  unfold xferErr
  split <;> rfl

@[simp] theorem getFur_xferErr (code node : Nat) (home : Bool) (plot n : Nat) (s : State) :
    getFur (xferErr code node home plot s) n = getFur s n := by
  unfold xferErr
  split <;> rfl

/-- A packet that has left the books is not found in them. -/
theorem getRq_dropRq_self (id : Nat) (s : State) : getRq (dropRq id s) id = none := by
  refine List.lookup_eq_none_iff.mpr (fun e he => ?_)
  obtain ⟨-, other⟩ := List.mem_filter.mp he
  simpa using (bne_iff_ne.mp other).symm

/-- The transfer error that the end of a request in error captures (R183). -/
def endNoted (r : Rq) (err : Option Nat) (s : State) : State :=
  match err with
  | some code => xferErr code r.pkt.dst false r.plot s
  | none => s

@[simp] theorem endNoted_rqs (r : Rq) (err : Option Nat) (s : State) : (endNoted r err s).xfer.rqs = s.xfer.rqs := by
  cases err
  · rfl
  · exact xferErr_rqs ..

@[simp] theorem getFur_endNoted (r : Rq) (err : Option Nat) (n : Nat) (s : State) : getFur (endNoted r err s) n = getFur s n := by
  cases err
  · rfl
  · exact getFur_xferErr ..

/-- A LOADG's request that ends leaves the books and ends its command's part (R163). -/
theorem endRq_loadg {id f tid g : Nat} {r : Rq} {err : Option Nat} {conseq : Bool} {s : State} (hd : r.dead = false)
    (hw : r.who = .loadg f tid g) : endRq id r err conseq s = partDone f tid err conseq (endNoted r err (dropRq id s)) := by
  simp only [endRq, hd, hw, Bool.false_eq_true, if_false]
  rfl

/-- The last part of a command that ends leaves none, and its error is the command's. -/
theorem partDone_last {f tid : Nat} {err : Option Nat} {conseq : Bool} {s : State}
    (h : ∀ i ∈ (getFur s f).issued, i.tid = tid → i.err = none ∧ i.left = 1) :
    ∀ i ∈ (getFur (partDone f tid err conseq s) f).issued, i.tid = tid → i.left = 0 ∧ i.err = err := by
  intro i hi ht
  rw [partDone, getFur_modFur_self] at hi
  obtain ⟨j, hj, rfl⟩ := List.mem_map.mp hi
  by_cases mine : j.tid = tid
  · obtain ⟨herr, hleft⟩ := h j hj mine
    simp [mine, herr, hleft]
  · rw [if_neg mine] at ht
    exact absurd ht mine

/-! ### The send queue (R161, R331, R349, R355) -/

section
variable {s : State} {id : Nat} {r : Rq} (hq : getRq s id = some r) (hs : r.sent = false) (hb : r.busy = false)
  (hm : mayStart s r = true) (ht : collTwin s id r = false)
include hq hs hb hm ht

/-- A queued packet that its block may start leaves on the link of its path, when the path takes it (R161, R331, R355). -/
theorem sendRq_leaves {l : Nat} {p : Packet} {cur : Tbl Int} (hp : pathOf s r = some (l, p, cur)) (hw : windowOk s r = true)
    (hr : roomFor s r = true) (hl : maySendPkt s l p = true) (he : mayEnter s l p = true) (ho : outranked s id l p = false) :
    sendRq id s = afterSend id l r (sendPkt l p { freshRound l p s with trl := { (freshRound l p s).trl with cur := cur } }) := by
  have goes : (windowOk s r && roomFor s r && maySendPkt s l p && mayEnter s l p && !outranked s id l p) = true := by
    simp [hw, hr, hl, he, ho]
  simp only [sendRq, hq, hs, hb, hm, ht, hp, goes, Bool.or_self, Bool.not_true, Bool.false_eq_true, if_false, if_true]

/-- A LOADG's request that no path takes ends (R160, R349). -/
theorem sendRq_noPath (hp : pathOf s r = none) (hv : r.pkt.vn = 0) (hw : ∃ f tid g, r.who = .loadg f tid g) :
    sendRq id s = endRq id r (some 0x610) false s := by
  obtain ⟨f, tid, g, hw⟩ := hw
  have ends : noPath id r s = endRq id r (some 0x610) false s := by simp [noPath, Rq.isReq, hw, hv]
  simp only [sendRq, hq, hs, hb, hm, ht, hp, ends, Bool.or_self, Bool.not_true, Bool.false_eq_true, if_false]

end

/-! ### Timers of the send queue (R164, R165, R234) -/

/-- The end-to-end timer of a live request of a plot that does not drain: its replays are used up, or it is sent again (R164, R438). -/
theorem e2eExpiry_due {s : State} {id : Nat} {r : Rq} (hq : getRq s id = some r) (hs : r.sent = true) (hr : r.isReq = true)
    (hl : r.landing = false) (hb : r.busy = false) (hv : r.pkt.vn ≠ 6) (hp : r.at1 + fld s.xfer.cfg 0 24 * 1000 ≤ s.clk)
    (hd : r.dead = false) (hg : (getPlot s r.plot).state ≠ .draining) :
    e2eExpiry id s =
      if fld s.xfer.cfg 24 4 ≤ r.replays then (if r.pkt.vn = 0 then endRq id r (some 0x220) false s else s)
      else if r.pkt.row = true then requeueRow r.pkt (modRq id (fun x => { x with replays := x.replays + 1 }) s)
      else requeue id (modRq id (fun x => { x with replays := x.replays + 1 }) s) := by
  have due : (r.sent && r.isReq && !r.landing && !r.busy && r.pkt.vn != 6 && passed s r.at1 (fld s.xfer.cfg 0 24 * 1000)) = true := by
    simp [passed, hs, hr, hl, hb, hv, hp]
  simp only [e2eExpiry, hq, due, hd, hg, Bool.not_true, Bool.false_eq_true, if_false]

theorem busyResend_counted {s : State} {id : Nat} {r : Rq} (hq : getRq s id = some r) (hb : r.busy = true)
    (hp : r.at1 + 1000 ≤ s.clk) (hd : r.deep = false) (hr : r.pkt.row = false) : busyResend id s = requeue id s := by
  simp [busyResend, hq, passed, hb, hp, hd, hr]

theorem deepResend_far {s : State} {id : Nat} {r : Rq} (hq : getRq s id = some r) (hb : r.busy = true)
    (hp : r.at1 + 1000 ≤ s.clk) (hd : r.deep = true) (hn : r.pkt.dst ≠ selfNode s) :
    deepResend id s = modRq id (fun x => { x with sent := false, busy := false, deep := false, again := true }) s := by
  simp [deepResend, hq, passed, hb, hp, hd, hn]

/-! ### Held acknowledgements (R162) -/

theorem ackExpiry_due {s : State} {node : Nat} {h : HeldAck} {t : List HeldAck} (ha : s.home.acks.at node = h :: t)
    (hp : h.since + 100 ≤ s.clk) : ackExpiry node s = flushAcks node s := by
  simp [ackExpiry, ha, passed, hp]

/-- Held acknowledgements of a source leave as one packet to it, under the number of the first, and none stays held (R162). -/
theorem flushAcks_queues {s : State} {node : Nat} {h : HeldAck} {t : List HeldAck} (ha : s.home.acks.at node = h :: t) :
    (flushAcks node s).home.acks.at node = [] ∧ ∃ q, (flushAcks node s).xfer.rqs = s.xfer.rqs ++ [(s.xfer.nextId, q)]
      ∧ q.pkt.kind = 0x22 ∧ q.pkt.vn = 1 ∧ q.pkt.dst = node ∧ q.pkt.seq = h.seq := by
  simp only [flushAcks, ha]
  exact ⟨at_del_self s.home.acks node, _, rfl, rfl, rfl, rfl, rfl⟩

/-! ### Forwarding (R168, R208, R348, R352, R353, R357) -/

section
variable {s : State} {l plot : Nat} {p q : Packet}

/-- A packet for another node that passes its plot's checks is taken on. -/
theorem forwarding_passes {peer : Bool} (h : ForwardsFrom s l p peer plot) (k : Nat → State → State) :
    forwarding l p peer k s = k plot s := by
  obtain ⟨hl, hh, hd, hs, hc⟩ := h
  simp [forwarding, hl, hh, hd, hs, hc]

theorem passOn_sends {out : Nat} (h : maySendPkt s out q = true) :
    passOn l p out q s = sendAsIs out (resealed p q) (freshRound out q (takePkt l p s)) := if_pos h

theorem peerPass_sends {out : Nat} (hu : linkUp s out = true) (h : maySendPkt s out q = true) :
    peerPass l p out q s = sendAsIs out (resealed p q) (freshRound out q (takePkt l p s)) := (if_pos hu).trans (passOn_sends h)

theorem planeForward_plane (h : ForwardsFrom s l p false plot) (he : e64 s = false) (hd : p.dst < 512) :
    planeForward l p s = if downlinkOk s p.dst = true then passOn l p p.dst (stamped s p) s
      else note 0x620 (some plot) .port (linkPort s l) { takePkt l p s with trl := { s.trl with noRoute := s.trl.noRoute + 1 } } := by
  have here : ¬ (e64 s = true ∨ 512 ≤ p.dst) := by simp [he, hd]
  exact (if_neg here).trans (forwarding_passes h _)

/-- A peer refuses a bad VN2 packet (R353). -/
theorem peerForward_refuses (he : e64 s = true) (hl : l < linkCount s) (hh : atHead s l p = true) (hs : s.flt.safe = false)
    (hb : vn2Bad s l p = true) : peerForward l p s = refuseVn2 l p s := by
  simp [peerForward, he, hl, hh, hs, hb]

/-- A VN2 packet for a plane goes up this endpoint's own uplink, on its path's network (R352). -/
theorem peerForward_up (he : e64 s = true) (h : ForwardsFrom s l p true plot) (hb : vn2Bad s l p = false) (hv : p.vn = 2)
    (hd : 512 ≤ p.dst) : peerForward l p s = peerPass l p (uplink (p.dst - 512)) { p with vn := p.pathVn } s := by
  simp only [peerForward, he, hb, hv, Bool.not_true, Bool.and_false, Bool.false_and, Bool.false_eq_true, if_false, if_true]
  rw [forwarding_passes h, if_pos hd]

/-- A plane's packet for another endpoint of the board goes down over the mesh on VN2 (R352, R353). -/
theorem peerForward_down (he : e64 s = true) (h : ForwardsFrom s l p true plot) (hb : vn2Bad s l p = false) (hv : p.vn ≠ 2)
    (hk : p.vn = 3 ∨ p.kind = 0x26 ∨ p.kind = 0x27) (hm : isMesh s l = false) (hn : sameBoard s p.dst = true) :
    peerForward l p s = peerPass l p (meshLink s (p.dst % 8)) { p with vn := 2, pathVn := p.vn } s := by
  simp only [peerForward, he, hb, hv, hk, hm, hn, Bool.not_true, Bool.not_false, Bool.and_false, Bool.false_and, Bool.false_eq_true,
    if_false, and_self, if_true]
  rw [forwarding_passes h]

/-- The board ring passes a VN4 packet to the next slot (R208). -/
theorem ringPass_sends (he : e64 s = true) (h : ForwardsFrom s l p false plot) (hv : p.vn = 4) (hm : isMesh s l = true)
    (hn : sameBoard s p.dst = true) (hs : maySendPkt s 0 p = true) :
    ringPass l p s = sendAsIs 0 (resealed p p) (freshRound 0 p (takePkt l p s)) :=
  (if_pos ⟨he, hv, hm, hn⟩).trans ((forwarding_passes h _).trans (passOn_sends hs))

end

end Sys2Proof.Laws

namespace Sys2Proof.Proofs

open Sys2Proof.Machine Sys2Proof.Laws

/-- Settles O14: the `i`th segment is read off, and packets are cut one after the other. -/
theorem segmentsAndPacketsCoverTheLines : Obligations.SegmentsAndPacketsCoverTheLines := by
  unfold Obligations.SegmentsAndPacketsCoverTheLines
  refine ⟨fun s first i g hi => ?segment, dealSegs_lines, fun remote first lines => cutRuns_lines remote lines first lines (Nat.le_refl _),
    fun remote first lines => cutRuns_get remote lines first lines⟩
  case segment =>
    rw [dealSegs_length] at hi
    have left := lt_segCount.mp hi
    exact ⟨_, dealSegs_get hi, rfl, rfl, rfl, by simp only; omega⟩

/-- Settles O27: a request that its channel has not seen meets the depth of the copy queue. -/
theorem copyRequestsQueueOrAreBusy : Obligations.CopyRequestsQueueOrAreBusy := by
  unfold Obligations.CopyRequestsQueueOrAreBusy
  rintro s l p plot h v hp hb h3 hf rfl hc
  rw [← taken_xfer s l p]
  exact ⟨fun hn => run_of (copyRequest_busy hp hb h3 hf hc hn), fun hn ht => run_of (copyRequest_queued hp hb h3 hf hc hn ht)⟩

/-- Settles O30: the request leaves the books, and the part that ends is its command's last. -/
theorem endedRequestsEndTheirCommands : Obligations.EndedRequestsEndTheirCommands := by
  unfold Obligations.EndedRequestsEndTheirCommands
  intro s id f tid g r err conseq hd hw hi
  have furrows : ∀ n, getFur (endNoted r err (dropRq id s)) n = getFur s n := fun n => getFur_endNoted r err n (dropRq id s)
  rw [endRq_loadg hd hw]
  refine ⟨?books, partDone_last (by rwa [furrows f]), fun n hn => ?others⟩
  case books =>
    have books : getRq (partDone f tid err conseq (endNoted r err (dropRq id s))) id = getRq (dropRq id s) id :=
      congrArg (fun rqs => rqs.lookup id) (endNoted_rqs r err (dropRq id s))
    exact books.trans (getRq_dropRq_self id s)
  case others => exact (getFur_modFur_other f n _ _ hn).trans (furrows n)

/-- Settles O31: each clause is the lemma of the send queue's, the timer's or the home's own function. -/
theorem queuedPacketsLeaveAndAreResent : Obligations.QueuedPacketsLeaveAndAreResent := by
  unfold Obligations.QueuedPacketsLeaveAndAreResent
  refine ⟨fun s id r hq hs hb hm ht => ⟨?leaves, fun hp hv hw => ?noPath⟩,
    fun s id r hq hs hr hl hb hv hp hd hg => ⟨fun hn hrow => ?again, fun hn h0 => ?replaysUsed⟩,
    fun s id r hq hb hp => ⟨fun hd hr => ?busy, fun hd hn => ?deepBusy⟩, fun s node h t ha hp => ?acks⟩
  case leaves =>
    rintro l p cur hp hw hr hl he ho w rfl
    rw [← pathOf_fresh] at hp
    rw [← outranked_fresh] at ho
    exact run_of (sendRq_leaves (s := fresh s) hq hs hb hm ht hp hw hr hl he ho)
  case noPath =>
    rw [← pathOf_fresh] at hp
    exact run_of (sendRq_noPath (s := fresh s) hq hs hb hm ht hp hv hw)
  case again =>
    have due := e2eExpiry_due (s := fresh s) hq hs hr hl hb hv hp hd hg
    exact run_of (due.trans ((if_neg (Nat.not_le.mpr hn)).trans (if_neg (by simp [hrow]))))
  case replaysUsed =>
    have due := e2eExpiry_due (s := fresh s) hq hs hr hl hb hv hp hd hg
    exact run_of (due.trans ((if_pos hn).trans (if_pos h0)))
  case busy => exact run_of (busyResend_counted (s := fresh s) hq hb hp hd hr)
  case deepBusy => exact run_of (deepResend_far (s := fresh s) hq hb hp hd hn)
  case acks =>
    obtain ⟨none_held, q, queued⟩ := flushAcks_queues (s := fresh s) ha
    exact ⟨_, q, run_of (ackExpiry_due (s := fresh s) ha hp), none_held, queued⟩

/-- Settles O36: a packet that passes its plot's checks goes where the forwarder's own rule sends it. -/
theorem forwardersPassPacketsOn : Obligations.ForwardersPassPacketsOn := by
  unfold Obligations.ForwardersPassPacketsOn
  rintro s v l plot p rfl
  refine ⟨fun h he hd => ⟨fun hu hs => ?down, fun hu => ?discarded⟩,
    fun he => ⟨fun hl hh hs hb => ?refused, fun o q h hb hq hu hs => ?peer, fun h hv hm hn hs => ?ring⟩⟩
  case down => exact run_of ((planeForward_plane h he hd).trans ((if_pos hu).trans (passOn_sends hs)))
  case discarded => exact run_of ((planeForward_plane h he hd).trans (if_neg (by simp [hu])))
  case refused => exact run_of (peerForward_refuses (s := fresh s) he hl hh hs hb)
  case peer =>
    have carried : peerForward l p (fresh s) = peerPass l p o q (fresh s) := by
      obtain ⟨hv, hd, ho, hq⟩ | ⟨hv, hk, hm, hn, ho, hq⟩ := hq
      · rw [ho, hq]
        exact peerForward_up he h hb hv hd
      · rw [ho, hq]
        exact peerForward_down he h hb hv hk hm hn
    exact run_of (carried.trans (peerPass_sends hu hs))
  case ring => exact run_of (ringPass_sends (s := fresh s) he h hv hm hn hs)

end Sys2Proof.Proofs
end

section
/-! SUPPORT. The collectives family: beds and their steps, collective packets at their bed, slots and step timers, fences and hung
engines, and the statements that they settle. -/

namespace Sys2Proof.Laws

open Sys2Proof.Machine

/-! ### Bed contexts (R186) -/

section
variable {c n : Nat} {g h : Bed → Bed} {s : State}

@[simp] theorem getBed_modBed_self : getBed (modBed c g s) c = g (getBed s c) := at_mod_self ..

@[simp] theorem getBed_modBed_other (hn : n ≠ c) : getBed (modBed c g s) n = getBed s n := at_mod_other _ _ _ _ hn

/-- Two changes that give a bed the same value are the same. -/
theorem modBed_congr (e : g (getBed s c) = h (getBed s c)) : modBed c g s = modBed c h s :=
  congrArg (fun b => modColl (fun x => { x with beds := x.beds.set c b }) s) e

end

@[simp] theorem getFur_modBed (c n : Nat) (g : Bed → Bed) (s : State) : getFur (modBed c g s) n = getFur s n := rfl

@[simp] theorem getBed_issueOut (f n c : Nat) (cmd : Cmd) (d : Option Nat) (s : State) : getBed (issueOut f cmd n d s) c = getBed s c := rfl

@[simp] theorem partDone_coll (f tid : Nat) (err : Option Nat) (conseq : Bool) (s : State) :
    (partDone f tid err conseq s).coll = s.coll := rfl

@[simp] theorem wakeDom_coll (d : Nat) (s : State) : (wakeDom d s).coll = s.coll := by
  simp only [wakeDom]
  split <;> rfl

/-! ### The step that a command takes (R185, R188, R216, R217) -/

/-- The state in which the step that a command takes has joined its bed (R188). -/
def stepJoined (s : State) (f : Nat) (c : Cmd) (o : Opnd) (ctx : Nat) : State :=
  modBed ctx (fun b => { b with steps := b.steps ++ [nextStepOf s f c o ctx] }) (stepTaken s f c o ctx)

section
variable {s : State} {f ctx : Nat} {c : Cmd} {o : Opnd} {k : CStep → State → State}

theorem getFur_stepJoined : getFur (stepJoined s f c o ctx) f = (getFur s f).sending c 1 none :=
  getFur_issueOut_self f c 1 none (fresh s)

/-- The bed counts its steps and chunks on, and holds the step that joined. -/
theorem getBed_stepJoined : getBed (stepJoined s f c o ctx) ctx = { getBed s ctx with
    nextStep := ((getBed s ctx).nextStep + 1) % 2 ^ 32
    nextChunk := ((getBed s ctx).nextChunk + (nextStepOf s f c o ctx).nc) % 2 ^ 32
    steps := (getBed s ctx).steps ++ [nextStepOf s f c o ctx] } := by
  simp only [stepJoined, stepTaken, getBed_modBed_self, getBed_issueOut, fresh_getBed]
  rfl

theorem getBed_stepJoined_other {n : Nat} (hn : n ≠ ctx) : getBed (stepJoined s f c o ctx) n = getBed s n := by
  simp only [stepJoined, stepTaken, getBed_modBed_other hn, getBed_issueOut, fresh_getBed]

/-- The bed counts on by the chunks that its own descriptor gives the command (R192). -/
theorem stepTaken_eq : stepTaken s f c o ctx = modBed ctx (fun b => { b with
    nextStep := (b.nextStep + 1) % 2 ^ 32
    nextChunk := (b.nextChunk + chunkCount (getBed s ctx).desc (ccmdOf c o)) % 2 ^ 32 }) (issueOut f c 1 none (fresh s)) :=
  modBed_congr rfl

/-- A command takes its bed's next step: on a plane that serves none of the bed's steps its one part is over (R185), elsewhere the step
joins the bed. -/
theorem issueStep_eq : issueStep f c o ctx k (fresh s) =
    if idlePlane s (getBed s ctx).desc = true then partDone f (getFur s f).nextTid none false (stepTaken s f c o ctx)
    else match abortedAt (getBed s ctx).abort (getBed s ctx).nextStep with
      | some (code, outside) => endStep ctx (getBed s ctx).nextStep (some code) outside (stepJoined s f c o ctx)
      | none => k (nextStepOf s f c o ctx) (stepJoined s f c o ctx) := by
  rw [stepJoined, stepTaken_eq]
  rfl

theorem issueStep_idle (hi : idlePlane s (getBed s ctx).desc = true) :
    issueStep f c o ctx k (fresh s) = partDone f (getFur s f).nextTid none false (stepTaken s f c o ctx) := by
  rw [issueStep_eq, if_pos hi]

theorem issueStep_begins (hi : idlePlane s (getBed s ctx).desc = false)
    (ha : abortedAt (getBed s ctx).abort (getBed s ctx).nextStep = none) :
    issueStep f c o ctx k (fresh s) = k (nextStepOf s f c o ctx) (stepJoined s f c o ctx) := by
  rw [issueStep_eq, if_neg (by simp [hi]), ha]

theorem issueStep_aborted {code : Nat} {outside : Bool} (hi : idlePlane s (getBed s ctx).desc = false)
    (ha : abortedAt (getBed s ctx).abort (getBed s ctx).nextStep = some (code, outside)) :
    issueStep f c o ctx k (fresh s) = endStep ctx (getBed s ctx).nextStep (some code) outside (stepJoined s f c o ctx) := by
  rw [issueStep_eq, if_neg (by simp [hi]), ha]

end

/-! ### BEDOPEN and BEDCLOSE (R185, R189) -/

/-- A list of checks passes when its first one and the rest do (R74). -/
theorem passes_cons {e : Bool × Nat} {checks : List (Bool × Nat)} (he : e.1 = false) (h : Passes checks) : Passes (e :: checks) :=
  (firstFail_pass he).trans h

/-- The descriptor of a BEDOPEN that issued is read, or its command fails where none is mapped (R185). -/
def bedopenGoes (s : State) (f : Nat) (r : Ready) : State :=
  (if mapped s (opnds s f r).a.toNat = true then startRead (getFur s f).plot [(opnds s f r).a.toNat] (.bedDesc f (getFur s f).nextTid)
    else fun u => partDone f (getFur s f).nextTid (some 0x210) false (noteOwn 0x210 (getFur s f).plot u))
    (issueOut f r.cmd 1 none (fresh s))

theorem doBedopen_issues {s : State} {f : Nat} {r : Ready} (hr : Issues s f 0x50 true r) (hf : FieldsHold s f r)
    (hq : bedBad s f r.cmd false = false) (hl : localOk (opnds s f r).a = true) (ha : (opnds s f r).a.toNat % 128 = 0) :
    doBedopen f (fresh s) = bedopenGoes s f r := by
  have passes : Passes [regCheck (fresh s) r.cmd (opnds s f r), (bedBad (fresh s) f r.cmd false, 0x131),
      (!localOk (opnds s f r).a, 0x123), ((opnds s f r).a.toNat % 128 != 0, 0x121)] :=
    passes_cons (regCheck_fresh hf) (passes_cons hq (passes_cons (by simp [hl]) (passes_cons (by simp [ha]) rfl)))
  rw [doBedopen, withCmd_issues hr]
  refine (checked_passes passes _ _).trans ?_
  unfold bedopenGoes
  by_cases h : mapped s (opnds s f r).a.toNat = true
  · rw [if_pos h]
    exact if_pos h
  · rw [if_neg h]
    exact if_neg h

theorem sends_bedopenGoes (s : State) (f : Nat) (r : Ready) : Sends s (bedopenGoes s f r) f r.cmd 1 none := by
  unfold bedopenGoes
  split
  · exact work_startRead ..
  · exact (work_noteOwn ..).trans (work_partDone ..)

/-- A descriptor that passes R185 opens the lowest free context. -/
theorem bedRead_opens {s : State} {f tid ctx : Nat} {i : Issued} {ls : List Line}
    (hi : (getFur s f).issued.find? (fun i => i.tid == tid) = some i) (hb : bedFault s (getFur s f).plot i.cmd.id (linesBytes ls) = 0)
    (hc : freeCtx s = some ctx) : (bedRead f tid false ls s).coll = { s.coll with
      beds := s.coll.beds.set ctx (openedBed s f (descOf (linesBytes ls)))
      lastGen := (((getFur s f).plot, (descOf (linesBytes ls)).bed), (descOf (linesBytes ls)).gen)
        :: s.coll.lastGen.filter (fun e => e.1 != ((getFur s f).plot, (descOf (linesBytes ls)).bed)) } := by
  simp only [bedRead, hi, hb, hc, Bool.false_eq_true, if_false, ne_eq, not_true_eq_false, Option.getD_some, partDone_coll,
    apply_ite State.coll, wakeDom_coll, ite_self, modColl_coll]
  rfl

theorem doBedclose_issues {s : State} {f ctx : Nat} {r : Ready} (hr : Issues s f 0x51 false r) (hf : FieldsHold s f r)
    (hc : BedOf s f r.cmd ctx) (hq : bedBad s f r.cmd true = false) (hb : bedBusy (getBed s ctx) = false) :
    doBedclose f (fresh s) = issueNow f r.cmd (closeBed ctx (fresh s)) := by
  have place : (findBed (fresh s) (getFur (fresh s) f).plot r.cmd.id).getD 0 = ctx := congrArg (fun x => x.getD 0) hc
  have passes : Passes [regCheck (fresh s) r.cmd (opnds s f r), (bedBad (fresh s) f r.cmd true, 0x131),
      (bedBusy (getBed (fresh s) ctx), 0x330)] :=
    passes_cons (regCheck_fresh hf) (passes_cons hq (passes_cons hb rfl))
  rw [doBedclose, withCmd_issues hr]
  simp only [place]
  exact checked_passes passes _ _

/-- The context of a closed bed reads as one that was never open (R189). -/
theorem getBed_closeBed_self (ctx : Nat) (s : State) : getBed (closeBed ctx s) ctx = {} := at_del_self ..

theorem getBed_closeBed_other {ctx n : Nat} (s : State) (hn : n ≠ ctx) : getBed (closeBed ctx s) n = getBed s n := at_del_other _ _ _ hn

theorem getFur_closeBed (ctx n : Nat) (s : State) : getFur (closeBed ctx s) n = getFur s n := by
  simp only [getFur, e64, closeBed, freeSlots, dropRqsOf, modColl_fur, modColl_glb]
  rfl

@[simp] theorem issueNow_coll (f : Nat) (c : Cmd) (s : State) : (issueNow f c s).coll = s.coll := rfl

@[simp] theorem getBed_issueNow (f n : Nat) (c : Cmd) (s : State) : getBed (issueNow f c s) n = getBed s n := rfl

/-- What a pool keeps when the entries of a context leave it. -/
theorem kept_ne {α : Type} {ctx : Nat} {of : α → Nat} {l : List α} : ∀ e ∈ l.filter (fun e => of e != ctx), of e ≠ ctx :=
  fun _ he => bne_iff_ne.mp (List.mem_filter.mp he).2

/-! ### Packets of a bed (R189, R323, R421) -/

section
variable {s : State} {l kind plot ctx : Nat} {p : Packet} {u w : Upset}

@[simp] theorem getBed_taken (s : State) (l n : Nat) (p : Packet) : getBed (taken s l p) n = getBed s n := by
  rw [getBed, taken_coll]
  rfl

@[simp] theorem taken_clk (s : State) (l : Nat) (p : Packet) : (taken s l p).clk = s.clk := by rw [taken_eq]

theorem atBed_taken : AtBed (taken s l p) plot p ctx ↔ AtBed s plot p ctx := by
  unfold AtBed findBed
  rw [taken_coll, getBed_taken]

/-- A collective packet that arrives is taken, unless the block stands under L3 (R421). -/
theorem collArrival_arrives (hp : Arrives s l p kind plot) (h3 : s.flt.l3 = false) (k : Nat → Packet → State → State) :
    collArrival l p kind k (fresh s) = k plot p (taken s l p) :=
  (arrival_arrives hp _ _).trans (if_neg (by rw [taken_flt, h3]; exact Bool.false_ne_true))

theorem collArrival_l3 (hp : Arrives s l p kind plot) (h3 : s.flt.l3 = true) (k : Nat → Packet → State → State) :
    collArrival l p kind k (fresh s) = taken s l p :=
  (arrival_arrives hp _ _).trans (if_pos (by rw [taken_flt, h3]))

/-- A command that takes a packet of a bed leaves what its kind's rule makes of it. -/
theorem run_collRow {v : State} (hp : Arrives s l p kind plot) (h3 : s.flt.l3 = false) (h : takeColl plot p u (taken s l p) = v) :
    run (collRow l p kind u) s = .next (after s v) := run_of ((collArrival_arrives hp h3 _).trans h)

/-- Every row of a packet of a bed runs the rule of collective packets, with its kind and upset. -/
theorem exec_collRows {c : Instr} (h : (c, kind, w) ∈ collRows l p u) (s : State) : exec c s = run (collRow l p kind w) s := by
  simp only [collRows, List.mem_cons, List.not_mem_nil, or_false, Prod.mk.injEq] at h
  rcases h with ⟨rfl, rfl, rfl⟩ | ⟨rfl, rfl, rfl⟩ | ⟨rfl, rfl, rfl⟩ | ⟨rfl, rfl, rfl⟩ | ⟨rfl, rfl, rfl⟩ | ⟨rfl, rfl, rfl⟩
    | ⟨rfl, rfl, rfl⟩ | ⟨rfl, rfl, rfl⟩ | ⟨rfl, rfl, rfl⟩ | ⟨rfl, rfl, rfl⟩ | ⟨rfl, rfl, rfl⟩ | ⟨rfl, rfl, rfl⟩ | ⟨rfl, rfl, rfl⟩
    | ⟨rfl, rfl, rfl⟩ | ⟨rfl, rfl, rfl⟩ | ⟨rfl, rfl, rfl⟩ | ⟨rfl, rfl, rfl⟩ | ⟨rfl, rfl, rfl⟩ <;> rfl

/-! Which rule takes a packet of each kind (R323). -/

theorem takeColl_notice (hk : p.kind = 0x26) : takeColl plot p u s = takeAbort plot p s := by simp only [takeColl, hk]
theorem takeColl_ready (hk : p.kind = 0x30) : takeColl plot p u s = takeReady plot p s := by simp only [takeColl, hk]
theorem takeColl_grant (hk : p.kind = 0x31) (hv : p.vn ≠ 5) : takeColl plot p u s = takeGrant plot p s := by
  simp only [takeColl, hk, hv, if_false]
theorem takeColl_contribution (hk : p.kind = 0x32) : takeColl plot p u s = takeContribution plot p u s := by simp only [takeColl, hk]
theorem takeColl_result (hk : p.kind = 0x34) : takeColl plot p u s = takeResult plot p s := by simp only [takeColl, hk]
theorem takeColl_tags (hk : p.kind = 0x36) : takeColl plot p u s = takeTags plot p u s := by simp only [takeColl, hk]
theorem takeColl_combine (hk : p.kind = 0x3A) : takeColl plot p u s = takeCombine plot p u s := by simp only [takeColl, hk]
theorem takeColl_refusal (hk : p.kind = 0x3B) : takeColl plot p u s = takeRefusal plot p s := by simp only [takeColl, hk]
theorem takeColl_candidates (hk : p.kind = 0x3C) : takeColl plot p u s = takeCandidates plot p s := by simp only [takeColl, hk]

/-- A packet at its open bed meets its rule there (R189). -/
theorem onBed_at (h : AtBed s plot p ctx) (k : Nat → Bed → State → State) : onBed plot p k s = k ctx (getBed s ctx) s := by
  obtain ⟨hb, hg⟩ := h
  simp only [onBed, hb, hg, if_true]

/-- A packet without an open bed of its id and generation is counted as stale (R189). -/
theorem onBed_none (h : ∀ ctx, ¬ AtBed s plot p ctx) (k : Nat → Bed → State → State) :
    onBed plot p k s = collStale plot p.bedId s := by
  unfold onBed
  cases hb : findBed s plot p.bedId with
  | none => rfl
  | some ctx => exact if_neg (fun hg => h ctx ⟨hb, hg⟩)

/-- The kinds of packets of a bed (R323). -/
def bedKinds : List Nat :=
  [0x26, 0x30, 0x31, 0x32, 0x33, 0x34, 0x35, 0x36, 0x37, 0x38, 0x39, 0x3A, 0x3B, 0x3C, 0x50, 0x51, 0x52, 0x53]

theorem bedKind_of_collRows {c : Instr} (h : (c, kind, w) ∈ collRows l p u) : kind ∈ bedKinds :=
  List.mem_map_of_mem (f := fun r => r.2.1) h

theorem admitted_none (h : ∀ ctx, ¬ AtBed s plot p ctx) (k : Nat → CStep → Nat → Slot → State → State) :
    admitted plot p k s = collStale plot p.bedId s := onBed_none h _

theorem dibAdmit_none (h : ∀ ctx, ¬ AtBed s plot p ctx) (k : Nat → DStep → Nat → DSlot → State → State) :
    dibAdmit plot p k s = collStale plot p.bedId s := onBed_none h _

/-- The rule of every kind begins with the packet's bed: at the bed itself, at its slot or at its Dibber slot. -/
theorem takeColl_none (hk : p.kind ∈ bedKinds) (h : ∀ ctx, ¬ AtBed s plot p ctx) : takeColl plot p u s = collStale plot p.bedId s := by
  simp only [bedKinds, List.mem_cons, List.not_mem_nil, or_false] at hk
  rcases hk with hk | hk | hk | hk | hk | hk | hk | hk | hk | hk | hk | hk | hk | hk | hk | hk | hk | hk
  all_goals
    simp only [takeColl, hk, takeAbort, takeReady, takeDGrant, takeGrant, takeContribution, takePartial, takeResult, takeStream, takeTags,
      takeOffsets, takeFilled, takeExpect, takeCombine, takeRefusal, takeCandidates, takeDib, takeDPartial, takeDResult,
      ↓onBed_none h, ↓admitted_none h, ↓dibAdmit_none h, ite_self]

end

/-! ### What members and servers tell each other (R195, R197, R200, R206, R216, R234, R255, R263) -/

section
variable {s : State} {plot ctx : Nat} {p : Packet} (hb : AtBed s plot p ctx)
include hb

/-- A grant for all steps moves the horizon of its server up to it, and never down (R197, R442). -/
theorem takeGrant_bed (hl : p.lastFlag = false) (hr : (p.ar 19 1).testBit 6 = false) : takeGrant plot p s =
    if atOrBefore ((getBed s ctx).horizon.getD p.src 0) p.chunkNo = true
    then modBed ctx (fun b => { b with horizon := b.horizon.set p.src p.chunkNo }) s else modBed ctx (fun b => b) s := by
  rw [takeGrant, onBed_at hb]
  by_cases ha : atOrBefore ((getBed s ctx).horizon.getD p.src 0) p.chunkNo = true
  · rw [if_pos ha]
    exact modBed_congr (by simp only [hl, hr, ha, Bool.or_self, Bool.false_eq_true, if_false, if_true])
  · rw [if_neg ha]
    exact modBed_congr (by simp only [hl, hr, ha, Bool.or_self, Bool.false_eq_true, if_false])

theorem takeReady_again (hr : ((getBed s ctx).ready.lookup (p.stepNo, p.rank)).isSome = true) : takeReady plot p s = s :=
  (onBed_at hb _).trans (if_pos hr)

theorem takeReady_first (hr : (getBed s ctx).ready.lookup (p.stepNo, p.rank) = none)
    (ha : abortedAt (getBed s ctx).abort p.stepNo = none) : takeReady plot p s =
    releaseWaiting ctx p.stepNo p.rank (checkReady ctx p.stepNo
      (modBed ctx (fun b => { b with ready := b.ready ++ [((p.stepNo, p.rank), readyInfo p)] }) s)) := by
  simp only [takeReady, onBed_at hb, hr, ha, Option.isSome_none, Bool.false_eq_true, if_false]

theorem takeRefusal_bed : takeRefusal plot p s = abandonStep ctx p.stepNo (p.ar 32 2 % 4096) false s := onBed_at hb _

theorem takeAbort_bed : takeAbort plot p s = if p.lastFlag then takeDNotice ctx p.stepNo (p.ar 32 2 % 4096) s
    else takeNotice ctx p.stepNo (p.ar 32 2 % 4096) s := onBed_at hb _

variable {st : CStep} (hs : findStep (getBed s ctx) p.stepNo = some st)
include hs

theorem takeResult_lands (hrun : st.stopped = false) (hnew : st.seen.contains (p.src, p.chunkNo, p.stripe, p.ar 32 8) = false) :
    takeResult plot p s = land { ctx := ctx, step := st.num, bytes := p.bytes.length, ack := some p,
                                 sect := sectOf st.cmd p.stripe p.lastFlag p.bytes } (st.b + p.ar 32 8) p.bytes
      (modStep ctx st.num (fun x => { x with seen := (p.src, p.chunkNo, p.stripe, p.ar 32 8) :: x.seen }) s) := by
  simp only [takeResult, onBed_at hb, hs, hrun, hnew, Bool.false_eq_true, if_false]

theorem takeCandidates_kept (hl : st.live = true) (hnew : (st.cands.at p.stripe).1.find p.pidx = none) : takeCandidates plot p s =
    topkDone ctx st.num (collAck p false (modStep ctx st.num (fun y => { y with
      cands := y.cands.set p.stripe ((st.cands.at p.stripe).1.set p.pidx p.bytes,
        if p.lastFlag then some p.pidx else (st.cands.at p.stripe).2) }) s)) := by
  simp only [takeCandidates, onBed_at hb, hs, hl, hnew, Bool.not_true, Option.isSome_none, Bool.or_self, Bool.false_eq_true, if_false]

end

theorem takeCollAck_named {s : State} {p : Packet} {id : Nat} {r : Rq} (hm : matchColl s p = some (id, r)) (hr : r.busy = false)
    (hd : r.dead = false) : takeCollAck p s = if (p.ar 32 1).testBit 0 = true
      then modRq id (fun x => { x with busy := true, deep := true, at1 := s.clk }) s else dropRq id s := by
  simp only [takeCollAck, hm, hr, hd, Bool.not_false, Bool.and_true, Bool.false_eq_true, if_false]

/-! ### Packets at their slot (R198, R199, R246, R267, R272, R442) -/

theorem slotOf_taken (s : State) (l ctx : Nat) (st : CStep) (p : Packet) : slotOf (taken s l p) ctx st p = slotOf s ctx st p := by
  rw [taken_eq]
  rfl

section
variable {s : State} {plot ctx id : Nat} {p : Packet} {st : CStep} {x : Slot}

theorem atSlot_taken {l : Nat} : AtSlot (taken s l p) plot p ctx st id x ↔ AtSlot s plot p ctx st id x := by
  unfold AtSlot
  rw [atBed_taken, getBed_taken, slotOf_taken]

/-- A packet that its slot has not seen is taken by its kind's rule (R198). -/
theorem admitted_new (h : AtSlot s plot p ctx st id x) (k : Nat → CStep → Nat → Slot → State → State) :
    admitted plot p k s = k ctx st id x s := by
  obtain ⟨hb, ha, hs, hx, hnew⟩ := h
  simp only [admitted, onBed_at hb, ha, hs, hx, hnew, Option.isSome_none, Bool.false_eq_true, if_false]

/-- A packet that its slot has seen is a duplicate (R442). -/
theorem admitted_seen (hb : AtBed s plot p ctx) (ha : abortedAt (getBed s ctx).abort p.stepNo = none)
    (hs : findStep (getBed s ctx) p.stepNo = some st) (hx : slotOf s ctx st p = some (id, x))
    (hseen : x.got.contains (p.rank, p.stripe, p.pidx) = true) (k : Nat → CStep → Nat → Slot → State → State) :
    admitted plot p k s = collDup ctx p s := by
  simp only [admitted, onBed_at hb, ha, hs, hx, hseen, Option.isSome_none, Bool.false_eq_true, if_false, if_true]

theorem takeContribution_moved {u : Upset} {y : Span × Span} (h : AtSlot s plot p ctx st id x) (hu : u ≠ .sram)
    (hy : cellSpan s (getBed s ctx) st (selfNode s) (seqDist st.c0 x.chunk) p.stripe p.rank p.pidx = some y)
    (hm : isMove st.cmd.op = true) (hd : isDense st.cmd.op = true) (h59 : st.cmd.op ≠ 0x59) : takeContribution plot p u s =
    receipt id p (modSlot id (fun z => { z with staged := ((p.rank, p.stripe, p.pidx), p.bytes.take y.2.len) :: z.staged }) s) := by
  rw [takeContribution, admitted_new h]
  simp only [hu, hy, hm, hd, h59, Bool.not_true, Bool.false_eq_true, if_false, if_true]

theorem takeContribution_upset (h : AtSlot s plot p ctx st id x) :
    takeContribution plot p .sram s = slotUpset ctx st.num x.bank s := by
  rw [takeContribution, admitted_new h]
  simp only [if_true]

theorem takeTags_staged {u : Upset} (h : AtSlot s plot p ctx st id x) (hop : st.cmd.op = 0x62) (hu : u ≠ .lockstep) :
    takeTags plot p u s = collAck p false (modSlot id (fun _ => tagSlot ctx st p x s) s) := by
  rw [takeTags, admitted_new h]
  simp only [hop, hu, ne_eq, not_true_eq_false, if_false]

end

@[simp] theorem markRank_staged (s : State) (r : Nat) (x : Slot) : (markRank s r x).staged = x.staged := by
  unfold markRank
  split <;> rfl

@[simp] theorem markRank_got (s : State) (r : Nat) (x : Slot) : (markRank s r x).got = x.got := by
  unfold markRank
  split <;> rfl

/-- A rank's tag counts stand in their slot, as far as the experts that the block serves (R272). -/
theorem tagSlot_staged (ctx : Nat) (st : CStep) (p : Packet) (x : Slot) (s : State) : (tagSlot ctx st p x s).staged =
    ((p.rank, 0, p.pidx), p.bytes.take (2 * (expertsOf (getBed s ctx).desc st.moe (selfNode s)).length - 1024 * p.pidx)) :: x.staged := by
  simp only [tagSlot, apply_ite Slot.staged, markRank_staged, ite_self]
  rfl

theorem tagSlot_got (ctx : Nat) (st : CStep) (p : Packet) (x : Slot) (s : State) :
    (tagSlot ctx st p x s).got = (p.rank, p.stripe, p.pidx) :: x.got := by
  simp only [tagSlot, apply_ite Slot.got, markRank_got, ite_self]
  rfl

/-! ### Slots given in turn (R196, R197, R297) -/

/-- The state in which a bed has been given a slot, from its reservation or in its turn at the shared pool (R196). -/
def slotGiven (ctx : Nat) (x : Slot) (s : State) : State :=
  modColl (fun c => { c with
    slots := c.slots ++ [(c.nextId, x)], nextId := c.nextId + 1, turn := if wantsSlot s ctx (getBed s ctx) false then c.turn else ctx
    peak := max c.peak (c.slots.length + 1) }) s

/-- The slot of a bed's next piece joins the pool, and its grant follows (R196, R197). -/
theorem allocSlot_gives {s w : State} {ctx k g bank : Nat} {st : CStep} {slots : List (Nat × Nat)} (hs : stopped s = false)
    (hr : inRun s = true) (ho : harrowOff s = false) (hw : wantsSlot s ctx (getBed s ctx) false = true ∨ sharedTurn s = some ctx)
    (hn : nextAlloc s (getBed s ctx) = some (st, slots)) (hf : freeBank s = some bank) (hu : usesSieve st.cmd.op = false)
    (hd : ∀ d ∈ allocDoms s st, domOn s d = true) (hk : slots[st.alloc]? = some (k, g))
    (hg : w = slotGiven ctx { ctx := ctx, step := st.num, chunk := (st.c0 + k) % 2 ^ 32, group := g, bank := bank } s) :
    allocSlot ctx s = grantAfter ctx st.num (modStep ctx st.num (fun y => { y with
      alloc := y.alloc + 1, unit := if y.unit.isNone && usesSieve y.cmd.op then unitFor w y.num else y.unit }) w) := by
  have turn : (wantsSlot s ctx (getBed s ctx) false || sharedTurn s == some ctx) = true := by simpa using hw
  have powered : (allocDoms s st).any (fun d => !domOn s d) = false := by simpa using hd
  rw [hg]
  simp only [allocSlot, hs, hr, ho, turn, hn, hf, hu, powered, hk, Bool.not_true, Bool.or_self, Bool.false_and, Bool.false_eq_true,
    if_false]
  rfl

theorem sendColl_dslots (who : RqFor) (plot : Nat) (p : Packet) (s : State) : (sendColl who plot p s).coll.dslots = s.coll.dslots := by
  unfold sendColl
  split <;> rfl

/-- Flits to any number of blocks leave the Dibber slots alone. -/
theorem sendFlits_dslots {α : Type} (plot : Nat) (l : List α) (flit : State → α → Packet) : ∀ s : State,
    (l.foldl (fun s a => sendFlit plot (flit s a) s) s).coll.dslots = s.coll.dslots := by
  induction l with
  | nil => exact fun _ => rfl
  | cons a r ih => exact fun s => (ih _).trans (sendColl_dslots ..)

/-- The Dibber slot of a bed's next Dibber step joins the pool (R296, R297). -/
theorem allocDib_gives {s : State} {ctx : Nat} {x : DStep} (hs : stopped s = false) (hr : inRun s = true)
    (ho : (getDom s (dibDom s)).ownerOff = false) (hw : wantsDSlot s ctx (getBed s ctx) false = true) (hd : domOn s (dibDom s) = true)
    (hn : nextDSlot s (getBed s ctx) = some x) :
    (allocDib ctx s).coll.dslots = s.coll.dslots ++ [(s.coll.nextId, { ctx := ctx, step := x.num })] := by
  simp only [allocDib, hs, hr, ho, hw, hd, hn, Bool.not_true, Bool.true_or, Bool.or_self, Bool.false_eq_true, if_false]
  exact sendFlits_dslots ..

/-! ### Step timers (R214, R215, R302) -/

section
variable {s : State} {ctx num id : Nat}

theorem memberExpiry_due {st : CStep} (hs : findStep (getBed s ctx) num = some st) (ho : (getBed s ctx).isOpen = true)
    (he : e64 s = true) (hl : st.live = true) (hp : st.since + (getBed s ctx).desc.limit * 1000 ≤ s.clk) :
    memberExpiry ctx num s = endStep ctx num (some 0x320) false s := by
  simp only [memberExpiry, hs, ho, he, hl, passed, hp, decide_true, Bool.and_self, if_true]

theorem servingExpiry_due {x : Slot} (hx : getSlot s id = some x) (hf : x.first.isSome = true)
    (hp : x.since + (getBed s x.ctx).desc.limit * 1000 ≤ s.clk) : servingExpiry id s = abandonStep x.ctx x.step 0x321 false s := by
  simp only [servingExpiry, hx, hf, passed, hp, decide_true, Bool.and_self, if_true]

theorem dibMemberExpiry_due {x : DStep} (hx : findD (getBed s ctx) num = some x) (he : e64 s = true) (hl : x.live = true)
    (hp : x.since + s.coll.dibLimit * 1000 ≤ s.clk) :
    dibMemberExpiry ctx num s = endD ctx num (some 0x340) false (dibErr 0x340 ctx 0 s) := by
  simp only [dibMemberExpiry, hx, he, hl, passed, hp, decide_true, Bool.and_self, if_true]

theorem dibServingExpiry_due {y : DSlot} {t0 : Nat} (hy : s.coll.dslots.lookup id = some y) (hf : y.since = some t0)
    (hp : t0 + s.coll.dibLimit * 1000 ≤ s.clk) : dibServingExpiry id s = abandonD y.ctx y.step 0x341 false s := by
  simp only [dibServingExpiry, hy, hf, passed, hp, decide_true, if_true]

end

/-! ### Fences (R245, R288, R432, R448) -/

section
variable {s : State} {w : Word}

/-- A write of FLT_FENCE that asks for a unit in service which is not the last of its kind fences it. -/
theorem fltFenceW_fences (hw : bitAt w 9 = true) (hi : fld w 2 7 ∈ fenceable s (fld w 0 2))
    (hf : (fencedOf s (fld w 0 2)).testBit (fld w 2 7) = false) (hl : lastLive s (fld w 0 2) (fld w 2 7) = false) :
    fltFenceW w s = fenceUnit (fld w 0 2) (fld w 2 7) s := by
  simp only [fltFenceW, hw, List.contains_iff_mem.mpr hi, hf, hl, Bool.not_true, Bool.false_eq_true, if_false]

/-- A write that asks for a unit which cannot be fenced, or for the last live one, is refused. -/
theorem fltFenceW_refused (hw : bitAt w 9 = true) (h : fld w 2 7 ∉ fenceable s (fld w 0 2)
      ∨ ((fencedOf s (fld w 0 2)).testBit (fld w 2 7) = false ∧ lastLive s (fld w 0 2) (fld w 2 7) = true)) :
    fltFenceW w s = raise 0xF20 s := by
  by_cases hi : fld w 2 7 ∈ fenceable s (fld w 0 2)
  · obtain ⟨hf, hl⟩ := h.resolve_left (not_not_intro hi)
    simp only [fltFenceW, hw, List.contains_iff_mem.mpr hi, hf, hl, Bool.not_true, Bool.false_eq_true, if_false, if_true]
  · have absent : (fenceable s (fld w 0 2)).contains (fld w 2 7) = false :=
      Bool.eq_false_iff.mpr (fun e => hi (List.contains_iff_mem.mp e))
    simp only [fltFenceW, hw, absent, Bool.not_true, Bool.not_false, Bool.false_eq_true, if_false, if_true]

/-- A write of HRW_SLICE_FENCE that adds slices fences them, unless none would be left (R245). -/
theorem sliceFenceW_adds {m : Word} (hm : m = s.coll.sliceFence ||| (w &&& BitVec.ofNat 32 (2 ^ sliceCount s - 1)))
    (hn : m ≠ s.coll.sliceFence) : sliceFenceW w s =
      if m.toNat = 2 ^ sliceCount s - 1 then raise 0x4F0 s else modColl (fun c => { c with sliceFence := m }) s := by
  subst hm
  exact if_neg hn

/-- A write of SIV_FENCE that adds units fences them and drops their work, unless none would be left (R288). -/
theorem sivFenceW_adds {m : BitVec 4} {us : List Nat} (hm : m = s.coll.sivFence ||| (w.setWidth 4 &&& BitVec.ofNat 4 (2 ^ unitCount s - 1)))
    (hu : us = (List.range (unitCount s)).filter (fun i => bitAt m i && !bitAt s.coll.sivFence i)) (hn : us ≠ []) : sivFenceW w s =
      if m.toNat = 2 ^ unitCount s - 1 then raise 0x3CF s
      else us.foldl (fun s i => dropUnit i 0x3C1 s) (modColl (fun c => { c with sivFence := m }) s) := by
  subst hm hu
  exact if_neg (fun h => hn (List.isEmpty_iff.mp h))

/-- The slot pool is sized while no bed is open, within the slots of the build (R221). -/
theorem poolCfgW_sizes (hb : openBeds s = []) (hp : fld w 0 11 ≤ poolMax s) :
    poolCfgW w s = modColl (fun c => { c with poolCfg := some (fld w 0 11) }) s :=
  if_neg (by simp [hb, hp])

theorem poolCfgW_refused (h : openBeds s ≠ [] ∨ poolMax s < fld w 0 11) : poolCfgW w s = raise 0x331 s :=
  if_pos (h.imp_left (fun hb => by simpa using hb))

theorem lagClear_open {ctx : Nat} (hw : bitAt w 31 = true) (ho : (getBed s ctx).isOpen = true) :
    lagClear ctx w s = modBed ctx (fun b => { b with lag := { b.lag with worst := 0, worstNs := 0, valid := false } }) s :=
  if_pos (by rw [hw, ho]; rfl)

theorem poolStatusW_clears (hw : bitAt w 22 = true) : poolStatusW w s = modColl (fun c => { c with peak := c.slots.length }) s := if_pos hw

theorem deepStatusW_clears (hw : bitAt w 24 = true) : deepStatusW w s = modColl (fun c => { c with deepPeak := deepUsed s }) s := if_pos hw

theorem dispStatusW_clears (hw : bitAt w 14 = true) : dispStatusW w s = modColl (fun c => { c with dispPeak := c.disp.length }) s :=
  if_pos hw

end

/-! ### Hung engines and control errors (R422, R430, R432) -/

/-- An engine that still holds its work 1 ms after its reset is noted, and its domain is cycled where that can be done (R430). -/
theorem engineHung_due {s : State} {k : Nat} {x : EngReset} (hx : s.flt.engResets[k]? = some x) (hp : x.since + 1000000 ≤ s.clk)
    (hb : s.glb.cycBusy = false) {y : State}
    (hy : y = note 0x850 none x.kind x.unit { s with flt := { s.flt with engResets := s.flt.engResets.eraseIdx k } }) :
    engineHung k s = if mayCycle s (unitDom s x.kind x.unit) = true then startCycle (unitDom s x.kind x.unit) true y
      else cycleFailed y := by
  subst hy
  simp only [engineHung, hx, passed, hp, hb, decide_true, Bool.not_true, Bool.or_self, Bool.false_eq_true, if_false]
  rfl

/-- A control-state error of a unit in service fences it, at L3 when it is the last of its kind (R432). -/
theorem controlError_fences {s : State} {kind i : Nat} (hk : kind < 3) (hi : i ∈ fenceable s kind)
    (hf : (fencedOf s kind).testBit i = false) : ∃ ev : FaultEv, controlError kind i s = fenceUnit kind i (raiseEv ev s)
      ∧ ev.code = 0xF10 + kind ∧ ev.level = (if lastLive s kind i then Level.l3 else .l0) := by
  have other : kind ≠ 3 := by omega
  have known : ¬ (3 < kind ∨ (!(fenceable s kind).contains i) = true ∨ (fencedOf s kind).testBit i = true) := by
    simp only [List.contains_iff_mem.mpr hi, hf, Bool.not_true, Bool.false_eq_true, or_false, Nat.not_lt]
    omega
  exact ⟨_, (if_neg other).trans (if_neg known), rfl, rfl⟩

end Sys2Proof.Laws

namespace Sys2Proof.Proofs

open Sys2Proof.Machine Sys2Proof.Laws

/-- Settles O16: a plane without work ends the command's part; elsewhere the abort on record says whether the step begins. -/
theorem stepsAreTakenInOrder : Obligations.StepsAreTakenInOrder := by
  unfold Obligations.StepsAreTakenInOrder
  rintro s f c o ctx k u rfl
  refine ⟨issueStep_idle, ?joins⟩
  case joins =>
    rintro hi v rfl
    have bed {α : Type} (field : Bed → α) := congrArg field (getBed_stepJoined (s := s) (f := f) (c := c) (o := o) (ctx := ctx))
    exact ⟨issueStep_begins hi, fun _ _ => issueStep_aborted hi, getFur_stepJoined, bed Bed.nextStep, bed Bed.nextChunk,
      bed Bed.steps, bed Bed.desc, fun _ => getBed_stepJoined_other⟩

/-- Settles O17: the checks pass, so that each command is its own rule's effect. -/
theorem bedsOpenAndClose : Obligations.BedsOpenAndClose := by
  unfold Obligations.BedsOpenAndClose
  refine ⟨fun s f r hr hf hq hl ha => ?opens, fun s f tid ctx i ls hi hb hc => ?descriptor, fun s f r ctx hr hf hc hq hb => ?closes⟩
  case opens => exact ⟨_, run_of (doBedopen_issues hr hf hq hl ha), sends_bedopenGoes s f r, rfl⟩
  case descriptor =>
    have coll := bedRead_opens hi hb hc
    refine ⟨?_, fun n hn => ?_, ?_⟩
    · rw [getBed, coll, at_set_self]
    · rw [getBed, coll, at_set_other _ _ _ _ hn]
      rfl
    · rw [coll, List.lookup_cons_self]
  case closes =>
    obtain ⟨others, -⟩ := furOnly_issueNow f r.cmd (closeBed ctx (fresh s))
    refine ⟨_, run_of (doBedclose_issues hr hf hc hq hb), ?_, others, ?_, fun n hn => ?_, ?_, ?_, ?_⟩
    · rw [getFur_issueNow_self, getFur_closeBed, getFur_fresh]
    · rw [getBed_issueNow, getBed_closeBed_self]
    · rw [getBed_issueNow, getBed_closeBed_other _ hn, fresh_getBed]
    all_goals
      rw [issueNow_coll]
      exact kept_ne

/-- Settles O32: whether a bed of its id and generation is open decides what becomes of the packet. -/
theorem collectivePacketsGoToTheirBed : Obligations.CollectivePacketsGoToTheirBed := by
  unfold Obligations.CollectivePacketsGoToTheirBed
  rintro s v l p u w c kind plot hc hp rfl
  rw [exec_collRows hc]
  refine ⟨fun h3 => run_collRow hp h3 rfl, fun h3 => run_of (collArrival_l3 hp h3 _), fun h3 hb => ?stale⟩
  case stale =>
    have known : p.kind ∈ bedKinds := arrives_kind hp ▸ bedKind_of_collRows hc
    exact run_collRow hp h3 (takeColl_none known (fun ctx h => hb ctx (atBed_taken.mp h)))

/-- Settles O33: each kind's rule acts at the packet's bed. -/
theorem membersAndServersHearEachOther : Obligations.MembersAndServersHearEachOther := by
  unfold Obligations.MembersAndServersHearEachOther
  rintro s v l p plot ctx b rfl rfl h3
  rw [← getBed_taken s l ctx p]
  refine ⟨fun hb => ?bed, fun id r hp hm hr hd => ?acks⟩
  case bed =>
    have hb : AtBed (taken s l p) plot p ctx := atBed_taken.mpr hb
    refine ⟨fun hp hv hl hr => ?grant, fun hp => ?ready, fun hp => ?refusal, fun hp => ?notice, fun st hp hs hrun hnew => ?result,
      fun st hp hs hl hnew => ?candidates⟩
    case grant =>
      have grant := (takeColl_grant (u := .none) (arrives_kind hp) hv).trans (takeGrant_bed hb hl hr)
      exact ⟨fun ha => run_collRow hp h3 (grant.trans (if_pos ha)),
        fun ha => run_collRow hp h3 (grant.trans (if_neg (Bool.eq_false_iff.mp ha)))⟩
    case ready =>
      have ready := takeColl_ready (u := .none) (plot := plot) (s := taken s l p) (arrives_kind hp)
      exact ⟨fun hr => run_collRow hp h3 (ready.trans (takeReady_again hb hr)),
        fun hr ha => run_collRow hp h3 (ready.trans (takeReady_first hb hr ha))⟩
    case refusal => exact run_collRow hp h3 ((takeColl_refusal (arrives_kind hp)).trans (takeRefusal_bed hb))
    case notice => exact run_collRow hp h3 ((takeColl_notice (arrives_kind hp)).trans (takeAbort_bed hb))
    case result => exact run_collRow hp h3 ((takeColl_result (arrives_kind hp)).trans (takeResult_lands hb hs hrun hnew))
    case candidates => exact run_collRow hp h3 ((takeColl_candidates (arrives_kind hp)).trans (takeCandidates_kept hb hs hl hnew))
  case acks =>
    have named : matchColl (taken s l p) p = some (id, r) := by
      rw [← hm, matchColl, taken_xfer]
      rfl
    have ack := (collArrival_arrives hp h3 (fun _ p s => takeCollAck p s)).trans (takeCollAck_named named hr hd)
    rw [taken_clk] at ack
    exact ⟨fun busy => run_of (ack.trans (if_pos busy)), fun done => run_of (ack.trans (if_neg (Bool.eq_false_iff.mp done)))⟩

/-- Settles O34: the slot's receipt map says whether the packet is taken or is a duplicate. -/
theorem slotsTakePacketsOnce : Obligations.SlotsTakePacketsOnce := by
  unfold Obligations.SlotsTakePacketsOnce
  rintro s v l p u plot ctx id st x rfl h3
  refine ⟨fun hx => ?new, fun c hc hb ha hs hx hseen => ?seen⟩
  case new =>
    have hx : AtSlot (taken s l p) plot p ctx st id x := atSlot_taken.mpr hx
    refine ⟨fun y hp hy hu hm hd h59 => ?moved, fun hp => ?upset, fun hp hop => ⟨?tags, ?staged, tagSlot_got ..⟩⟩
    case moved =>
      rw [← getBed_taken s l ctx p] at hy
      exact run_collRow hp h3 ((takeColl_contribution (arrives_kind hp)).trans (takeContribution_moved hx hu hy hm hd h59))
    case upset => exact run_collRow hp h3 ((takeColl_contribution (arrives_kind hp)).trans (takeContribution_upset hx))
    case tags =>
      exact run_collRow hp h3 ((takeColl_tags (u := .none) (arrives_kind hp)).trans (takeTags_staged hx hop (fun e => nomatch e)))
    case staged => rw [tagSlot_staged, getBed_taken]
  case seen =>
    rw [← getBed_taken s l ctx p] at ha hs
    rw [← slotOf_taken s l] at hx
    have duplicate := admitted_seen (atBed_taken.mpr hb) ha hs hx hseen
    rcases hc with ⟨rfl, hp⟩ | ⟨rfl, hp⟩ | ⟨rfl, hp⟩
    · exact run_collRow hp h3 ((takeColl_contribution (arrives_kind hp)).trans (duplicate _))
    · exact run_collRow hp h3 ((takeColl_tags (u := .none) (arrives_kind hp)).trans (duplicate _))
    · exact run_collRow hp h3 ((takeColl_combine (arrives_kind hp)).trans (duplicate _))

/-- Settles O35: each clause is the lemma of the slot's or the timer's own function. -/
theorem slotsAreGivenAndTimed : Obligations.SlotsAreGivenAndTimed := by
  unfold Obligations.SlotsAreGivenAndTimed
  refine ⟨?slot, ?dibberSlot, fun s ctx num st hs ho he hl hp => ?member, fun s id x hx hf hp => ?serving,
    fun s ctx num x hx he hl hp => ?dibberMember, fun s id t0 y hy hf hp => ?dibberServing⟩
  case slot =>
    rintro s v ctx k g bank st slots b rfl rfl hs hr ho hw hn hf hu hd hk
    exact ⟨_, run_of (allocSlot_gives (s := fresh s) hs hr ho hw hn hf hu hd hk rfl), rfl, rfl, rfl, rfl⟩
  case dibberSlot =>
    rintro s v ctx x b rfl rfl hs hr ho hw hd hn
    exact ⟨_, run_next .., allocDib_gives (s := fresh s) hs hr ho hw hd hn⟩
  case member => exact run_of (memberExpiry_due (s := fresh s) hs ho he hl hp)
  case serving => exact run_of (servingExpiry_due (s := fresh s) hx hf hp)
  case dibberMember => exact run_of (dibMemberExpiry_due (s := fresh s) hx he hl hp)
  case dibberServing => exact run_of (dibServingExpiry_due (s := fresh s) hy hf hp)

/-- Settles O51: each clause is the lemma of the register's, the engine's or the unit's own function. -/
theorem fencesPeaksAndHungEngines : Obligations.FencesPeaksAndHungEngines := by
  unfold Obligations.FencesPeaksAndHungEngines
  rintro s u sv w rfl
  refine ⟨?fence, ?slices, ?units, fun hw => ⟨fun hb hp => ?sized, fun h => ?unsized⟩, fun ctx hc hw h31 ho => ?laggard,
    fun hw h22 => ?peak, fun hw h24 => ?deepPeak, fun hw h14 => ?dispPeak, fun hw h21 => ?dibPeak, ?hung, fun kind i hk hi hf => ?control,
    fun i => run_of rfl⟩
  case fence =>
    rintro kind i hw h9 rfl rfl
    have answered := cpWrite_writable hw (fltFenceW w)
    refine ⟨fun hi hf hl => ?_, fun h => run_of (answered.trans (congrArg _ (fltFenceW_refused (s := fresh s) h9 h)))⟩
    have fenced := answered.trans (congrArg (cpAnswer sv 0 0) (fltFenceW_fences (s := fresh s) h9 hi hf hl))
    refine ⟨fun hk => ?_, fun hk => ?_, fun hk => ?_, fun hk => ?_⟩
    all_goals
      rw [hk] at fenced
      exact run_of fenced
  case slices =>
    intro m hw hm hn
    have answered := (cpWrite_writable hw (sliceFenceW w)).trans (congrArg (cpAnswer sv 0 0) (sliceFenceW_adds (s := fresh s) hm hn))
    exact ⟨fun h => run_of (answered.trans (congrArg _ (if_neg h))), fun h => run_of (answered.trans (congrArg _ (if_pos h)))⟩
  case units =>
    intro m us hw hm hu hn
    have answered := (cpWrite_writable hw (sivFenceW w)).trans (congrArg (cpAnswer sv 0 0) (sivFenceW_adds (s := fresh s) hm hu hn))
    exact ⟨fun h => run_of (answered.trans (congrArg _ (if_neg h))), fun h => run_of (answered.trans (congrArg _ (if_pos h)))⟩
  case sized => exact act_of ((cpWrite_writable hw _).trans (congrArg _ (poolCfgW_sizes (s := fresh s) hb hp)))
  case unsized => exact act_of ((cpWrite_writable hw _).trans (congrArg _ (poolCfgW_refused (s := fresh s) h)))
  case laggard =>
    exact act_of ((if_pos hc).trans ((cpWrite_writable hw _).trans (congrArg _ (lagClear_open (s := fresh s) h31 ho))))
  case peak => exact act_of ((if_pos h22).trans ((cpWrite_writable hw _).trans (congrArg _ (poolStatusW_clears h22))))
  case deepPeak => exact act_of ((if_pos h24).trans ((cpWrite_writable hw _).trans (congrArg _ (deepStatusW_clears h24))))
  case dispPeak => exact act_of ((if_pos h14).trans ((cpWrite_writable hw _).trans (congrArg _ (dispStatusW_clears h14))))
  case dibPeak => exact ⟨_, act_of ((if_pos h21).trans (cpWrite_writable hw _)), if_pos h21, rfl⟩
  case hung =>
    rintro k x d y hx hp hb rfl hy
    have due := engineHung_due (s := fresh s) hx hp hb hy
    subst hy
    exact ⟨fun h => run_of (due.trans (if_pos h)), fun h => run_of (due.trans (if_neg (Bool.eq_false_iff.mp h)))⟩
  case control =>
    obtain ⟨ev, fenced, code, level⟩ := controlError_fences (s := fresh s) hk hi hf
    exact ⟨ev, run_of fenced, code, level⟩

end Sys2Proof.Proofs
end

section
/-! SUPPORT. The sparse and dispatch family: collective commands at issue that take their bed's step, and the statement that they
settle. -/

namespace Sys2Proof.Laws

open Sys2Proof.Machine

/-! ### Bed commands at issue (R74, R186, R188) -/

/-- A command that issues and passes its rule's checks has the effect that the rule gives it after them (R74). -/
theorem withCmd_passes {s : State} {f op : Nat} {outst : Bool} {r : Ready} {rule : Cmd → Opnd → Place → State → State}
    {checks : List (Bool × Nat)} {k : State → State} (hr : Issues s f op outst r) (hp : Passes checks)
    (hk : rule r.cmd (opnds s f r) r.place (fresh s) = checked f r.cmd checks k (fresh s)) :
    withCmd f op outst rule (fresh s) = k (fresh s) :=
  (withCmd_issues hr rule).trans (hk.trans (checked_passes hp k _))

section
variable {s : State} {f ctx : Nat} {r : Ready} (hb : BedOf s f r.cmd ctx)
include hb

/-- The context that a bed command's rule looks up is its open bed's (R186). -/
theorem bedOf_ctx : (findBed s (getFur s f).plot r.cmd.id).getD 0 = ctx := by
  rw [show findBed s (getFur s f).plot r.cmd.id = some ctx from hb, Option.getD_some]

/-- SREDUCE and TOPK take their step past the checks that they share and their own (R252, R262). -/
theorem doSparse_takes {op : Nat} {own : CCmd → List (Bool × Nat)} (hr : Issues s f op true r)
    (hp : Passes (collChecks s f r.cmd (opnds s f r) [] [(decide ((opnds s f r).len < 256), 0x111), ((opnds s f r).len % 128 != 0, 0x122)]
      ++ [planeCheck (getBed s ctx).desc (ccmdOf r.cmd (opnds s f r))] ++ own (ccmdOf r.cmd (opnds s f r)) ++ [unitGone s r.cmd])) :
    doSparse f op own (fresh s) = issueStep f r.cmd (opnds s f r) ctx (listWork (getFur s f).plot ctx) (fresh s) := by
  obtain rfl := bedOf_ctx hb
  exact withCmd_passes hr hp rfl

/-! ### COMBINE and the descriptor of its DISPATCH (R280) -/

section
variable {x : Option DispCtx} {m : Moe} (hx : x = findDisp s ctx) (hm : m = (x.map (fun y => y.moe)).getD {})
  (hr : Issues s f 0x63 true r)
include hx hm hr

/-- While the context of its DISPATCH holds no descriptor, a COMBINE stays at issue. -/
theorem doCombine_waits (he : e64 s = true) (ho : bedBad s f r.cmd true = false) (hd : x.isSome = true) (h0 : m.experts = 0) :
    doCombine f (fresh s) = fresh s := by
  have waits : (e64 s && !bedBad s f r.cmd true && x.isSome && m.experts == 0) = true := by simp [he, ho, hd, h0]
  subst hm hx
  obtain rfl := bedOf_ctx hb
  exact (withCmd_issues hr _).trans (if_pos waits)

/-- With that descriptor read, or on a plane, a COMBINE that passes its checks takes its step. -/
theorem doCombine_takes (hn : e64 s = false ∨ m.experts ≠ 0)
    (hp : Passes (collChecks s f r.cmd (opnds s f r) [(!idlePlane s (getBed s ctx).desc && x.isNone, 0x3B4)]
        [((opnds s f r).len % unitBytes (outFmt r.cmd.d r.cmd.osel) != 0, 0x122)]
      ++ [planeCheck (getBed s ctx).desc (ccmdOf r.cmd (opnds s f r)),
          (e64 s && combBad m ((x.map (fun y => y.tokens)).getD 0) (ccmdOf r.cmd (opnds s f r)), 0x3B2), unitGone s r.cmd])) :
    doCombine f (fresh s) = issueStep f r.cmd (opnds s f r) ctx (combWork ctx m) (fresh s) := by
  have goes : ¬ (e64 s && !bedBad s f r.cmd true && x.isSome && m.experts == 0) = true := by
    cases hn with
    | inl plane => simp [plane]
    | inr known => simp [known]
  subst hm hx
  obtain rfl := bedOf_ctx hb
  exact withCmd_passes hr hp (if_neg goes)

end
end

end Sys2Proof.Laws

namespace Sys2Proof.Proofs

open Sys2Proof.Machine Sys2Proof.Laws

/-- Settles O18: a command whose checks pass takes its step at the context of its bed; a COMBINE asks first for its descriptor. -/
theorem sparseAndExpertCommandsTakeTheirStep : Obligations.SparseAndExpertCommandsTakeTheirStep := by
  unfold Obligations.SparseAndExpertCommandsTakeTheirStep
  rintro s f plot r o ctx d c rfl hb rfl rfl rfl t rfl
  refine ⟨fun hr hp => ?scan, fun hr hp => ?sreduce, fun hr hp => ?topk, fun hr hp => ?dispatch, fun x hx m hm hr =>
    ⟨fun hn hp => ?combine, fun he ho hd h0 => ?waiting⟩⟩
  case scan =>
    obtain rfl := bedOf_ctx hb
    exact run_of (withCmd_passes hr hp rfl)
  case sreduce => exact run_of (doSparse_takes (own := fun _ => []) hb hr hp)
  case topk => exact run_of (doSparse_takes (own := fun c => [(decide (c.p % 8192 = 0 ∨ 4096 < c.p % 8192), 0x3A3)]) hb hr hp)
  case dispatch =>
    obtain rfl := bedOf_ctx hb
    exact run_of (withCmd_passes hr hp rfl)
  case combine => exact run_of (doCombine_takes hb hx hm hr hn hp)
  case waiting => exact run_of (doCombine_waits hb hx hm hr he ho hd h0)

end Sys2Proof.Proofs
end

section
/-! SUPPORT. The Dibber family: DREDUCE, DBARRIER and DUMP at issue, and the statement that they settle. -/

namespace Sys2Proof.Laws

open Sys2Proof.Machine

/-! ### The Dibber step that a command takes (R289, R291; log 66) -/

/-- The state in which a command has taken its bed's next Dibber step: it is outstanding, and the bed counts on (R289). -/
def dibStepTaken (s : State) (f : Nat) (c : Cmd) (ctx : Nat) : State :=
  modBed ctx (fun b => { b with nextDib := (b.nextDib + 1) % 2 ^ 32 }) (issueOut f c 1 none (fresh s))

section
variable {s : State} {f ctx : Nat} {c : Cmd} {o : Opnd}

/-- The bed counts on from its own next Dibber step. -/
theorem dibStepTaken_eq : dibStepTaken s f c ctx =
    modBed ctx (fun b => { b with nextDib := ((getBed s ctx).nextDib + 1) % 2 ^ 32 }) (issueOut f c 1 none (fresh s)) :=
  modBed_congr rfl

/-- A plane that is not the bed's Dibber plane has nothing to do: the command's one part is over (log 66). -/
theorem issueDib_idle (he : e64 s = false) (hi : (getBed s ctx).desc.oneBoard = true ∨ dibPlane (getBed s ctx).desc ≠ selfNode s) :
    issueDib f c o ctx (fresh s) = partDone f (getFur s f).nextTid none false (dibStepTaken s f c ctx) := by
  have idle : (!e64 s && ((getBed s ctx).desc.oneBoard || dibPlane (getBed s ctx).desc != selfNode s)) = true := by simp [he, hi]
  rw [dibStepTaken_eq]
  exact if_pos idle

/-- A member's DBARRIER has nothing to read: its step joins the bed's Dibber steps (R291). -/
theorem issueDib_barrier (he : e64 s = true) (hop : c.op = 0x71) (ha : abortedAt (getBed s ctx).dabort (getBed s ctx).nextDib = none) :
    issueDib f c o ctx (fresh s) =
      modBed ctx (fun b => { b with dsteps := b.dsteps ++ [barrierStep s f c o ctx] }) (dibStepTaken s f c ctx) := by
  have member : ¬ (!e64 s && ((getBed s ctx).desc.oneBoard || dibPlane (getBed s ctx).desc != selfNode s)) = true := by simp [he]
  have data : (if c.op = 0x71 then some [] else none : Option (List Byte)) = some [] := if_pos hop
  unfold issueDib
  simp only [getBed_issueOut, fresh_getBed, ha, data]
  rw [dibStepTaken_eq]
  exact (if_neg member).trans (if_pos (.inr hop))

end

/-! ### DUMP (R105, R484, R485) -/

section
variable {s : State} {f : Nat} {r : Ready} (hr : Issues s f 0x7F true r) (hf : FieldsHold s f r)
  (hl : localOk (opnds s f r).a = true) (ha : (opnds s f r).a.toNat % 128 = 0) (hlo : 128 ≤ (opnds s f r).len)
  (hhi : (opnds s f r).len ≤ 16777216) (hm : (opnds s f r).len % 128 = 0)
include hf hl ha hlo hhi hm

/-- A local source of whole lines, from one line to 16 MiB, passes DUMP's checks (R105). -/
theorem dump_passes : Passes [regCheck (fresh s) r.cmd (opnds s f r), (!localOk (opnds s f r).a, 0x123),
    ((opnds s f r).a.toNat % 128 != 0, 0x121), (decide ((opnds s f r).len < 128 ∨ 16777216 < (opnds s f r).len), 0x111),
    ((opnds s f r).len % 128 != 0, 0x122)] :=
  passes_cons (regCheck_fresh hf) (passes_cons (by simp [hl]) (passes_cons (by simp [ha])
    (passes_cons (decide_eq_false (by omega)) (passes_cons (by simp [hm]) rfl))))

include hr

/-- A DUMP that does not fit in the area is lost, counted and noted, and nothing of it is outstanding (R485). -/
theorem doDump_lost (hd : dumpPlace s (opnds s f r).len = none) : doDump f (fresh s) = note 0x930 (some (getFur s f).plot) .furrow f
    (modObs (fun o => { o with dumpLost := satInc 0xFFFFFFFF s.obs.dumpLost }) (issueOut f r.cmd 0 none (fresh s))) := by
  have place : dumpPlace (fresh s) (opnds s f r).len = none := hd
  refine (withCmd_passes hr (dump_passes hf hl ha hlo hhi hm) rfl).trans ?_
  simp only [place]
  rfl

/-- A DUMP that fits reserves its entry's place, and its source is then read (R484). -/
theorem doDump_reserves {pad : Option Nat} {start next : Nat} (hd : dumpPlace s (opnds s f r).len = some (pad, start, next)) :
    doDump f (fresh s) = dumpFetch (dumpEntry s f r.cmd (opnds s f r) pad start next)
      (dumpReserve (dumpEntry s f r.cmd (opnds s f r) pad start next) (issueOut f r.cmd 1 none (fresh s))) := by
  have place : dumpPlace (fresh s) (opnds s f r).len = some (pad, start, next) := hd
  refine (withCmd_passes hr (dump_passes hf hl ha hlo hhi hm) rfl).trans ?_
  simp only [place]
  rfl

end

/-- The read of a DUMP's source, or the note that it is unmapped, is the engines' work (R180, R484). -/
theorem work_dumpFetch (e : DumpEnt) (s : State) : EngineWork s (dumpFetch e s) :=
  .ite (work_startRead ..) ((work_noteOwn ..).trans (work_pushFin ..))

theorem work_dumpReserve (e : DumpEnt) (s : State) : EngineWork s (dumpReserve e s) := .of rfl

end Sys2Proof.Laws

namespace Sys2Proof.Proofs

open Sys2Proof.Machine Sys2Proof.Laws

/-- Settles O19: a Dibber command whose checks pass takes its step at the context of its bed, and where the entry of a DUMP goes in the
area decides whether it is lost or reserved. -/
theorem dibberCommandsAndDumpGoOut : Obligations.DibberCommandsAndDumpGoOut := by
  unfold Obligations.DibberCommandsAndDumpGoOut
  refine ⟨?checks, ?step, ?dump⟩
  case checks =>
    rintro s f r o ctx d c rfl hb rfl rfl
    obtain rfl := bedOf_ctx hb
    exact ⟨fun hr hp => run_of (withCmd_passes hr hp rfl), fun hr hp => run_of (withCmd_passes hr hp rfl)⟩
  case step =>
    rintro s f c o ctx b rfl v rfl
    exact ⟨issueDib_idle, issueDib_barrier⟩
  case dump =>
    rintro s f r o rfl hr hf hl ha hlo hhi hm
    refine ⟨doDump f (fresh s), run_of rfl, fun hd => ?lost, ?reserved⟩
    case lost =>
      rw [doDump_lost hr hf hl ha hlo hhi hm hd]
      exact ⟨rfl, rfl, getFur_issueOut_self f r.cmd 0 none (fresh s)⟩
    case reserved =>
      rintro pad start next e hd rfl w rfl
      rw [doDump_reserves hr hf hl ha hlo hhi hm hd]
      exact ⟨rfl, rfl, rfl, rfl, work_issueOut (s := fresh s) ((work_dumpReserve ..).trans (work_dumpFetch ..))⟩

end Sys2Proof.Proofs
end

section
/-! SUPPORT. The lanes and links family: packets whose checks fail, the training of a lane, and the statements that they settle. -/

namespace Sys2Proof.Laws

open Sys2Proof.Machine

/-! ### Packets whose checks fail (R325, R368, R375) -/

section
variable {s : State} {l kind : Nat} {p : Packet}

/-- Where a packet's plot stands does not hang on its place in a buffer. -/
@[simp] theorem plotChecks_taken (s : State) (l : Nat) (p : Packet) : plotChecks (taken s l p) l p = plotChecks s l p := by
  unfold plotChecks plotOfKey admits liveBank getPlot
  rw [taken_plots, taken_trl]

@[simp] theorem linkPort_taken (s : State) (l : Nat) (p : Packet) : linkPort (taken s l p) l = linkPort s l := by
  unfold linkPort e64
  rw [taken_glb]

theorem arrival_crcFails (hd : Delivers s l p kind) (hc : Packet.crcOk p = false) (stale : State → State) (k : Nat → State → State) :
    arrival l p kind stale k (fresh s) = crcDrop l (taken s l p) := by
  rw [arrival_delivers hd, received, hc]
  rfl

theorem arrival_plotFails {code n : Nat} (hd : Delivers s l p kind) (hc : Packet.crcOk p = true) (hp : plotChecks s l p = (code, n))
    (h0 : code ≠ 0) (stale : State → State) (k : Nat → State → State) :
    arrival l p kind stale k (fresh s) = plotDrop l code (if code = 0x601 then none else some n) (taken s l p) := by
  have good : ¬ (!Packet.crcOk p) = true := by simp [hc]
  rw [arrival_delivers hd, received, if_neg good, plotChecks_taken, hp, if_pos h0]

end

/-- The rows of answers to this block's own requests, with the kind that each takes (R323). -/
def answerRows (l : Nat) (p : Packet) : List (Instr × Nat) :=
  [(.readData l p, 0x20), (.shortReply l p, 0x21), (.acknowledgement l p, 0x22), (.copyDone l p, 0x23), (.copyBusy l p, 0x24),
   (.errorReply l p, 0x25), (.collectiveAcknowledgement l p, 0x27)]

/-- The rows of packets of a bed, without the upsets that they take. -/
def bedRows (l : Nat) (p : Packet) (u : Upset) : List (Instr × Nat) := (collRows l p u).map (fun r => (r.1, r.2.1))

theorem mem_collRows_of_bedRows {l kind : Nat} {p : Packet} {u : Upset} {c : Instr} (h : (c, kind) ∈ bedRows l p u) :
    ∃ w, (c, kind, w) ∈ collRows l p u := by
  obtain ⟨⟨c', kind', w⟩, hr, e⟩ := List.mem_map.mp h
  cases e
  exact ⟨w, hr⟩

/-- The order of R323's kinds: copy requests stand among the home's requests, step-abort notices among the answers. -/
theorem arrivals_eq (l : Nat) (p : Packet) (u : Upset) : arrivals l p u =
    ((homeRows l p).take 5 ++ (.copyRequest l p, 0x15) :: (homeRows l p).drop 5)
      ++ ((answerRows l p).take 6 ++ ((bedRows l p u).take 1 ++ ((answerRows l p).drop 6 ++ (bedRows l p u).drop 1))) := rfl

/-- A packet that arrives is a request to a home, an answer, or a packet of a bed (R323). -/
theorem arrivals_split {l kind : Nat} {p : Packet} {u : Upset} {c : Instr} (h : (c, kind) ∈ arrivals l p u) :
    (c, kind) ∈ (.copyRequest l p, 0x15) :: homeRows l p ∨ (c, kind) ∈ answerRows l p ∨ (c, kind) ∈ bedRows l p u := by
  simp only [arrivals_eq, List.mem_append, List.mem_cons (l := List.drop 5 (homeRows l p))] at h
  rcases h with (h | h | h) | h | h | h | h
  · exact .inl (List.mem_cons_of_mem _ (List.mem_of_mem_take h))
  · exact .inl (h ▸ List.mem_cons_self)
  · exact .inl (List.mem_cons_of_mem _ (List.mem_of_mem_drop h))
  · exact .inr (.inl (List.mem_of_mem_take h))
  · exact .inr (.inr (List.mem_of_mem_take h))
  · exact .inr (.inl (List.mem_of_mem_drop h))
  · exact .inr (.inr (List.mem_of_mem_drop h))

section
variable {s : State} {l kind : Nat} {p : Packet} {c : Instr}

/-- A request that may leave its buffer is taken by the rule of every arriving packet (R166, R179, R325). -/
theorem exec_requestRows (h : (c, kind) ∈ (.copyRequest l p, 0x15) :: homeRows l p) (hb : lineBusy s p = false)
    (ha : kind = 0x16 → atomsFull s = false) :
    ∃ stale k, exec c s = .next (after s (arrival l p kind stale k (fresh s))) := by
  have free := request_free hb ha
  rcases List.mem_cons.mp h with h | h
  · cases h
    exact ⟨_, _, run_of (if_neg free)⟩
  · exact ⟨_, _, (exec_homeRows h s).trans (run_of (if_neg free))⟩

theorem exec_answerRows (h : (c, kind) ∈ answerRows l p) (s : State) :
    ∃ stale k, exec c s = .next (after s (arrival l p kind stale k (fresh s))) := by
  simp only [answerRows, List.mem_cons, List.not_mem_nil, or_false, Prod.mk.injEq] at h
  rcases h with ⟨rfl, rfl⟩ | ⟨rfl, rfl⟩ | ⟨rfl, rfl⟩ | ⟨rfl, rfl⟩ | ⟨rfl, rfl⟩ | ⟨rfl, rfl⟩ | ⟨rfl, rfl⟩ <;> exact ⟨_, _, run_of rfl⟩

theorem homeKind_of_requestRows (h : (c, kind) ∈ (.copyRequest l p, 0x15) :: homeRows l p) : kind < 0x20 := by
  have hk : kind ∈ ((.copyRequest l p, 0x15) :: homeRows l p).map Prod.snd := List.mem_map_of_mem (f := Prod.snd) h
  simp only [homeRows, List.map, List.mem_cons, List.not_mem_nil, or_false] at hk
  omega

/-- Every row of an arriving packet runs the rule of arrivals, once nothing at its home holds it in its buffer (R325). -/
theorem exec_arrivals {u : Upset} (h : (c, kind) ∈ arrivals l p u)
    (hh : kind < 0x20 → lineBusy s p = false ∧ (kind = 0x16 → atomsFull s = false)) :
    ∃ stale k, exec c s = .next (after s (arrival l p kind stale k (fresh s))) := by
  rcases arrivals_split h with h | h | h
  · obtain ⟨hb, ha⟩ := hh (homeKind_of_requestRows h)
    exact exec_requestRows h hb ha
  · exact exec_answerRows h s
  · obtain ⟨w, h⟩ := mem_collRows_of_bedRows h
    exact ⟨_, _, (exec_collRows h s).trans (run_of rfl)⟩

end

/-! ### The training of a lane (R313-R316) -/

@[simp] theorem getLane_modLane_self (q : Nat) (g : Lane → Lane) (s : State) : getLane (modLane q g s) q = g (getLane s q) := by
  simp [getLane, modLane]

@[simp] theorem getLane_emit (o : Output) (s : State) (q : Nat) : getLane (emit o s) q = getLane s q := rfl

/-- What a lane notes of every frame that it takes: a far end is there, its lane index, and whether it asks for precoding (R310, R314). -/
def noteFrame (q : Nat) (c : BitVec 96) (s : State) : State :=
  modLane q (fun x => { x with farIndex := fld c 25 2, precodeTx := bitAt c 13 }) (modLane q (fun x => { x with seenFar := true }) s)

@[simp] theorem getLane_noteFrame_self (q : Nat) (c : BitVec 96) (s : State) : getLane (noteFrame q c s) q
    = { getLane s q with seenFar := true, farIndex := fld c 25 2, precodeTx := bitAt c 13 } := by simp [noteFrame]

/-- A lane's answer to a frame (R314; log 77). -/
def answerFrame (q : Nat) (s : State) : State := emit (.trainFrames q (myFrame s q false)) s

@[simp] theorem getLane_answerFrame (q r : Nat) (s : State) : getLane (answerFrame q s) r = getLane s r := rfl

/-- The answer is the frame that the lane sends as it stands afterwards. -/
theorem outbox_answerFrame (q : Nat) (s : State) :
    (answerFrame q s).outbox = s.outbox ++ [.trainFrames q (myFrame (answerFrame q s) q false)] := rfl

/-- A preset sets both taps and reports both as updated (R313, R314). -/
theorem getLane_tapRequests_preset {n : Nat} (h : n ≠ 0) (q a b : Nat) (s : State) : getLane (tapRequests q a b n s) q
    = { getLane s q with pre := (presets.getD (n - 1) (4, 8)).1, post := (presets.getD (n - 1) (4, 8)).2, preStatus := 1, postStatus := 1 } := by
  simp only [tapRequests, getLane_modLane_self, if_neg h]

section
variable {s : State} {q : Nat} {t : TState} {x : Lane} {c : BitVec 96}

theorem trains_lane (h : Trains s q t x) : getLane s q = x := by
  obtain ⟨-, -, hx, -⟩ := h
  exact hx

theorem trains_tstate (h : Trains s q t x) : (getLane s q).tstate = t := by
  obtain ⟨-, -, rfl, -, ht, -⟩ := h
  exact ht

/-- The guard of a frame that a training lane takes (R314, R315). -/
theorem takes_frame (h : Trains s q t x) (hf : frameOk c = true) :
    ¬ (!(decide (q < laneCount s) && x.tstate.training && !x.wait && !noFarLane s q && frameOk c)) = true := by
  obtain ⟨hq, hfar, -, hw, rfl, ht⟩ := h
  simp [hq, hfar, hw, ht, hf]

/-- In COEFF, a lane whose far end is known does what a frame asks of its taps, and answers (R313, R314). -/
theorem takeFrame_coeff (h : Trains s q .coeff x) (hid : x.idOk = true) (hn : x.noFar = false) (hf : frameOk c = true)
    (hp : fld c 4 3 ≠ 0) :
    takeFrame q c s = answerFrame q (tapRequests q (fld c 0 2) (fld c 2 2) (fld c 4 3) (noteFrame q c s)) := by
  have takes := takes_frame h hf
  obtain ⟨-, -, rfl, -, hc, -⟩ := h
  rw [takeFrame, if_neg takes]
  simp [hid, hn, hc, noteFrame, getLane_tapRequests_preset hp, TState.training, answerFrame]

/-- In ALIGN, a lane whose far end is known counts a frame that says ready, and answers (R314, R315). -/
theorem takeFrame_align (h : Trains s q .align x) (hid : x.idOk = true) (hn : x.noFar = false) (hf : frameOk c = true)
    (hr : bitAt c 11 = true) :
    takeFrame q c s = answerFrame q (modLane q (fun x => { x with frames := x.frames + 1 }) (noteFrame q c s)) := by
  have takes := takes_frame h hf
  obtain ⟨-, -, rfl, -, ha, -⟩ := h
  rw [takeFrame, if_neg takes]
  simp [hid, hn, ha, hr, noteFrame, TState.training, answerFrame]

/-! What the end of a step does in each step of training (R315). -/

theorem stepDone_detect (h : Trains s q .detect x) (hs : x.seenFar = true) : stepDone q s = toStep q .acquire s := by
  obtain ⟨-, -, rfl, hw, ht, -⟩ := h
  simp [stepDone, hw, ht, hs]

theorem stepDone_acquire (h : Trains s q .acquire x) (hs : x.full = true ∨ x.idOk = true) : stepDone q s = endAcquire q s := by
  obtain ⟨-, -, rfl, hw, ht, -⟩ := h
  simp [stepDone, hw, ht, hs]

theorem stepDone_coeff (h : Trains s q .coeff x) (hs : x.idOk = true) : stepDone q s = toStep q .align s := by
  obtain ⟨-, -, rfl, hw, ht, -⟩ := h
  simp [stepDone, hw, ht, hs]

theorem stepDone_align (h : Trains s q .align x) (hs : 16 ≤ x.frames) :
    stepDone q s = emit (.trainFrames q (myFrame s q true)) (toStep q .check s) := by
  obtain ⟨-, -, rfl, hw, ht, -⟩ := h
  simp [stepDone, hw, ht, hs]

theorem stepDone_check (h : Trains s q .check x) : stepDone q s = if checkOk x then laneUp q s else failStep q s := by
  obtain ⟨-, -, rfl, hw, ht, -⟩ := h
  simp [stepDone, hw, ht]

theorem stepTimeout_fails (h : Trains s q t x) (hs : t ≠ .detect ∨ x.seenFar = true) (hp : x.stepSince + stepBound t x.full ≤ s.clk) :
    stepTimeout q s = failStep q s := by
  obtain ⟨-, -, rfl, hw, rfl, ht⟩ := h
  refine if_pos ?_
  simp [hw, ht, hs, passed, hp]

theorem detectTimeout_notes (h : Trains s q .detect x) (hs : x.seenFar = false) (hn : x.noFar = false)
    (hp : x.stepSince + 1000000000 ≤ s.clk) : detectTimeout q s
      = promote 8 (modLane q (fun x => { x with noFar := true, noted521 := true, fallow := true, stepSince := s.clk })
        (if x.noted521 then s else laneFault q 0x521 s)) := by
  obtain ⟨-, -, rfl, hw, ht, -⟩ := h
  have clk : (if (getLane s q).noted521 = true then s else laneFault q 0x521 s).clk = s.clk := by split <;> rfl
  have due : passed s (getLane s q).stepSince 1000000000 = true := decide_eq_true hp
  rw [detectTimeout, if_pos (by simp [hw, ht, hs, hn, due])]
  simp only [clk]

theorem detectRetry_starts (hx : getLane s q = x) (hn : x.noFar = true) (hp : x.stepSince + 100000000 ≤ s.clk) :
    detectRetry q s = modLane q (fun x => { x with stepSince := s.clk, trainsStarted := satInc 65535 x.trainsStarted }) s := by
  subst hx
  exact if_pos (by simp [hn, passed, hp])

end

end Sys2Proof.Laws

namespace Sys2Proof.Proofs

open Sys2Proof.Machine Sys2Proof.Laws

/-- Settles O25: each row runs the rule of arrivals, which drops and counts what fails its crc or its plot checks. -/
theorem arrivalsThatFailChecksAreDropped : Obligations.ArrivalsThatFailChecksAreDropped := by
  unfold Obligations.ArrivalsThatFailChecksAreDropped
  intro s l p u c kind hrow hd hh
  obtain ⟨stale, k, run⟩ := exec_arrivals hrow hh
  rw [run]
  refine ⟨fun hc => ?crc, fun code n hc hp h0 => ?plot⟩
  case crc =>
    rw [arrival_crcFails hd hc, crcDrop, linkPort_taken]
    rfl
  case plot =>
    rw [arrival_plotFails hd hc hp h0, plotDrop, linkPort_taken]
    rfl

/-- Settles O40: a frame by the step that its lane is in, then the end of each step and each bound by its own rule. -/
theorem lanesTrainStepByStep : Obligations.LanesTrainStepByStep := by
  unfold Obligations.LanesTrainStepByStep
  rintro s v q x rfl
  refine ⟨fun c h hid hn hf hp => ?coeffFrame, fun c h hid hn hf hr => ?alignFrame, fun h hs => run_of (stepDone_detect h hs),
    fun h hs => run_of (stepDone_acquire h hs), fun h hs => run_of (stepDone_coeff h hs), fun h hs => run_of (stepDone_align h hs),
    fun h => ⟨fun ok => ?passes, fun bad => ?fails⟩, fun t h hs hp => run_of (stepTimeout_fails h hs hp),
    fun h hs hn hp => act_of (detectTimeout_notes h hs hn hp), fun hx hn hp => act_of (detectRetry_starts hx hn hp)⟩
  case coeffFrame =>
    refine ⟨_, run_of (takeFrame_coeff h hid hn hf hp), ?_⟩
    rw [getLane_answerFrame, getLane_tapRequests_preset hp, getLane_noteFrame_self]
    exact ⟨trains_tstate h, rfl, rfl, rfl, rfl, rfl, rfl, outbox_answerFrame ..⟩
  case alignFrame =>
    refine ⟨_, run_of (takeFrame_align h hid hn hf hr), ?_⟩
    rw [getLane_answerFrame, getLane_modLane_self, getLane_noteFrame_self]
    exact ⟨trains_tstate h, congrArg (fun y => y.frames + 1) (trains_lane h)⟩
  case passes => exact run_of ((stepDone_check h).trans (if_pos ok))
  case fails => exact run_of ((stepDone_check h).trans (if_neg (by simp [bad])))

end Sys2Proof.Proofs
end

section
/-! SUPPORT. The routing family: management messages, Trellis tables and swaps, drains and Rake maps, and the statements that they
settle. -/

namespace Sys2Proof.Laws

open Sys2Proof.Machine

/-! ### Management messages (R347, R353, R354, R371) -/

section
variable (s : State) (l : Nat) (p : Packet)

@[simp] theorem e64_taken : e64 (taken s l p) = e64 s := by rw [e64, taken_glb, ← e64]

@[simp] theorem taken_rak : (taken s l p).rak = s.rak := by rw [taken_eq]

@[simp] theorem reachEntry_taken (d : Nat) : reachEntry (taken s l p) d = reachEntry s d := by rw [reachEntry, taken_trl, ← reachEntry]

/-- Which message an answer names does not hang on the buffer that the answer lay in. -/
@[simp] theorem matchMgmt_taken : matchMgmt (taken s l p) p = matchMgmt s p := by rw [matchMgmt, taken_xfer, ← matchMgmt]

end

section
variable {s : State} {l plot : Nat} {p : Packet}

/-- A message of its type that arrives takes effect and is answered: with an acknowledgement, or with the NAK of its reason. -/
theorem mgmtArrival_arrives {type : Nat} (hp : Arrives s l p 0x60 plot) (ht : msgType p = type) (k : State → Nat × State) :
    mgmtArrival l p type k (fresh s)
      = mgmtAnswer p (if (k (taken s l p)).1 = 0 then 0x61 else 0x62) (k (taken s l p)).1 (k (taken s l p)).2 := by
  have own : ¬ msgType p ≠ type := not_not_intro ht
  rw [mgmtArrival, if_neg own, arrival_arrives hp]

/-- A reach notice writes its plane's bit; when that bit falls, the requests sent through the plane to its endpoint go again (R347). -/
theorem takeReach_notice (hp : Arrives s l p 0x60 plot) (ht : p.ar 16 1 = 1) (he : e64 s = true) {x : State}
    (hx : x = { taken s l p with trl := { s.trl with
      reach := s.trl.reach.set (p.ar 18 2 % 512) (setBit (reachEntry s (p.ar 18 2 % 512)) (p.ar 17 1 % 32) (p.ar 20 1 == 1)) } }) :
    takeReach l p (fresh s) = mgmtAnswer p 0x61 0 (moveRows
      (if p.ar 20 1 = 1 then x else resendThrough (uplink (p.ar 17 1 % 32)) (some (p.ar 18 2 % 512)) (resetPairs x))) := by
  have notice : ¬ (msgType p ≠ 1 ∧ msgType p ∈ mgmtTypes) := fun h => h.1 ht
  have known : ¬ (msgType p ≠ 1 ∨ (!e64 (taken s l p)) = true) := by simp [msgType, ht, he]
  subst hx
  rw [takeReach, if_neg notice, mgmtArrival_arrives hp rfl]
  simp only [known, if_false, if_true, taken_trl, reachEntry_taken, beq_iff_eq]

/-- A reach notice that reaches a plane, and a message of a type that the manual does not give, are answered with reason 2 (R354). -/
theorem takeReach_unknown (hp : Arrives s l p 0x60 plot) (h : p.ar 16 1 = 1 ∧ e64 s = false ∨ p.ar 16 1 ∉ mgmtTypes) :
    takeReach l p (fresh s) = mgmtAnswer p 0x62 2 (taken s l p) := by
  have mine : ¬ (msgType p ≠ 1 ∧ msgType p ∈ mgmtTypes) := fun ⟨h1, h2⟩ => h.elim (fun e => h1 e.1) (fun n => n h2)
  have refused : msgType p ≠ 1 ∨ (!e64 (taken s l p)) = true := by
    rcases h with ⟨-, he⟩ | hn
    · exact .inr (by simp [he])
    · exact .inl (fun (e : p.ar 16 1 = 1) => hn (by rw [e]; decide))
  rw [takeReach, if_neg mine, mgmtArrival_arrives hp rfl]
  simp only [refused, if_true]
  rfl

theorem takePeer_notice (hp : Arrives s l p 0x60 plot) (ht : p.ar 16 1 = 2) (he : e64 s = true) :
    takePeer l p (fresh s) = mgmtAnswer p 0x61 0 { taken s l p with
      trl := { s.trl with peer := s.trl.peer.set (p.ar 18 2 % 8) (BitVec.ofNat 32 (p.ar 20 4)) } } := by
  rw [takePeer, mgmtArrival_arrives hp ht]
  simp only [e64_taken, he, if_true, taken_trl]

/-- A Rake map request draws the oldest maps that it wants, and frees them when it says so (R371; log 79). -/
theorem takeRakeRequest_drawn (hp : Arrives s l p 0x60 plot) (ht : p.ar 16 1 = 3) {n : Nat} {x : State}
    (hn : n = min s.rak.held (p.ar 17 1)) (hx : x = { taken s l p with
      outbox := (taken s l p).outbox ++ [.rakeMaps p.src ((List.range n).map (fun i => mapAt s.rak (s.rak.oldest + i)))] }) :
    takeRakeRequest l p (fresh s) = mgmtAnswer p 0x61 0 (if (p.ar 18 1).testBit 0 then rakPops n x else x) := by
  subst hn hx
  rw [takeRakeRequest, mgmtArrival_arrives hp ht]
  simp only [if_true, taken_rak, emit]

theorem mgmtAcked_named {id : Nat} (hp : Arrives s l p 0x61 plot) (hm : matchMgmt s p = some id) :
    mgmtAcked l p (fresh s) = dropRq id (taken s l p) := by
  rw [mgmtAcked, arrival_arrives hp]
  simp only [matchMgmt_taken, hm]

theorem mgmtAcked_unnamed (hp : Arrives s l p 0x61 plot) (hm : matchMgmt s p = none) :
    mgmtAcked l p (fresh s) = taken s l p := by
  rw [mgmtAcked, arrival_arrives hp]
  simp only [matchMgmt_taken, hm]

theorem mgmtNaked_named {id : Nat} (hp : Arrives s l p 0x62 plot) (hm : matchMgmt s p = some id) :
    mgmtNaked l p (fresh s) = if p.ar 16 2 = 2 then raise 0x650 (dropRq id (taken s l p))
      else modRq id (fun r => { r with busy := true, at1 := s.clk }) (taken s l p) := by
  rw [mgmtNaked, arrival_arrives hp]
  simp only [matchMgmt_taken, hm, taken_clk]

theorem mgmtNaked_unnamed (hp : Arrives s l p 0x62 plot) (hm : matchMgmt s p = none) :
    mgmtNaked l p (fresh s) = taken s l p := by
  rw [mgmtNaked, arrival_arrives hp]
  simp only [matchMgmt_taken, hm]

theorem dropRq_taken (id : Nat) : dropRq id (taken s l p)
    = { taken s l p with xfer := { s.xfer with rqs := s.xfer.rqs.filter (fun e => e.1 != id) } } := by rw [dropRq, taken_xfer]

theorem modRq_taken (id : Nat) (g : Rq → Rq) : modRq id g (taken s l p)
    = { taken s l p with xfer := { s.xfer with rqs := s.xfer.rqs.map (fun e => if e.1 = id then (e.1, g e.2) else e) } } := by
  rw [modRq, taken_xfer]

/-- A message whose time has passed goes back to be sent (R354). -/
theorem mgmtResend_due {id : Nat} {r : Rq} (hr : s.xfer.rqs.lookup id = some r) (hw : r.who = .mgmt) (hs : r.sent = true)
    (hd : r.at1 + (if r.busy then 10000 else 100000) ≤ s.clk) :
    mgmtResend id s = modRq id (fun x => { x with sent := false, busy := false }) s := by
  have due : (r.who == .mgmt && r.sent && passed s r.at1 (if r.busy then 10000 else 100000)) = true := by
    rw [hw, hs, passed, decide_eq_true hd]
    rfl
  rw [mgmtResend, getRq, hr]
  exact if_pos due

end

/-! ### Writes of a Trellis or Rake register (R373, R516) -/

section
variable {s v : State} {sv addr k : Nat} {f : State → State} {w : Word}

/-- A command that writes a register leaves the register's effect, and an answer of status 0. -/
theorem act_cpWrite (hw : Writable s sv addr) (h : f (fresh s) = v) :
    act (cpWrite sv addr f) s = .next (ended s (cpAnswer sv 0 0 v)) :=
  act_of ((cpWrite_writable hw f).trans (congrArg (cpAnswer sv 0 0) h))

theorem act_swapCtlRow (hw : Writable s sv 0x49000C) (hk : bitAt w k = true) (h : swapCtl w (fresh s) = v) :
    act (swapCtlRow k sv w) s = .next (ended s (cpAnswer sv 0 0 v)) :=
  act_of ((if_pos hk).trans ((cpWrite_writable hw _).trans (congrArg (cpAnswer sv 0 0) h)))

theorem exec_tableWrite {a : BitVec 24} (hw : Writable s sv a.toNat) (hlo : 0x480000 ≤ a.toNat) (hhi : a.toNat ≤ 0x48FFFF)
    (h : trellisWrite a.toNat w (fresh s) = v) : exec (.trellisTableWrite sv a w) s = .next (ended s (cpAnswer sv 0 0 v)) :=
  act_of ((if_pos ⟨hlo, hhi⟩).trans ((cpWrite_writable hw _).trans (congrArg (cpAnswer sv 0 0) h)))

end

/-! ### Words of a Trellis bank (R362, R363, R373) -/

/-- The bits of a field. -/
theorem testBit_fld {n : Nat} (w : BitVec n) (lo len i : Nat) : (fld w lo len).testBit i = (decide (i < len) && w.getLsbD (lo + i)) := by
  rw [fld, Nat.testBit_mod_two_pow, Nat.testBit_shiftRight, BitVec.testBit_toNat]

/-- A field reads back what was written into it. -/
theorem fld_setFld {n lo len : Nat} (w : BitVec n) (v : Nat) (h : lo + len ≤ n) : fld (setFld w lo len v) lo len = v % 2 ^ len := by
  have cleared : fld (w &&& ~~~BitVec.ofNat n ((2 ^ len - 1) <<< lo)) lo len = 0 := by
    refine Nat.eq_of_testBit_eq fun i => ?_
    rw [testBit_fld, Nat.zero_testBit]
    by_cases hi : i < len
    · simp [BitVec.getLsbD_ofNat, Nat.testBit_shiftLeft, Nat.testBit_two_pow_sub_one, hi]
    · simp [hi]
  rw [setFld, fld_or, cleared, Nat.zero_or, fld, BitVec.toNat_ofNat, area_here _ _ _ _ h]

/-- A word of a wider entry reads back what was written into it. -/
theorem word_setFld {n lo : Nat} (e : BitVec n) (w : Word) (h : lo + 32 ≤ n) :
    BitVec.ofNat 32 (fld (setFld e lo 32 w.toNat) lo 32) = w := by
  rw [fld_setFld e _ h, Nat.mod_eq_of_lt w.isLt, BitVec.ofNat_toNat, BitVec.setWidth_eq]

section
variable {s : State} {b : Bank} {off : Nat} (w : Word)

/-- A word of a table at an aligned offset reads back as it was written; a route entry of an S512 holds one bit (R362, R363). -/
theorem bankWord_bankWrite (h : (bankWord s b off).isSome = true) (ha : off % 4 = 0) :
    bankWord s (bankWrite s b off w) off = some (if off < 0x800 ∧ e64 s = false then w &&& 1 else w) := by
  by_cases route : off < 0x800
  · cases he : e64 s <;> simp [bankWord, bankWrite, route, he]
  · by_cases mcast : off < 0xC00
    · have inside : 8 * (off % 64) + 32 ≤ 512 := by omega
      simp only [bankWord, bankWrite, if_pos mcast, getD_set_self, word_setFld _ _ inside, route, false_and, if_false]
    · by_cases perm : 0x1000 ≤ off ∧ off < 0x1000 + 32 * linkCount s
      · have inside : 8 * (off % 32) + 32 ≤ 256 := by omega
        simp only [bankWord, bankWrite, if_neg mcast, if_pos perm, getD_set_self, word_setFld _ _ inside, route, false_and, if_false]
      · simp only [bankWord, if_neg route, if_neg mcast, if_neg perm, Option.isSome_none, Bool.false_eq_true] at h

end

/-- What keeps a write of a Trellis table from its bank (R363, R378). -/
def tableRefuses (s : State) (isB : Bool) (bank : Bank) (off : Nat) (w : Word) : Bool :=
  isB == s.trl.live || s.trl.armed.isSome || s.trl.guardEnd.isSome || (bankWord s bank off).isNone
    || (e64 s && decide (0x10E0 ≤ off ∧ off < 0x1100) && w != 0)

section
variable {s : State} {a : Nat} {w : Word} {off : Nat} {isB : Bool} {bank : Bank}

theorem tableRefuses_iff : tableRefuses s isB bank off w = true
    ↔ isB = s.trl.live ∨ s.trl.armed.isSome = true ∨ s.trl.guardEnd.isSome = true ∨ bankWord s bank off = none
      ∨ (e64 s = true ∧ 0x10E0 ≤ off ∧ off < 0x1100 ∧ w ≠ 0) := by
  simp [tableRefuses, or_assoc, and_assoc]

/-- The standby bank, with no swap armed and no guard running, takes a word of its tables, but none for port engine 7 (R363, R378). -/
theorem tableRefuses_standby (hl : isB ≠ s.trl.live) (ha : s.trl.armed = none) (hg : s.trl.guardEnd = none)
    (hs : (bankWord s bank off).isSome = true) (h7 : e64 s = true → 0x10E0 ≤ off → off < 0x1100 → w = 0) :
    ¬ tableRefuses s isB bank off w = true := by
  rw [tableRefuses_iff, ha, hg]
  rintro (h | h | h | h | ⟨he, h1, h2, hw⟩)
  · exact hl h
  · exact Bool.false_ne_true h
  · exact Bool.false_ne_true h
  · exact Option.isSome_iff_ne_none.mp hs h
  · exact hw (h7 he h1 h2)

theorem trellisWrite_eq (ho : off = a % 0x8000) (hb : isB = decide (0x488000 ≤ a))
    (hk : bank = (if isB then s.trl.bankB else s.trl.bankA)) :
    trellisWrite a w s = if tableRefuses s isB bank off w = true then raise 0x630 s
      else { s with trl := if isB then { s.trl with bankB := bankWrite s bank off w }
        else { s.trl with bankA := bankWrite s bank off w } } := by
  rw [trellisWrite, ← ho, ← hb, ← hk, tableRefuses]
  cases isB <;> rfl

end

/-! ### TRL_ARB and TRL_SWAP_CTL (R364, R366, R367, R378) -/

section
variable {s : State} {w : Word}

theorem arbWrite_weights (h : ∀ v < 7, fld w (4 * v) 4 ≠ 0) : arbWrite w s = { s with trl := { s.trl with arb := w &&& 0x0FFFFFFF } } := by
  have none_zero : ¬ (List.range 7).any (fun v => fld w (4 * v) 4 == 0) = true := by simpa using h
  exact if_neg none_zero

theorem arbWrite_zero (h : ∃ v < 7, fld w (4 * v) 4 = 0) : arbWrite w s = raise 0x630 s := by
  have some_zero : (List.range 7).any (fun v => fld w (4 * v) 4 == 0) = true := by simpa using h
  exact if_pos some_zero

theorem armOk_iff {domain : Nat} : armOk s domain = true
    ↔ domain ≤ 128 ∧ s.sun.time + 100000 ≤ swapAt s ∧ s.trl.armed = none ∧ s.trl.guardEnd = none := by
  simp [armOk, and_assoc]

theorem armOk_fails {domain : Nat} (h : 128 < domain ∨ swapAt s < s.sun.time + 100000 ∨ s.trl.armed.isSome = true
    ∨ s.trl.guardEnd.isSome = true) : ¬ armOk s domain = true := by
  rw [armOk_iff]
  rintro ⟨hd, ht, ha, hg⟩
  simp only [ha, hg, Option.isSome_none, Bool.false_eq_true, or_false] at h
  omega

/-- A write of TRL_SWAP_CTL with arm alone (R364). -/
theorem swapCtl_arm (h10 : bitAt w 10 = true) (h11 : bitAt w 11 = false) (h12 : bitAt w 12 = false) :
    swapCtl w s = if armOk s (fld w 0 10) = true
      then { s with trl := { s.trl with domain := fld w 0 10, armed := some (swapAt s) } } else raise 0x631 s := by
  cases h : armOk s (fld w 0 10) <;> simp [swapCtl, h10, h11, h12, h, modTrl]

/-- An armed swap whose time is still to come stays armed. -/
theorem swapAtTime_early (h : ∀ t, s.trl.armed = some t → s.sun.time < t) : swapAtTime s = s := by
  rw [swapAtTime]
  cases ha : s.trl.armed with
  | none => rfl
  | some t => exact if_neg (Nat.not_le.mpr (h t ha))

/-- A write of TRL_SWAP_CTL with disarm alone, before the time of the swap (R367). -/
theorem swapCtl_disarm (h10 : bitAt w 10 = false) (h11 : bitAt w 11 = false) (h12 : bitAt w 12 = true)
    (h : ∀ t, s.trl.armed = some t → s.sun.time < t) :
    swapCtl w s = { s with trl := { s.trl with domain := fld w 0 10, armed := none } } := by
  simp [swapCtl, h10, h11, h12, swapAtTime_early h, modTrl]

/-- A write of TRL_SWAP_CTL with now alone (R366). -/
theorem swapCtl_now (h10 : bitAt w 10 = false) (h11 : bitAt w 11 = true) (h12 : bitAt w 12 = false) :
    swapCtl w s = if s.trl.drainDone = true
      then moveRows { s with trl := { s.trl with domain := fld w 0 10, live := !s.trl.live } } else raise 0x631 s := by
  cases h : s.trl.drainDone <;> simp [swapCtl, h10, h11, h12, h, modTrl]

/-! ### The time of a swap, its guard, hint levels and cap windows (R356, R358, R364) -/

theorem swapAtTime_due {t : Nat} (ha : s.trl.armed = some t) (ht : t ≤ s.sun.time) : swapAtTime s
    = moveRows { s with trl := { s.trl with live := !s.trl.live, armed := none, guardEnd := some (s.clk + 10000) } } := by
  rw [swapAtTime, ha]
  exact if_pos ht

theorem endGuard_due {t : Nat} (hg : s.trl.guardEnd = some t) (ht : t ≤ s.clk) :
    endGuard s = { s with trl := { s.trl with guardEnd := none } } := by
  rw [endGuard, hg]
  exact if_pos ht

theorem decayHint_due {d p n t : Nat} (hx : s.trl.level.at (pairKey d p) = (n + 1, t)) (ht : t + 1000 ≤ s.clk) :
    decayHint d p s = { s with trl := { s.trl with level := s.trl.level.set (pairKey d p) (n, s.clk) } } := by
  have due : 0 < n + 1 ∧ passed s t 1000 = true := ⟨n.succ_pos, decide_eq_true ht⟩
  simp only [decayHint, hx]
  exact if_pos due

@[simp] theorem getLink_modLink_self (l : Nat) (g : Link → Link) (s : State) : getLink (modLink l g s) l = g (getLink s l) := by
  simp [getLink, modLink]

@[simp] theorem getLink_modLink_other {l m : Nat} (g : Link → Link) (s : State) (h : m ≠ l) : getLink (modLink l g s) m = getLink s m := by
  simp [getLink, modLink, h]

theorem endCapWindow_due {l : Nat} (hu : (getLink s l).up = true)
    (ht : (getLink s l).windowSince + 1024 * 12955 / 10000 / (activeLanes s l).length ≤ s.clk) :
    endCapWindow l s = modLink l (fun k => { k with collSlots := 0, windowSince := s.clk }) s :=
  if_pos ⟨hu, decide_eq_true ht⟩

end

/-! ### Drains (R366, R367) -/

section
variable {s : State} {w : Word}

theorem trlCtl_begins (hw : bitAt w 1 = true) (hd : s.trl.drain = false) :
    trlCtl w s = { s with trl := { s.trl with drain := true, drainDone := false, drainSince := s.clk, noted632 := false } } := by
  have begins : (bitAt w 1 && !s.trl.drain) = true := by simp [hw, hd]
  exact if_pos begins

theorem trlCtl_ends (hw : bitAt w 1 = false) (hd : s.trl.drain = true) :
    trlCtl w s = payAll { s with trl := { s.trl with drain := false, drainDone := false } } := by
  have stays : ¬ (bitAt w 1 && !s.trl.drain) = true := by simp [hw]
  have ends : (!bitAt w 1 && s.trl.drain) = true := by simp [hw, hd]
  exact (if_neg stays).trans (if_pos ends)

/-- What a drain waits for (R366, R367; log 118). -/
theorem drained_iff : drained s = true ↔ s.trl.guardEnd = none ∧ s.coll.slots = [] ∧ s.coll.dslots = []
    ∧ ∀ e ∈ s.xfer.rqs, e.2.sent = false ∧ mayStart s e.2 = false := by
  simp [drained, and_assoc]

theorem endDrain_done (hd : s.trl.drain = true) (ho : s.trl.drainDone = false) (hn : s.trl.noted632 = false) (h : drained s = true) :
    endDrain s = { s with trl := { s.trl with drainDone := true } } := by
  have done : (s.trl.drain && !s.trl.drainDone && !s.trl.noted632 && drained s) = true := by simp [hd, ho, hn, h]
  exact if_pos done

theorem drainLate_notes (hd : s.trl.drain = true) (ho : s.trl.drainDone = false) (hn : s.trl.noted632 = false)
    (ht : s.trl.drainSince + s.trl.drainLimit * 1000 ≤ s.clk) :
    drainLate s = raise 0x632 { s with trl := { s.trl with noted632 := true } } := by
  have late : (s.trl.drain && !s.trl.drainDone && !s.trl.noted632 && passed s s.trl.drainSince (s.trl.drainLimit * 1000)) = true := by
    simp [hd, ho, hn, passed, ht]
  exact if_pos late

/-! ### Rake (R370, R371) -/

/-- A table that gives each number of a list by a function holds the function's value there. -/
theorem getD_tabulate {α : Type} (f : Nat → α) (d : α) {k : Nat} {ks : List Nat} (h : k ∈ ks) :
    Tbl.getD (ks.map (fun i => (i, f i))) k d = f k := by
  induction ks with
  | nil => exact absurd h List.not_mem_nil
  | cons j r ih =>
    simp only [List.map_cons, Tbl.getD]
    split
    · rename_i e
      rw [e]
    · rename_i hj
      exact ih (List.mem_of_ne_of_mem (Ne.symm hj) h)

/-- Rake after a sample of every link (R370). -/
def sampledRak (s : State) : Rak :=
  { s.rak with
    lastSample := s.clk, samples := s.rak.samples + 1, winStart := if s.rak.samples = 0 then s.sun.time else s.rak.winStart,
    sums := (List.range (linkCount s)).map (fun l => (l, ((Tbl.getD s.rak.sums l (0, 0)).1 + inUse s l,
      max (Tbl.getD s.rak.sums l (0, 0)).2 (inUse s l)))) }

theorem rakSample_due (he : s.rak.enable = true) (ht : s.rak.lastSample + 1000 ≤ s.clk) :
    rakSample s = { s with rak := sampledRak s } := by
  have due : (s.rak.enable && passed s s.rak.lastSample 1000) = true := by simp [he, passed, ht]
  exact if_pos due

/-- The map of the window that closes (R370). -/
def windowMap (s : State) : RakMap :=
  { start := s.rak.winStart, window := 2 ^ s.rak.log2, seq := s.rak.seq % 65536,
    links := (List.range (linkCount s)).map (fun l =>
      (in256 (Tbl.getD s.rak.sums l (0, 0)).1 (advertised s l * s.rak.samples), in256 (Tbl.getD s.rak.sums l (0, 0)).2 (advertised s l))) }

/-- Rake after the close of its window: the window's map takes the next free slot, and a new window begins (R370, R371). -/
def closedRak (s : State) : Rak :=
  { mergeOldest s.rak with
    slots := (mergeOldest s.rak).slots.set (((mergeOldest s.rak).oldest + (mergeOldest s.rak).held) % 16) (windowMap s)
    held := (mergeOldest s.rak).held + 1, seq := (s.rak.seq + 1) % 65536, samples := 0, sums := [] }

@[simp] theorem mergeOldest_seq (r : Rak) : (mergeOldest r).seq = r.seq := by
  unfold mergeOldest
  split <;> rfl

theorem rakClose_due (he : s.rak.enable = true) (hn : 2 ^ s.rak.log2 ≤ s.rak.samples) :
    rakClose s = { s with rak := closedRak s } := by
  rw [rakClose, if_pos ⟨he, hn⟩, closedRak, ← mergeOldest_seq s.rak]
  rfl

theorem mergeOldest_room {r : Rak} (h : r.held < 16) : mergeOldest r = r := if_pos h

/-- Of sixteen maps the two oldest become one, which spans the windows of both from the older start on (R371). -/
theorem mergeOldest_full {r : Rak} (h : 16 ≤ r.held) :
    (mergeOldest r).held = 15 ∧ (mergeOldest r).decim = r.decim + 1 ∧ (mergeOldest r).merged = true
      ∧ (mergeOldest r).oldest = (r.oldest + 1) % 16
      ∧ mapAt (mergeOldest r) (mergeOldest r).oldest = mergeMaps (mapAt r r.oldest) (mapAt r (r.oldest + 1)) := by
  rw [mergeOldest, if_neg (Nat.not_lt.mpr h)]
  simp [mapAt]

theorem rakPopOne_frees (h : 0 < s.rak.held) : rakPopOne s = { s with
    rak := { s.rak with slots := s.rak.slots.del s.rak.oldest, oldest := (s.rak.oldest + 1) % 16, held := s.rak.held - 1 } } := by
  have held : ¬ s.rak.held = 0 := by omega
  rw [rakPopOne, modRak, if_neg held]

end

end Sys2Proof.Laws

namespace Sys2Proof.Proofs

open Sys2Proof.Machine Sys2Proof.Laws

/-- Settles O43: each message by its type, each answer by the message that it names. -/
theorem managementMessagesAreAnswered : Obligations.ManagementMessagesAreAnswered := by
  unfold Obligations.ManagementMessagesAreAnswered
  rintro s u v l plot p rfl rfl
  refine ⟨fun hp => ⟨fun ht he x hx => ?reach, fun h => ?unknown, fun ht he => ?peer, fun ht n x hn hx => ?maps⟩,
    fun hp => ⟨fun id hm => ?acked, fun hm => ?ackUnnamed⟩,
    fun hp => ⟨fun id hm => ⟨fun h2 => ?dropped, fun h2 => ?rests⟩, fun hm => ?nakUnnamed⟩,
    fun id r hr hw hs hd => ?resend⟩
  case reach => exact run_of (takeReach_notice hp ht he hx)
  case unknown => exact run_of (takeReach_unknown hp h)
  case peer => exact run_of (takePeer_notice hp ht he)
  case maps => exact run_of (takeRakeRequest_drawn hp ht hn hx)
  case acked => exact run_of ((mgmtAcked_named hp hm).trans (dropRq_taken id))
  case ackUnnamed => exact run_of (mgmtAcked_unnamed hp hm)
  case dropped => exact run_of (((mgmtNaked_named hp hm).trans (if_pos h2)).trans (congrArg (raise 0x650) (dropRq_taken id)))
  case rests => exact run_of (((mgmtNaked_named hp hm).trans (if_neg h2)).trans (modRq_taken id _))
  case nakUnnamed => exact run_of (mgmtNaked_unnamed hp hm)
  case resend => exact act_of (mgmtResend_due (s := fresh s) hr hw hs hd)

/-- Settles O44: each clause is the lemma of the table's, the swap's or the link's own rule. -/
theorem trellisFollowsItsRules : Obligations.TrellisFollowsItsRules := by
  unfold Obligations.TrellisFollowsItsRules
  rintro s u sv w rfl
  refine ⟨fun d p n t hx ht => ?hint, fun l hu ht => ?capWindow,
    fun a off isB bank hw hlo hhi ho hb hk => ⟨fun hl ha hg hs h7 => ⟨?written, ?readsBack⟩, fun h => ?tableRefused⟩,
    fun hw => ⟨fun h => ?weights, fun h => ?zeroWeight⟩,
    fun at0 h0 hw => ⟨fun h10 h11 h12 => ⟨fun h => ?armed, fun h => ?armRefused⟩, fun h10 h11 h12 h => ?disarmed,
      fun h10 h11 h12 => ⟨fun h => ?now, fun h => ?nowRefused⟩⟩,
    fun t ha ht => ?swap, fun t hg ht => ?guard⟩
  case hint => exact act_of (decayHint_due (s := fresh s) hx ht)
  case capWindow =>
    exact ⟨_, act_of (endCapWindow_due (s := fresh s) hu ht), getLink_modLink_self .., fun m hm => getLink_modLink_other _ _ hm, rfl, rfl⟩
  case written => exact exec_tableWrite hw hlo hhi ((trellisWrite_eq (s := fresh s) ho hb hk).trans
    (if_neg (tableRefuses_standby hl ha hg hs h7)))
  case readsBack =>
    obtain ⟨-, aligned, -⟩ := hw
    exact bankWord_bankWrite w hs (by omega)
  case tableRefused => exact exec_tableWrite hw hlo hhi ((trellisWrite_eq (s := fresh s) ho hb hk).trans
    (if_pos (tableRefuses_iff.mpr h)))
  case weights => exact act_cpWrite hw (arbWrite_weights h)
  case zeroWeight => exact act_cpWrite hw (arbWrite_zero h)
  case armed =>
    subst h0
    exact act_swapCtlRow hw h10 ((swapCtl_arm h10 h11 h12).trans (if_pos (armOk_iff.mpr h)))
  case armRefused =>
    subst h0
    exact act_swapCtlRow hw h10 ((swapCtl_arm h10 h11 h12).trans (if_neg (armOk_fails h)))
  case disarmed => exact act_swapCtlRow hw h12 (swapCtl_disarm (s := fresh s) h10 h11 h12 h)
  case now => exact act_swapCtlRow hw h11 ((swapCtl_now (s := fresh s) h10 h11 h12).trans (if_pos h))
  case nowRefused => exact act_swapCtlRow hw h11 ((swapCtl_now (s := fresh s) h10 h11 h12).trans (if_neg (Bool.eq_false_iff.mp h)))
  case swap => exact act_of (swapAtTime_due (s := fresh s) ha ht)
  case guard => exact act_of (endGuard_due (s := fresh s) hg ht)

/-- Settles O45: each clause is the lemma of the drain's or of Rake's own rule. -/
theorem drainsAndRakeMaps : Obligations.DrainsAndRakeMaps := by
  unfold Obligations.DrainsAndRakeMaps
  rintro s u sv w rfl
  refine ⟨fun hw => ⟨fun h1 hd => ?begins, fun h1 hd => ?ends⟩, fun hd ho hn => ⟨fun hg hs hds hq => ?done, fun ht => ?late⟩,
    fun he ht => ⟨sampledRak (fresh s), ?sampled, ?sample⟩, ?closed, fun hw h0 hh => ?popped⟩
  case begins => exact act_cpWrite hw (trlCtl_begins (s := fresh s) h1 hd)
  case ends => exact act_cpWrite hw (trlCtl_ends (s := fresh s) h1 hd)
  case done => exact act_of (endDrain_done (s := fresh s) hd ho hn (drained_iff.mpr ⟨hg, hs, hds, hq⟩))
  case late => exact act_of (drainLate_notes (s := fresh s) hd ho hn ht)
  case sampled => exact act_of (rakSample_due (s := fresh s) he ht)
  case sample =>
    exact ⟨rfl, rfl, fun h0 => if_pos h0, fun l hl => getD_tabulate _ _ (List.mem_range.mpr hl), rfl⟩
  case closed =>
    rintro he hn r rfl
    refine ⟨_, _, act_of (rakClose_due (s := fresh s) he hn), rfl, rfl, rfl, rfl, rfl, mergeOldest_room, fun hf => ?_⟩
    obtain ⟨held, decim, merged, oldest, first⟩ := mergeOldest_full hf
    exact ⟨held, decim, merged, oldest, (congrArg RakMap.start first :), (congrArg RakMap.window first :)⟩
  case popped => exact act_cpWrite hw ((if_pos h0).trans (rakPopOne_frees (s := fresh s) hh))

end Sys2Proof.Proofs
end

section
/-! SUPPORT. The plot and supervisor family: how plots open, drain and end, who owns the block, relayed messages, Marl records, crash dumps
and the firmware log, and the statements that they settle. -/

namespace Sys2Proof.Laws

open Sys2Proof.Machine

/-! ### Plots (R381, R382, R386, R389, R390, R409, R424) -/

section
variable {s v : State} {sv p : Nat} {w : Word}

/-- A write of a plot's control register whose acting bit is the event's own leaves the register's effect, and an answer of status 0. -/
theorem run_plotCtlAt {acts : Bool} (hp : p < 256) (hw : Writable s sv (0x400000 + 0x20 * p + 4)) (ha : acts = true)
    (h : plotCtlW p w (fresh s) = v) : run (plotCtlAt sv p w acts) s = .next (after s (cpAnswer sv 0 0 v)) :=
  run_of ((if_pos ⟨hp, ha⟩).trans ((cpWrite_writable hw _).trans (congrArg (cpAnswer sv 0 0) h)))

/-- What lets a plot open: it is free, it has a key, and no other plot in use holds its key or a tally of its range (R381). -/
theorem openFault_zero (hs : (getPlot s p).state = .free) (h0 : (getPlot s p).key ≠ 0)
    (hk : ∀ o ∈ otherPlots s p, o.key ≠ (getPlot s p).key) (hq : (getPlot s p).tallyBase + (getPlot s p).tallyQuota ≤ 65536)
    (hr : ∀ o ∈ otherPlots s p, rangesMeet (getPlot s p).tallyBase (getPlot s p).tallyQuota o.tallyBase o.tallyQuota = false) :
    openFault s p = 0 := by
  have free : ((getPlot s p).state != .free) = false := by simp [hs]
  have key : ((getPlot s p).key == 0 || (otherPlots s p).any (fun o => o.key == (getPlot s p).key)) = false := by simpa [h0] using hk
  have range : (decide (65536 < (getPlot s p).tallyBase + (getPlot s p).tallyQuota)
      || (otherPlots s p).any (fun o => rangesMeet (getPlot s p).tallyBase (getPlot s p).tallyQuota o.tallyBase o.tallyQuota)) = false := by
    simpa [hq] using hr
  simp only [openFault, firstFail, free, key, range, Bool.false_eq_true, if_false]

/-- The state of a plot is the first of its checks (R381). -/
theorem openFault_inUse (hs : (getPlot s p).state ≠ .free) : openFault s p = 0x663 := by
  have used : ((getPlot s p).state != .free) = true := bne_iff_ne.mpr hs
  simp only [openFault, firstFail, used, if_true]

theorem plotCtlW_open (h0 : bitAt w 0 = true) (h1 : bitAt w 1 = false) (h2 : bitAt w 2 = false) : plotCtlW p w s = openPlot p s := by
  simp [plotCtlW, h0, h1, h2]

/-- A teardown, or a plot reset, starts the drain of its kind (R386, R390, R409). -/
theorem exec_drainPlot {b : Bool} {c : Instr} (hp : p < 256) (hw : Writable s sv (0x400000 + 0x20 * p + 4))
    (hc : (c = .teardown sv p w ∧ b = false ∧ bitAt w 1 = true)
      ∨ (c = .plotReset sv p w ∧ b = true ∧ bitAt w 1 = false ∧ bitAt w 2 = true))
    (h : drainPlot p b (fresh s) = v) : exec c s = .next (after s (cpAnswer sv 0 0 v)) := by
  obtain ⟨rfl, rfl, h1⟩ | ⟨rfl, rfl, h1, h2⟩ := hc
  · exact run_plotCtlAt hp hw h1 ((if_pos h1).trans h)
  · have acts : (bitAt w 2 && !bitAt w 1) = true := by simp [h1, h2]
    exact run_plotCtlAt hp hw acts ((if_neg (Bool.eq_false_iff.mp h1)).trans ((if_pos h2).trans h))

theorem drainPlot_refused {b : Bool} (h : p = 0 ∨ (getPlot s p).state ≠ .active) :
    drainPlot p b s = note 0x663 (some p) .block 0 s := if_pos h

/-- An active plot drains under its next generation: its furrows are reset, its beds close, and on E64 its cached lines go (R386). -/
theorem drainPlot_active {b : Bool} {y z z2 : State} (hp : p ≠ 0) (ha : (getPlot s p).state = .active)
    (hy : y = modPlot p (fun x => { x with state := .draining, gen := (x.gen + 1) % 16, acct := 0, since := s.clk,
                                           byReset := b, bound := false, hung := false }) s)
    (hz : z = (plotFurrows y p).foldl (fun s f => if (getFur s f).resetting.isSome then s else furReset f s) y)
    (hz2 : z2 = ((openBeds z).filter (fun c => (getBed z c).plot == p)).foldl (fun s c => closeBed c s) z) :
    drainPlot p b s = if e64 z2 then invPlotLines p z2 else z2 := by
  have starts : ¬ (p = 0 ∨ (getPlot s p).state ≠ .active) := by simp [hp, ha]
  subst hz2 hz hy
  exact if_neg starts

/-- At the drain bound what is still reserved is freed, and accesses still out are an L2 fault of the plot (R389, R424). -/
theorem drainBound_due {y z : State} (hs : (getPlot s p).state = .draining) (hb : (getPlot s p).bound = false)
    (ht : (getPlot s p).since + (getPlot s p).drain * 1000 ≤ s.clk) (hy : y = modPlot p (fun x => { x with bound := true }) s)
    (hz : z = if plotReserved y p = [] then y else freeReserved p (note 0x660 (some p) .block 0 y)) :
    drainBound p s = if 0 < plotAccesses z p then raiseEv { code := 0x661, level := .l2, plot := some p } z else z := by
  have due : ¬ (!((getPlot s p).state == .draining) || (getPlot s p).bound
      || !passed s (getPlot s p).since ((getPlot s p).drain * 1000)) = true := by simp [hs, hb, passed, ht]
  subst hz hy
  simp only [drainBound, if_neg due, List.isEmpty_iff]

theorem drainComplete_idle (hs : (getPlot s p).state = .draining) (hb : (getPlot s p).bound = true) (ha : plotAccesses s p = 0) :
    drainComplete p s = clearCauses (fun e => e.level == .l2 && e.plot == some p)
      (modFlt (fun f => { f with plotFault := setBit f.plotFault p false })
        (modPlot p (fun x => { x with state := if x.byReset then .active else .free, byReset := false, bound := false, hung := false })
          (zeroTallies p (freeReserved p s)))) := by
  have idle : ((getPlot s p).state == .draining && (getPlot s p).bound && plotAccesses s p == 0) = true := by simp [hs, hb, ha]
  exact if_pos idle

/-- A key that a filter drops reads as the default. -/
theorem getD_filter_dropped {α : Type} {keep : Nat × α → Bool} {k : Nat} (d : α) (h : ∀ x, keep (k, x) = false) (t : Tbl α) :
    Tbl.getD (t.filter keep) k d = d := by
  induction t with
  | nil => rfl
  | cons e r ih =>
    obtain ⟨j, x⟩ := e
    cases hk : keep (j, x) with
    | false => simpa [hk] using ih
    | true =>
      have other : j ≠ k := by
        rintro rfl
        exact Bool.false_ne_true ((h x).symm.trans hk)
      simpa [hk, Tbl.getD, other] using ih

/-- Every tally of a plot's range reads zero after its zeroing (R386). -/
theorem zeroTallies_at {k : Nat} (hl : (getPlot s p).tallyBase ≤ k) (hh : k < (getPlot s p).tallyBase + (getPlot s p).tallyQuota) :
    (zeroTallies p s).tally.at k = 0 := getD_filter_dropped _ (fun _ => by simp [hl, hh]) s.tally

theorem drainHang_due (hs : (getPlot s p).state = .draining) (hb : (getPlot s p).bound = true) (hh : (getPlot s p).hung = false)
    (ha : 0 < plotAccesses s p) (ht : (getPlot s p).since + (getPlot s p).drain * 1000 + 100000000 ≤ s.clk) :
    drainHang p s
      = raiseEv { code := 0x662, level := .l3, plot := some p } (modPlot p (fun x => { x with hung := true }) s) := by
  have late := Nat.le_trans (Nat.le_of_eq (Nat.add_assoc ..).symm) ht
  have due : ((getPlot s p).state == .draining && (getPlot s p).bound && !(getPlot s p).hung && decide (0 < plotAccesses s p)
      && passed s (getPlot s p).since ((getPlot s p).drain * 1000 + 100000000)) = true := by simp [hs, hb, hh, ha, passed, late]
  exact if_pos due

end

/-! ### Ownership, heartbeats and the event queue (R394-R398, R401, R410) -/

section
variable {s v : State} {sv : Nat} {w : Word}

/-- A write of SUP_CLAIM whose acting bit is the event's own leaves the register's effect, and an answer of status 0. -/
theorem act_claimAt {acts : Bool} (hw : Writable s sv 0x010004) (ha : acts = true) (h : supClaimW sv w (fresh s) = v) :
    act (claimAt sv w acts) s = .next (ended s (cpAnswer sv 0 0 v)) :=
  act_of ((if_pos ha).trans ((cpWrite_writable hw _).trans (congrArg (cpAnswer sv 0 0) h)))

theorem supClaimW_release (h1 : bitAt w 1 = true) : supClaimW sv w s = supRelease sv s := if_pos h1

theorem supClaimW_accept (h1 : bitAt w 1 = false) (h2 : bitAt w 2 = true) : supClaimW sv w s = supAccept sv s := by
  simp [supClaimW, h1, h2]

theorem supClaimW_handover (h1 : bitAt w 1 = false) (h2 : bitAt w 2 = false) (h3 : bitAt w 3 = true) :
    supClaimW sv w s = supHandover sv (fld w 4 2) s := by simp [supClaimW, h1, h2, h3]

theorem supClaimW_claim (h0 : bitAt w 0 = true) (h1 : bitAt w 1 = false) (h2 : bitAt w 2 = false) (h3 : bitAt w 3 = false) :
    supClaimW sv w s = supClaim sv s := by simp [supClaimW, h0, h1, h2, h3]

theorem supClaim_vacant (h : s.sup.owner = none) : supClaim sv s = takeOwnership sv s := if_pos (Option.isNone_iff_eq_none.mpr h)

theorem supClaim_owned (h : s.sup.owner.isSome = true) : supClaim sv s = raise 0x670 s := by
  have owned : ¬ s.sup.owner.isNone = true := by simpa [Option.isSome_iff_ne_none] using h
  exact if_neg owned

theorem supHandover_begins {dst : Nat} (ho : s.sup.owner = some sv) (hd : dst ≠ sv) (ht : s.sup.target = none) :
    supHandover sv dst s = { s with sup := { s.sup with target := some dst, hoSince := s.clk } } := by
  simp [supHandover, ho, hd, ht, modSup]

theorem supHandover_refused {dst : Nat} (ho : s.sup.owner = some sv) (h : dst = sv ∨ s.sup.target.isSome = true) :
    supHandover sv dst s = raise 0x674 s := (if_neg (not_not_intro ho)).trans (if_pos h)

/-- Only the target of a handover, and only within its 100 ms, accepts it (R397). -/
theorem supAccept_denied (h : s.sup.target ≠ some sv ∨ s.sup.hoSince + 100000000 < s.clk) : supAccept sv s = denied sv s := by
  refine if_neg ?_
  rintro ⟨ht, hc⟩
  exact h.elim (fun n => n ht) (Nat.not_lt.mpr hc)

theorem handoverLate_due (ht : s.sup.target.isSome = true) (hc : s.sup.hoSince + 100000000 ≤ s.clk) : handoverLate s
    = raise 0x673 { s with sup := { s.sup with target := none, events := setBit s.sup.events 1 true } } := by
  have due : (s.sup.target.isSome && passed s s.sup.hoSince 100000000) = true := Bool.and_eq_true_iff.mpr ⟨ht, decide_eq_true hc⟩
  exact if_pos due

theorem heartbeatLate_due (ho : s.sup.owner.isSome = true) (hr : s.start.running = false)
    (hc : s.sup.hbSince + s.sup.hbRun * 1000000 ≤ s.clk) : heartbeatLate s
    = raise 0x672 { s with sup := { s.sup with owner := none, target := none, events := setBit s.sup.events 0 true } } := by
  have due : (s.sup.owner.isSome && !s.start.running && passed s s.sup.hbSince (s.sup.hbRun * 1000000)) = true := by
    simp [ho, hr, passed, hc]
  exact if_pos due

/-- A read of SUP_EVQ answers the head of the queue; the owner's takes it off. -/
theorem act_readEvq (hr : Readable s sv 0x010018) (h : (readEvq sv (fresh s)).2 = v) :
    act (cpRead sv 0x010018 (readEvq sv)) s = .next (ended s (cpAnswer sv 0 (s.sup.evq.headD 0) v)) :=
  act_of ((cpRead_readable hr _).trans (congrArg (cpAnswer sv 0 (s.sup.evq.headD 0)) h))

end

/-! ### Relayed messages (R407) -/

/-- An entry that is set is found. -/
@[simp] theorem find_set_self {α : Type} (t : Tbl α) (k : Nat) (v : α) : (t.set k v).find k = some v := by
  induction t with
  | nil => simp [Tbl.set, Tbl.find]
  | cons e r ih =>
    obtain ⟨j, x⟩ := e
    unfold Tbl.set
    by_cases h : j = k
    · simp [h, Tbl.find]
    · by_cases g : k < j
      · simp [h, g, Tbl.find]
      · simp [h, g, Tbl.find, ih]

section
variable (s : State) (l : Nat) (p : Packet)

@[simp] theorem taken_mgt : (taken s l p).mgt = s.mgt := by rw [taken_eq]

@[simp] theorem icqRuns_taken : icqRuns (taken s l p) = icqRuns s := by rw [taken_eq]; rfl

@[simp] theorem getMbx_taken (i : Nat) : getMbx (taken s l p) i = getMbx s i := by rw [taken_eq]; rfl

end

@[simp] theorem getMbx_modMbx_self (i : Nat) (g : Mbx → Mbx) (s : State) : getMbx (modMbx i g s) i = g (getMbx s i) := by
  simp [getMbx]

@[simp] theorem getMbx_modMbx_other {i j : Nat} (g : Mbx → Mbx) (s : State) (h : j ≠ i) : getMbx (modMbx i g s) j = getMbx s j := by
  simp [getMbx, h]

section
variable {s : State} {l plot : Nat} {p : Packet}

/-- A relayed request in one fragment is served whole, and acknowledged. -/
theorem takeRelayed_whole {n : Nat} (hp : Arrives s l p 0x60 plot) (ht : p.ar 16 1 = 0x10) (hf : p.ar 17 1 = 2)
    (hn : n = p.ar 18 2 % 1024) (hi : icqRuns s = true) (hm : (getMbx s (relayBox n)).reqGo = false) :
    takeRelayed l p (fresh s) = mgmtAnswer p 0x61 0 (serveRelayed n (bytesWords (fragOf p)) { taken s l p with
      mgt := { s.mgt with relayIn := ((s.mgt.relayIn.set (2 * n) (fragOf p, true)).del (2 * n)).del (2 * n + 1) } }) := by
  have takes : (!icqRuns s || (getMbx s (relayBox n)).reqGo) = false := by simp [hi, hm]
  have last : Nat.testBit 2 1 = true := by decide
  subst hn
  rw [takeRelayed, mgmtArrival_arrives hp ht]
  simp only [icqRuns_taken, getMbx_taken, takes, Bool.false_eq_true, if_false, hf, taken_mgt, last, Nat.mod_self, Nat.add_zero,
    find_set_self, if_true]

theorem takeRelayed_busy {n : Nat} (hp : Arrives s l p 0x60 plot) (ht : p.ar 16 1 = 0x10) (hn : n = p.ar 18 2 % 1024)
    (h : icqRuns s = false ∨ (getMbx s (relayBox n)).reqGo = true) :
    takeRelayed l p (fresh s) = mgmtAnswer p 0x62 1 (taken s l p) := by
  have busy : (!icqRuns s || (getMbx s (relayBox n)).reqGo) = true := by simpa using h
  subst hn
  rw [takeRelayed, mgmtArrival_arrives hp ht]
  simp only [icqRuns_taken, getMbx_taken, busy, if_true]
  rfl

/-- Steps over a list of which one alone changes the state leave what that one leaves. -/
theorem foldl_one {α σ : Type} {g : σ → α → σ} {a : α} {s t : σ} (h : g s a = t)
    (others : ∀ x, x = s ∨ x = t → ∀ b, b ≠ a → g x b = x) {as : List α} (ha : a ∈ as) (hn : as.Nodup) : as.foldl g s = t := by
  have rest : ∀ bs : List α, a ∉ bs → bs.foldl g t = t := by
    intro bs
    induction bs with
    | nil => exact fun _ => rfl
    | cons b r ih =>
      intro hb
      obtain ⟨h1, h2⟩ := not_or.mp (mt List.mem_cons.mpr hb)
      rw [List.foldl_cons, others t (.inr rfl) b (Ne.symm h1), ih h2]
  induction as with
  | nil => exact absurd ha List.not_mem_nil
  | cons b r ih =>
    obtain ⟨hb, hr⟩ := List.nodup_cons.mp hn
    by_cases e : b = a
    · subst e
      rw [List.foldl_cons, h, rest r hb]
    · rw [List.foldl_cons, others s (.inl rfl) b e, ih (List.mem_of_ne_of_mem (Ne.symm e) ha) hr]

/-- A relay's answer in one fragment goes to the one supervisor whose relay to that node waits (R407; log 92). -/
theorem takeRelayReply_whole {i : Nat} {hdr : Word} {since : Nat} {a b : Option (List Byte)} (hp : Arrives s l p 0x60 plot)
    (ht : p.ar 16 1 = 0x11) (hf : p.ar 17 1 = 2) (hi : i < 4) (hm : (getMbx s i).taken = some (.relay hdr p.src since a b))
    (ho : ∀ j, j ≠ i → ∀ h t x y, (getMbx s j).taken ≠ some (.relay h p.src t x y)) :
    takeRelayReply l p (fresh s) = mgmtAnswer p 0x61 0 (relayDone i hdr (fragOf p) (taken s l p)) := by
  rw [takeRelayReply, mgmtArrival_arrives hp ht]
  refine congrArg (mgmtAnswer p 0x61 0) (foldl_one (a := i) ?answered (fun x hx j hj => ?others) (List.mem_range.mpr hi)
    List.nodup_range)
  case answered => simp only [getMbx_taken, hm, hf, ne_eq, not_true_eq_false, if_false, if_true]
  case others =>
    have same : getMbx x j = getMbx s j := by
      rcases hx with rfl | rfl
      · exact getMbx_taken ..
      · simp [relayDone, postReply, hj]
    simp only [same]
    split
    · rename_i heq
      exact if_pos (fun e => ho j hj _ _ _ _ (e ▸ heq))
    · rfl

end

/-! ### The queue of the Marl (R472) -/

@[simp] theorem wakeDom_mrl (d : Nat) (s : State) : (wakeDom d s).mrl = s.mrl := by
  simp only [wakeDom]
  split <;> rfl

/-- `u` is `s` with records of these bodies at the end of the Marl's queue, as far as the Marl goes. -/
def Queues (s : State) (bodies : List MarlBody) (u : State) : Prop :=
  ∃ rs : List MarlRec, u.mrl = { s.mrl with queue := s.mrl.queue ++ rs } ∧ rs.map (fun r => r.body) = bodies

theorem Queues.nil {s : State} : Queues s [] s := ⟨[], by rw [List.append_nil], rfl⟩

theorem Queues.trans {s t u : State} {a b : List MarlBody} (h : Queues s a t) (k : Queues t b u) : Queues s (a ++ b) u := by
  obtain ⟨rs, h1, h2⟩ := h
  obtain ⟨qs, k1, k2⟩ := k
  exact ⟨rs ++ qs, by rw [k1, h1, List.append_assoc], by rw [List.map_append, h2, k2]⟩

theorem queues_queueRec (r : MarlRec) (s : State) : Queues s [r.body] (queueRec r s) := ⟨[_], wakeDom_mrl .., rfl⟩

theorem queues_foldl {α : Type} (rec : α → MarlRec) (as : List α) :
    ∀ s, Queues s (as.map (fun a => (rec a).body)) (as.foldl (fun s a => queueRec (rec a) s) s) := by
  induction as with
  | nil => exact fun _ => .nil
  | cons a r ih => exact fun s => (queues_queueRec (rec a) s).trans (ih _)

/-! ### Commits (R449, R470, R472, R478) -/

section
variable {s : State} {c : MarlCommit}

/-- A log record that is queued leaves all of the Marl but its queue and the log ring. -/
theorem pumpLog_mrl (s : State) : ∃ q r, (pumpLog s).mrl = { s.mrl with queue := q, logRing := r } := by
  unfold pumpLog
  split
  · exact ⟨_, _, wakeDom_mrl ..⟩
  · exact ⟨_, _, rfl⟩

/-- A trace record that is queued leaves all of the Marl but its queue. -/
theorem pumpTrace_mrl (s : State) : ∃ q, (pumpTrace s).mrl = { s.mrl with queue := q } := by
  simp only [pumpTrace]
  split
  · exact ⟨_, wakeDom_mrl ..⟩
  · exact ⟨_, rfl⟩

theorem committed_mrl (r : MarlRec) (slot : Nat) (s : State) : (committed r slot s).mrl = { s.mrl with
    cur := none, seq := s.mrl.seq + 1, slots := s.mrl.slots.set slot { seq := (s.mrl.seq + 1).toNat, record := r, committed := true }
    dumpLeft := if r.kind = 0x10 then s.mrl.dumpLeft - 1 else s.mrl.dumpLeft } := by
  simp only [committed]
  split <;> rfl

theorem marlCommit_good (hd : domOn s (marlDom s) = true) (hc : s.mrl.cur = some c) :
    marlCommit .good s = pumpTrace (pumpLog (committed c.record c.slot s)) := by
  simp only [marlCommit, marlReady, hd, hc, Bool.not_true, Bool.false_eq_true, if_false]

/-- A record whose write reads back well has its place in the index, and none is being written (R470). -/
theorem marlCommit_good_mrl (hd : domOn s (marlDom s) = true) (hc : s.mrl.cur = some c) :
    (marlCommit .good s).mrl.cur = none ∧ (marlCommit .good s).mrl.seq = s.mrl.seq + 1
      ∧ (marlCommit .good s).mrl.slots
        = s.mrl.slots.set c.slot { seq := (s.mrl.seq + 1).toNat, record := c.record, committed := true } := by
  obtain ⟨q, hq⟩ := pumpTrace_mrl (pumpLog (committed c.record c.slot s))
  obtain ⟨q', r, hr⟩ := pumpLog_mrl (committed c.record c.slot s)
  rw [marlCommit_good hd hc, hq, hr, committed_mrl]
  exact ⟨rfl, rfl, rfl⟩

/-- A record that reads back badly once is written again, into the next slot of its region (R478). -/
theorem marlCommit_bad_again {n : Nat} {m : Marl} (hd : domOn s (marlDom s) = true) (hc : s.mrl.cur = some c) (hr : c.retried = false)
    (ht : takeSlot c.record.kind s.mrl = (n, m)) :
    marlCommit .badReadback s = { s with mrl := { m with cur := some { c with slot := n, retried := true } } } := by
  simp only [marlCommit, marlReady, hd, hc, hr, ht, Bool.not_true, Bool.false_eq_true, if_false, modMrl]

theorem marlCommit_bad_lost (hd : domOn s (marlDom s) = true) (hc : s.mrl.cur = some c) (hr : c.retried = true) :
    marlCommit .badReadback s = raise 0x902 { s with mrl := { s.mrl with
      cur := none, dumpLeft := if c.record.kind = 0x10 then s.mrl.dumpLeft - 1 else s.mrl.dumpLeft } } := by
  simp only [marlCommit, marlReady, hd, hc, hr, Bool.not_true, Bool.false_eq_true, if_false, if_true, modMrl]

/-- With no record being written, the write that reads back badly is that of the queue's next record (R472, R478). -/
theorem marlCommit_bad_first {r : MarlRec} {n k : Nat} {m m2 : Marl} (hd : domOn s (marlDom s) = true) (hc : s.mrl.cur = none)
    (hq : nextRec s.mrl.queue = some r) (hn : takeSlot r.kind { s.mrl with queue := s.mrl.queue.erase r } = (n, m))
    (hk : takeSlot r.kind m = (k, m2)) :
    marlCommit .badReadback s = { s with mrl := { m2 with cur := some { record := r, slot := k, retried := true } } } := by
  simp only [hc] at hn
  simp only [marlCommit, marlReady, hd, hc, hq, hn, hk, Bool.not_true, Bool.false_eq_true, if_false, modMrl]

end

/-! ### Summaries and crash dumps (R471, R474, R475, R496) -/

/-- The entries of a second in records of 57: those that hold any. -/
def summaryBodies (k : Nat) (es : List (Nat × Option Nat × Nat)) : List MarlBody :=
  (((List.range k).map (fun i => (es.drop (57 * i)).take 57)).filter (fun es => !es.isEmpty)).map (fun es => MarlBody.summary es)

theorem summaryBodies_nil (k : Nat) : summaryBodies k [] = [] := by simp [summaryBodies]

/-- The first record takes the first 57 entries. -/
theorem summaryBodies_cons (k : Nat) {es : List (Nat × Option Nat × Nat)} (h : es ≠ []) :
    summaryBodies (k + 1) es = .summary (es.take 57) :: summaryBodies k (es.drop 57) := by
  have some : (!(es.take 57).isEmpty) = true := by simp [h]
  have shift : ∀ i, 57 * (i + 1) = 57 + 57 * i := fun i => by omega
  simp [summaryBodies, List.range_succ_eq_map, Function.comp_def, some, shift]

theorem queues_queueSummaries (k : Nat) : ∀ es s, Queues s (summaryBodies k es) (queueSummaries k es s) := by
  induction k with
  | zero => exact fun _ _ => .nil
  | succ k ih =>
    intro es s
    by_cases h : es = []
    · subst h
      rw [summaryBodies_nil]
      exact .nil
    · have more : ¬ es.isEmpty = true := by simpa using h
      rw [summaryBodies_cons k h, queueSummaries, if_neg more]
      exact (queues_queueRec _ s).trans (ih _ _)

theorem secondTurn_turns {s : State} (h : s.sun.time / 10 ^ 9 ≠ s.mrl.second) :
    secondTurn s = modMrl (fun m => { m with second := s.sun.time / 10 ^ 9, counts := [] })
      (queueSummaries 4 (summaryEntries s.mrl.counts) s) := if_neg h

section
variable {s : State} {w : Word} {trigger : Nat}

theorem takeDump_missed (h : 0 < s.mrl.dumpLeft) :
    takeDump trigger s = { s with mrl := { s.mrl with dumpMissed := satInc 255 s.mrl.dumpMissed } } := if_pos h

/-- The record of a part of a crash dump (R475). -/
def dumpRecord (trigger n parts i : Nat) : MarlRec :=
  { kind := 0x10, time := 0, code := trigger, object := n, part := i, parts := parts, body := .dumpPart n i parts trigger }

/-- With no dump under way, a dump queues all its parts, and takes the other half of its region (R475). -/
theorem takeDump_taken (h : s.mrl.dumpLeft = 0) : (takeDump trigger s).mrl.dumpLeft = dumpParts s
    ∧ (takeDump trigger s).mrl.nextDump = (if s.mrl.dumpHalf then 4096 else 2048)
    ∧ (takeDump trigger s).mrl.queue.length = s.mrl.queue.length + dumpParts s := by
  have idle : ¬ 0 < s.mrl.dumpLeft := by omega
  rw [takeDump, if_neg idle]
  obtain ⟨rs, hm, hb⟩ := queues_foldl (dumpRecord trigger (s.mrl.dumpNo + 1) (dumpParts s)) (List.range (dumpParts s)) _
  have parts : rs.length = dumpParts s := by simpa using congrArg List.length hb
  exact ⟨congrArg Marl.dumpLeft hm, congrArg Marl.nextDump hm,
    (congrArg (fun m : Marl => m.queue.length) hm).trans (by simp [parts])⟩

theorem dbgCtlW_dump (h0 : bitAt w 0 = true) (h10 : bitAt w 10 = false) : dbgCtlW w s = takeDump 0 s := by simp [dbgCtlW, h0, h10]

theorem dbgCtlW_missedClr (h10 : bitAt w 10 = true) (h0 : bitAt w 0 = false) :
    dbgCtlW w s = { s with mrl := { s.mrl with dumpMissed := 0 } } := by simp [dbgCtlW, h0, h10, modMrl]

/-! ### The firmware log (R476) -/

/-- Fewer than seven entries of the log wait for more. -/
theorem pumpLog_short (h : s.mrl.logRing.length < 7) : pumpLog s = s := if_neg (fun hc => Nat.not_le.mpr h hc.1)

variable {severity source code : Nat} {text : BitVec 384}

theorem firmwareLog_taken {e : BitVec 512} (hi : icqRuns s = true) (hr : s.mrl.logRing.length < 6)
    (he : e = logEntry s severity source code text) :
    firmwareLog severity source code text s = { s with mrl := { s.mrl with
      logRing := s.mrl.logRing ++ [e], logSeq := s.mrl.logSeq + 1
      logHist := (s.mrl.logHist ++ [e]).drop (s.mrl.logHist.length - 1023) } } := by
  have runs : ¬ (!icqRuns s) = true := by simp [hi]
  have room : s.mrl.logRing.length < 4096 := by omega
  subst he
  rw [firmwareLog, if_neg runs, if_pos room]
  refine pumpLog_short ?_
  simp only [modMrl_mrl, List.length_append, List.length_singleton]
  omega

/-- A full log ring drops the entry and counts it, and the first one dropped is noted (R476). -/
theorem firmwareLog_dropped (hi : icqRuns s = true) (hr : s.mrl.logRing.length = 4096) :
    firmwareLog severity source code text s
      = if s.mrl.logDropFlag then
          { s with mrl := { s.mrl with logSeq := s.mrl.logSeq + 1, logDrop := satInc 0xFFFFFFFF s.mrl.logDrop } }
        else raise 0x940
          { s with mrl := { s.mrl with logSeq := s.mrl.logSeq + 1, logDrop := satInc 0xFFFFFFFF s.mrl.logDrop, logDropFlag := true } } := by
  have runs : ¬ (!icqRuns s) = true := by simp [hi]
  have full : ¬ s.mrl.logRing.length < 4096 := by omega
  rw [firmwareLog, if_neg runs, if_neg full]
  cases hf : s.mrl.logDropFlag with
  | false => rfl
  | true =>
    have kept : { s.mrl with logDropFlag := true } = s.mrl := by rw [← hf]
    simp only [noteIf, modMrl, Bool.not_true, Bool.false_eq_true, if_false, if_true]
    rw [← kept]

end

end Sys2Proof.Laws

namespace Sys2Proof.Proofs

open Sys2Proof.Machine Sys2Proof.Laws

/-- Settles O46: each clause is the lemma of the plot's own rule. -/
theorem plotsOpenDrainAndEnd : Obligations.PlotsOpenDrainAndEnd := by
  unfold Obligations.PlotsOpenDrainAndEnd
  rintro s u sv p w x rfl rfl hp
  refine ⟨fun hw => ⟨fun h0 h1 h2 => ?open_, fun b c hc => ⟨fun h0 ha y z z2 hy hz hz2 => ?drains, fun h => ?drainRefused⟩⟩,
    fun hs hb ht y z hy hz => ?bound, fun hs hb ha y hy => ?ends, fun hs hb hh ha ht => ?hangs⟩
  case open_ =>
    have acts : (bitAt w 0 && !bitAt w 1 && !bitAt w 2) = true := by simp [h0, h1, h2]
    have opens : ∀ {v}, openPlot p (fresh s) = v → exec (.open_ sv p w) s = .next (after s (cpAnswer sv 0 0 v)) :=
      fun h => run_plotCtlAt hp hw acts ((plotCtlW_open h0 h1 h2).trans h)
    refine ⟨fun hs hk ho hq hr => ?_, fun hf => opens (if_pos hf), openFault_inUse⟩
    exact opens (if_neg (not_not_intro (openFault_zero (s := fresh s) hs hk ho hq hr)))
  case drains => exact exec_drainPlot hp hw hc (drainPlot_active (s := fresh s) h0 ha hy hz hz2)
  case drainRefused => exact exec_drainPlot hp hw hc (drainPlot_refused (s := fresh s) h)
  case bound => exact run_of (drainBound_due (s := fresh s) hs hb ht hy hz)
  case ends =>
    subst hy
    exact ⟨run_of (drainComplete_idle (s := fresh s) hs hb ha), fun k => zeroTallies_at⟩
  case hangs => exact act_of (drainHang_due (s := fresh s) hs hb hh ha ht)

/-- Settles O47: each write of SUP_CLAIM by its acting bit, and each clause by the rule of that bit, timer or read. -/
theorem ownershipFollowsItsRules : Obligations.OwnershipFollowsItsRules := by
  unfold Obligations.OwnershipFollowsItsRules
  rintro s u sv w rfl
  refine ⟨fun hw => ⟨fun h0 h1 h2 h3 => ?claim, fun h1 => ?release, fun h3 h1 h2 => ?handover, fun h2 h1 => ?accept⟩,
    fun ht hc => ?handoverExpires, fun hw => ?heartbeat, fun ho hr hc => ?heartbeatExpires,
    fun hr => ⟨fun ho => ?ownerReads, fun ho => ?otherReads⟩⟩
  case claim =>
    have acts : (bitAt w 0 && !bitAt w 1 && !bitAt w 2 && !bitAt w 3) = true := by simp [h0, h1, h2, h3]
    have claims : ∀ {v}, supClaim sv (fresh s) = v → exec (.claim sv w) s = .next (ended s (cpAnswer sv 0 0 v)) :=
      fun h => act_claimAt hw acts ((supClaimW_claim h0 h1 h2 h3).trans h)
    exact ⟨fun h => claims (supClaim_vacant (s := fresh s) h), fun h => claims (supClaim_owned (s := fresh s) h)⟩
  case release =>
    have releases : ∀ {v}, supRelease sv (fresh s) = v → exec (.release sv w) s = .next (ended s (cpAnswer sv 0 0 v)) :=
      fun h => act_claimAt hw h1 ((supClaimW_release h1).trans h)
    exact ⟨fun h => releases (if_pos h), fun h => releases (if_neg h)⟩
  case handover =>
    have acts : (bitAt w 3 && !bitAt w 1 && !bitAt w 2) = true := by simp [h1, h2, h3]
    have hands : ∀ {v}, supHandover sv (fld w 4 2) (fresh s) = v →
        exec (.handover sv w) s = .next (ended s (cpAnswer sv 0 0 v)) :=
      fun h => act_claimAt hw acts ((supClaimW_handover h1 h2 h3).trans h)
    exact ⟨fun ho hd ht => hands (supHandover_begins (s := fresh s) ho hd ht),
      fun ho h => hands (supHandover_refused (s := fresh s) ho h), fun ho => hands (if_pos ho)⟩
  case accept =>
    have acts : (bitAt w 2 && !bitAt w 1) = true := by simp [h1, h2]
    have accepts : ∀ {v}, supAccept sv (fresh s) = v → exec (.accept sv w) s = .next (ended s (cpAnswer sv 0 0 v)) :=
      fun h => act_claimAt hw acts ((supClaimW_accept h1 h2).trans h)
    exact ⟨fun ht hc => accepts (if_pos ⟨ht, hc⟩), fun h => accepts (supAccept_denied (s := fresh s) h)⟩
  case handoverExpires => exact act_of (handoverLate_due (s := fresh s) ht hc)
  case heartbeat => exact act_cpWrite hw rfl
  case heartbeatExpires => exact act_of (heartbeatLate_due (s := fresh s) ho hr hc)
  case ownerReads => exact act_readEvq hr (if_pos ho)
  case otherReads => exact act_readEvq hr (if_neg ho)

/-- Settles O49: each clause is the lemma of the relay's, the Marl's or the log's own rule. -/
theorem relaysRecordsAndLogs : Obligations.RelaysRecordsAndLogs := by
  unfold Obligations.RelaysRecordsAndLogs
  rintro s u v l plot p rfl rfl
  refine ⟨fun n hp ht hf hn => ⟨fun hi hm => ?served, fun h => ?nak⟩, fun i hdr since a b hp ht hf hi hm ho => ?replied,
    fun c hd hc => ⟨?committed, fun hr n m ht => ?again, fun hr => ?lost⟩, fun r n k m m2 hd hc hq hn hk => ?first,
    fun h => ?second, fun sv w hw => ⟨fun h0 h10 => ?dump, fun h10 h0 => ?missedClr⟩,
    fun y trigger => ⟨takeDump_missed, takeDump_taken⟩,
    fun severity source code text hi => ⟨fun hr e he => ?logged, fun hr => ?dropped⟩⟩
  case served => exact run_of (takeRelayed_whole hp ht hf hn hi hm)
  case nak => exact run_of (takeRelayed_busy hp ht hn h)
  case replied => exact run_of (takeRelayReply_whole hp ht hf hi hm ho)
  case committed =>
    have written := marlCommit_good_mrl (s := fresh s) hd hc
    exact ⟨_, act_next _ s, by simpa using written⟩
  case again => exact act_of (marlCommit_bad_again (s := fresh s) hd hc hr ht)
  case lost => exact act_of (marlCommit_bad_lost (s := fresh s) hd hc hr)
  case first => exact act_of (marlCommit_bad_first (s := fresh s) hd hc hq hn hk)
  case second =>
    obtain ⟨rs, hm, hb⟩ := queues_queueSummaries 4 (summaryEntries s.mrl.counts) (fresh s)
    exact ⟨_, act_of (secondTurn_turns (s := fresh s) h), rfl, rfl, rs, congrArg Marl.queue hm, hb⟩
  case dump => exact act_of ((if_pos h0).trans ((cpWrite_writable hw _).trans (congrArg (cpAnswer sv 0 0) (dbgCtlW_dump h0 h10))))
  case missedClr =>
    exact act_of ((if_pos h10).trans ((cpWrite_writable hw _).trans (congrArg (cpAnswer sv 0 0) (dbgCtlW_missedClr h10 h0))))
  case logged => exact act_of (firmwareLog_taken (s := fresh s) hi hr he)
  case dropped => exact act_of (firmwareLog_dropped (s := fresh s) hi hr)

end Sys2Proof.Proofs
end

section
/-! SUPPORT. The faults and recovery family: how every command ends, the collector, resets, power and lock losses, and the statements that
they settle. -/

namespace Sys2Proof.Laws

open Sys2Proof.Machine

/-! ### How every command ends (R412) -/

/-- Every command has an effect, and ends as `act` and `run` end: no arm of `exec` answers a fault or a refusal. -/
theorem exec_ends (c : Instr) (s : State) : ∃ u, exec c s = .next (ended s u) := by
  cases c
  all_goals exact ⟨_, rfl⟩

/-! ### What L3 and Safe look at stays while a fault is counted and recorded (R421, R422, R473) -/

/-- What decides whether L3 or Safe still has its actions to take: the start part, and which of the two the block is under. -/
def standing (s : State) : Start × Bool × Bool := (s.start, s.flt.l3, s.flt.safe)

theorem standing_iff {s u : State} :
    standing u = standing s ↔ u.start = s.start ∧ u.flt.l3 = s.flt.l3 ∧ u.flt.safe = s.flt.safe := by simp [standing]

@[simp] theorem raise_standing (code : Nat) (s : State) : standing (raise code s) = standing s := rfl

@[simp] theorem modMrl_standing (g : Marl → Marl) (s : State) : standing (modMrl g s) = standing s := rfl

@[simp] theorem wakeDom_standing (d : Nat) (s : State) : standing (wakeDom d s) = standing s := by
  simp only [wakeDom]
  split <;> rfl

@[simp] theorem queueRec_standing (r : MarlRec) (s : State) : standing (queueRec r s) = standing s := wakeDom_standing ..

theorem queueSummaries_standing (k : Nat) : ∀ es s, standing (queueSummaries k es s) = standing s := by
  induction k with
  | zero => exact fun _ _ => rfl
  | succ k ih =>
    intro es s
    rw [queueSummaries]
    split
    · rfl
    · rw [ih, queueRec_standing]

@[simp] theorem secondTurn_standing (s : State) : standing (secondTurn s) = standing s := by
  simp only [secondTurn]
  split
  · rfl
  · rw [modMrl_standing, queueSummaries_standing]

@[simp] theorem marlFault_standing (e : FaultEv) (lvl : Level) (esc : Bool) (entry : Option Nat) (s : State) :
    standing (marlFault e lvl esc entry s) = standing s := by
  simp only [marlFault]
  split
  · split
    · rw [queueRec_standing, secondTurn_standing]
    · split
      · rw [raise_standing, modMrl_standing, modMrl_standing, queueRec_standing, secondTurn_standing]
      · rw [modMrl_standing, queueRec_standing, secondTurn_standing]
  · rw [modMrl_standing, secondTurn_standing]

@[simp] theorem openEntry_standing (e : FaultEv) (lvl : Level) (esc : Bool) (s : State) : standing (openEntry e lvl esc s) = standing s := by
  unfold openEntry noteIf
  split
  · rfl
  · split <;> rfl

/-! ### The collector takes a fault (R412-R422) -/

/-- A fault that the collector has counted, or given an entry, and recorded: `y` is the state in which its Silt event is written. -/
def recorded (e : FaultEv) (lvl : Level) (esc : Bool) (entry : Option Nat) (y : State) : State :=
  marlFault e lvl esc (if lvl = .l0 ∨ lvl = .safe then none else entry)
    (if lvl = .l0 then countArea e.code y else if lvl = .safe then y else openEntry e lvl esc y)

@[simp] theorem recorded_standing (e : FaultEv) (lvl : Level) (esc : Bool) (entry : Option Nat) (y : State) :
    standing (recorded e lvl esc entry y) = standing y := by
  rw [recorded, marlFault_standing]
  split
  · rfl
  · split
    · rfl
    · exact openEntry_standing ..

/-- The state in which the collector has taken a fault off its queue and its unit has written the Silt event (R423, R481). -/
def siltTaken (e : FaultEv) (s : State) : State :=
  siltAt e.time (siltUnit e.kind e.unit).1 (siltUnit e.kind e.unit).2 e.code e.layer e.op (e.plot.getD 0) (e.unit % 256) (e.detail % 65536)
    { s with flt := { s.flt with inflight := s.flt.inflight.erase e } }

section
variable {s : State} {e : FaultEv} {lvl : Level} {esc : Bool}

/-- The first fault in order is recorded at the level it takes, and that level acts (R412, R416, R423). -/
theorem takeNext_takes (he : firstFault s.flt.inflight = some e) (hl : takenLevel s e = (lvl, esc)) :
    takeNext s = levelAction e lvl (recorded e lvl esc (freeEntry s) (siltTaken e s)) := by
  have level : takenLevel (modFlt (fun x => { x with inflight := x.inflight.erase e }) s) e = (lvl, esc) := hl
  rw [takeNext, he]
  simp only [takeFault, level]
  rfl

theorem freezePlot_freezes {p code : Nat} {m x y2 : State} (hx : x = modFlt (fun f => { f with plotFault := setBit f.plotFault p true }) m)
    (hy : y2 = (plotFurrows x p).foldl (fun s f => freezeFur code f s) x) :
    freezePlot p code m = ((openBeds y2).filter (fun c => (getBed y2 c).plot == p)).foldl (fun s c => abandonBed c code true s) y2 := by
  subst hx hy
  rfl

theorem enterL3_entered (code : Nat) (h : s.flt.l3 = true ∨ s.flt.safe = true) : enterL3 code s = s := by
  have under : (s.flt.l3 || s.flt.safe) = true := by simpa using h
  exact if_pos under

theorem enterL3_stops {code : Nat} {x y2 y3 : State} (h3 : s.flt.l3 = false) (hs : s.flt.safe = false)
    (hx : x = modFlt (fun f => { f with l3 := true }) s) (hy : y2 = (allFurs x).foldl (fun s f => haltFur code f s) x)
    (hz : y3 = (openBeds y2).foldl (fun s c => abandonBed c code true s) y2) :
    enterL3 code s = takeDump code (if e64 y3 then y3 else loseLinks (allLinks y3) y3) := by
  subst hx hy hz
  have clear : ¬ (s.flt.l3 || s.flt.safe) = true := by simp [h3, hs]
  exact if_neg clear

theorem enterSafe_stops {code : Nat} {x y2 y3 : State} (hs : s.flt.safe = false)
    (hx : x = modFlt (fun f => { f with safe := true, safeCode := code % 4096 }) s)
    (hy : y2 = { x with start := { x.start with state := 3, running := false, wake := 0 }, glb := { x.glb with cycBusy := false, req := none } })
    (hz : y3 = (allFurs y2).foldl (fun s f => haltFur code f s) y2) :
    enterSafe code s = takeDump code (safeRecord code (safeDomains (loseLinks (allLinks y3) y3))) := by
  subst hx hy hz
  exact if_neg (Bool.eq_false_iff.mp hs)

end

/-! ### The level that a fault takes (R416, R420) -/

section
variable {s : State} {e : FaultEv}

theorem takenLevel_own (h : e.level = .l0 ∨ e.conseq = true ∨ rivals s e.code e.plot = []) (hp : e.level ≠ .l2 ∨ e.plot.isSome = true) :
    takenLevel s e = (e.level, false) := by
  have placed : ¬ (e.level = .l2 ∧ e.plot.isNone = true) := by
    rcases hp with hp | hp
    · simp [hp]
    · simp [Option.isSome_iff_ne_none.mp hp]
  have kept : (e.level = .l0 ∨ e.conseq = true ∨ (rivals s e.code e.plot).foldl (fun (l : Level) x => l.max x.level) .l0 = .l0) := by
    rcases h with h | h | h
    · exact .inl h
    · exact .inr (.inl h)
    · exact .inr (.inr (by rw [h]; rfl))
  simp only [takenLevel, if_pos kept, if_neg placed, Nat.lt_irrefl, decide_false]

theorem max_l0 (l : Level) : Level.l0.max l = l := by cases l <;> rfl

theorem max_ne_l2 {a b : Level} (ha : a ≠ .l2) (hb : b ≠ .l2) : a.max b ≠ .l2 := by
  unfold Level.max
  split
  · exact hb
  · exact ha

/-- One open entry of the class puts a fault one level above that entry (R416). -/
theorem takenLevel_escalated {x : FltEntry} (h0 : e.level ≠ .l0) (hc : e.conseq = false) (hr : rivals s e.code e.plot = [x])
    (hx : x.level ≠ .l0) (hu : x.level.up ≠ .l2) (h2 : e.level ≠ .l2) : (takenLevel s e).1 = e.level.max x.level.up := by
  have top : (rivals s e.code e.plot).foldl (fun (l : Level) x => l.max x.level) .l0 = x.level := by rw [hr]; exact max_l0 _
  have placed := max_ne_l2 h2 hu
  simp [takenLevel, top, h0, hc, hx, placed]

end

/-! ### Entries (R414, R417, R419) -/

section
variable {s : State} {e : FaultEv} {lvl : Level} {esc : Bool}

theorem openEntry_free {i : Nat} (h : freeEntry s = some i) : openEntry e lvl esc s = { s with flt := { s.flt with
    isNew := true, entries := s.flt.entries.set i {
      valid := true, code := e.code, level := lvl, escalated := esc, conseq := e.conseq, plot := e.plot, kind := e.kind, unit := e.unit
      time := e.time, layer := e.layer, op := e.op, detail := if lvl = .l1 then e.detail else 0, furrow := e.furrow
      cleared := lvl == .l1 && causeGone s e } } } := by
  rw [openEntry, h]
  rfl

theorem openEntry_full (h : freeEntry s = none) : openEntry e lvl esc s = noteIf (!s.flt.fullNoted) 0xF40
    { s with flt := { s.flt with lost := satInc 0xFFFFFFFF s.flt.lost, fullNoted := true } } := by
  rw [openEntry, h]
  rfl

/-- A change of every entry that changes none leaves the table. -/
theorem mapVals_self {α : Type} (t : Tbl α) : t.mapVals (fun _ x => x) = t := List.map_id' t

/-- Closing what is both cleared and acknowledged, with no cause newly cleared (R417). -/
theorem clearCauses_none (s : State) : clearCauses (fun _ => false) s = { s with flt := { s.flt with
    entries := s.flt.entries.filter (fun e => !(e.2.cleared && e.2.acked))
    fullNoted := s.flt.fullNoted && decide ((s.flt.entries.filter (fun e => !(e.2.cleared && e.2.acked))).length = s.flt.entries.length) } } := by
  simp only [clearCauses, Bool.false_eq_true, if_false, mapVals_self]

theorem fltAckW_eq {w : Word} {mine : Nat → Bool} {es : Tbl FltEntry} (hm : ∀ i, (bitAt w 5 || i == fld w 0 5) = mine i)
    (he : es = (s.flt.entries.mapVals (fun i e => if mine i then { e with acked := true } else e)).filter (fun e => !(e.2.cleared && e.2.acked))) :
    fltAckW w s = { s with flt := { s.flt with
      entries := es, fullNoted := s.flt.fullNoted && decide (es.length = s.flt.entries.length) } } := by
  subst he
  rw [fltAckW, ackEntries, clearCauses_none]
  simp [modFlt, hm, Tbl.mapVals]

/-- A write of FLT_ACK without bit 5 is the acknowledgement of one entry (R417). -/
theorem execFltAck_writes {v : State} {sv : Nat} {w : Word} (hw : Writable s sv 0x030004) (h5 : bitAt w 5 = false)
    (h : fltAckW w (fresh s) = v) : execFltAck sv w s = .next (ended s (cpAnswer sv 0 0 v)) :=
  act_of ((if_neg (Bool.eq_false_iff.mp h5)).trans ((cpWrite_writable hw _).trans (congrArg (cpAnswer sv 0 0) h)))

/-- A write of FLT_ACK with bit 5 is the acknowledgement of every entry (R417). -/
theorem execFltAckAll_writes {v : State} {sv : Nat} {w : Word} (hw : Writable s sv 0x030004) (h5 : bitAt w 5 = true)
    (h : fltAckW w (fresh s) = v) : execFltAckAll sv w s = .next (ended s (cpAnswer sv 0 0 v)) :=
  act_of ((if_pos h5).trans ((cpWrite_writable hw _).trans (congrArg (cpAnswer sv 0 0) h)))

end

/-! ### Block resets are requested (R427, R431, R447) -/

section
variable {s : State} {r : ResetReq}

/-- A cold reset that no other one precedes is requested, with its cause and the highest open fault (R427, R447). -/
theorem requestReset_cold {cause : Nat} (hq : s.glb.req = none)
    (hr : r = { kind := .cold, cause := cause, openCode := highestOpen s, fromL3 := s.flt.l3, fromSafe := s.flt.safe, since := s.clk }) :
    requestReset .cold cause s = resetRecord cause (highestOpen s)
      { s with glb := { s.glb with req := some r, stopped := true }, start := { s.start with running := false } } := by
  subst hr
  simp only [requestReset, reduceCtorEq, false_and, if_false, ite_self, hq]
  rfl

/-- A warm reset of a block in RUN is requested, and its memory ports refuse what they have not acted on (R427, R533). -/
theorem requestReset_warm {cause : Nat} (hs : s.flt.safe = false) (hi : inRun s = true) (hq : s.glb.req = none)
    (hr : r = { kind := .warm, cause := cause, openCode := highestOpen s, fromL3 := s.flt.l3, fromSafe := false, since := s.clk }) :
    requestReset .warm cause s = resetRecord cause (highestOpen s) (stopPorts
      { s with glb := { s.glb with req := some r, stopped := true }, start := { s.start with running := false } }) := by
  subst hr
  simp only [requestReset, hs, hi, hq, Bool.false_eq_true, and_false, if_false, Bool.true_or, if_true]
  rfl

end

/-! ### GLB_RESET_CTL (R427, R428, R447) -/

section
variable {s v : State} {sv k d : Nat} {w : Word}

/-- A write of GLB_RESET_CTL with the bit of its row has the register's effect and is answered with status 0. -/
theorem run_resetWrite (hw : Writable s sv 0x000010) (hk : bitAt w k = true) (h : resetCtlW w (fresh s) = v) :
    run (resetWrite sv k w) s = .next (after s (cpAnswer sv 0 0 v)) :=
  run_of ((if_pos hk).trans ((cpWrite_writable hw _).trans (congrArg (cpAnswer sv 0 0) h)))

theorem resetCtlW_absent (hd : domCount s ≤ fld w 3 7) : resetCtlW w s = raise 0xF20 s := if_pos hd

theorem resetCtlW_cold (hd : fld w 3 7 < domCount s) (h1 : bitAt w 1 = true) : resetCtlW w s
    = requestReset .cold 2 { s with glb := { s.glb with domain := fld w 3 7 }, start := { s.start with failed := 0 } } :=
  (if_neg (Nat.not_le.mpr hd)).trans (if_pos h1)

theorem resetCtlW_warm (hd : fld w 3 7 < domCount s) (h1 : bitAt w 1 = false) (h0 : bitAt w 0 = true) : resetCtlW w s
    = if s.flt.safe then raise 0xF20 s else requestReset .warm 4 { s with glb := { s.glb with domain := fld w 3 7 } } :=
  (if_neg (Nat.not_le.mpr hd)).trans ((if_neg (Bool.eq_false_iff.mp h1)).trans (if_pos h0))

theorem resetCtlW_domCycle (hd : fld w 3 7 < domCount s) (h1 : bitAt w 1 = false) (h0 : bitAt w 0 = false) (h2 : bitAt w 2 = true)
    (hs : s.flt.safe = false) : resetCtlW w s
      = if !mayCycle s (fld w 3 7) || s.glb.cycBusy || (getDom s (fld w 3 7)).req != (getDom s (fld w 3 7)).ack then raise 0x853 s
        else startCycle (fld w 3 7) false { s with glb := { s.glb with domain := fld w 3 7 } } := by
  refine (if_neg (Nat.not_le.mpr hd)).trans ((if_neg (Bool.eq_false_iff.mp h1)).trans ((if_neg (Bool.eq_false_iff.mp h0)).trans ?_))
  exact (if_pos h2).trans (if_neg (Bool.eq_false_iff.mp hs))

end

/-! ### Resets act (R426, R427, R447, R454) -/

section
variable {s : State} {r : ResetReq}

theorem resetActs_warm (hq : s.glb.req = some r) (h : resetReady s r = true) (hk : r.kind = .warm) : resetActs s = actWarm r s := by
  simp only [resetActs, hq, h, hk, Bool.not_true, Bool.false_eq_true, if_false]

theorem resetActs_cold (hq : s.glb.req = some r) (h : resetReady s r = true) (hk : r.kind = .cold) :
    resetActs s = actCold s.glb.ties s.glb.warmPin dropAll (setCause r s) := by
  simp only [resetActs, hq, h, hk, Bool.not_true, Bool.false_eq_true, if_false]

end

/-- A request refused at its memory port leaves the Trellis and the collective engine (R533). -/
theorem iqRefuse_keeps (port : Nat) (b : IqBeat) (code : Nat) (s : State) :
    (iqRefuse port b code s).trl = s.trl ∧ (iqRefuse port b code s).coll = s.coll := by
  unfold iqRefuse irError memErr
  split <;> exact ⟨rfl, rfl⟩

theorem answerLeft_keeps (s : State) : (answerLeft s).trl = s.trl ∧ (answerLeft s).coll = s.coll := by
  have kept : ∀ (l : List (Nat × BwAcc)) (u : State),
      (l.foldl (fun s a => iqRefuse a.2.port a.2.beat 0x242 (dropAcc a.1 s)) u).trl = u.trl
        ∧ (l.foldl (fun s a => iqRefuse a.2.port a.2.beat 0x242 (dropAcc a.1 s)) u).coll = u.coll := by
    intro l
    induction l with
    | nil => exact fun _ => ⟨rfl, rfl⟩
    | cons a r ih =>
      intro u
      obtain ⟨htrl, hcoll⟩ := ih (iqRefuse a.2.port a.2.beat 0x242 (dropAcc a.1 u))
      obtain ⟨ktrl, kcoll⟩ := iqRefuse_keeps a.2.port a.2.beat 0x242 (dropAcc a.1 u)
      exact ⟨htrl.trans ktrl, hcoll.trans kcoll⟩
  exact kept s.rlc.acc s

/-- What a warm reset keeps of the collective engine and the Trellis is what they held (R426). -/
theorem actWarm_keeps (r : ResetReq) (s : State) :
    (actWarm r s).coll.sliceFence = s.coll.sliceFence ∧ (actWarm r s).trl.bankA = s.trl.bankA := by
  obtain ⟨htrl, hcoll⟩ := answerLeft_keeps s
  have fence : (answerLeft s).coll.sliceFence = s.coll.sliceFence := by rw [hcoll]
  have bank : (answerLeft s).trl.bankA = s.trl.bankA := by rw [htrl]
  exact ⟨fence, bank⟩

/-- A domain after power is lost is off, and the die has taken back its acknowledgement (R450, R508). -/
theorem powerLost_doms (s : State) : ∀ e ∈ (powerLost s).pwr.doms, e.2.on = false ∧ e.2.ack = false := by
  have cut : (powerLost s).pwr.doms = (domsOff s s.glb.ties).mapVals (fun _ x => { x with ack := false }) := rfl
  rw [cut, Tbl.mapVals, domsOff, List.map_map]
  intro e he
  obtain ⟨d, -, rfl⟩ := List.mem_map.mp he
  exact ⟨rfl, rfl⟩

theorem warmInput_low {s : State} (hw : s.glb.warmPin = true) (hc : s.glb.coldPin = true) :
    warmInput s = requestReset .warm 3 { s with glb := { s.glb with warmPin := false } } := by
  have low : (s.glb.warmPin && s.glb.coldPin) = true := by simp [hw, hc]
  exact if_pos low

/-- WARM_RST_N that rises in a start that does not wait for it is only noted (R505). -/
theorem warmReleased_running {s : State} (h : s.start.state ≠ 0) : warmReleased s = { s with glb := { s.glb with warmPin := true } } := by
  simp [warmReleased, h, modGlb]

/-- A start that waits for WARM_RST_N begins as it rises (R505). -/
theorem warmReleased_begins {s : State} (hw : s.glb.warmPin = false) (hc : s.glb.coldPin = true) (h0 : s.start.state = 0)
    (hr : s.start.running = false) (hq : s.glb.req = none) (hs : s.start.step = s.start.warm.toNat) :
    warmReleased s = { s with glb := { s.glb with warmPin := true },
                              start := { s.start with running := true, since := s.clk, stepSince := s.clk } } := by
  have waits : s.start.step = if s.start.warm then 1 else 0 := by rw [hs]; cases s.start.warm <;> rfl
  simp [warmReleased, hw, hc, h0, hr, hq, waits, modGlb, modStart]

theorem coldInput_low {s : State} (t : Ties) (h : s.glb.coldPin = true) : coldInput false t s
    = actCold s.glb.ties false dropAll (setCause (causeNow 1 s) (modGlb (fun g => { g with coldPin := false }) s)) := by
  simp [coldInput, h]

theorem coldInput_high {s : State} (t : Ties) (h : s.glb.coldPin = false) :
    coldInput true t s = actCold t true dropAll (modGlb (fun g => { g with coldPin := true }) s) := by
  simp [coldInput, h]

/-! ### What the block may do without is not a matter of the bytes that a command writes (R548) -/

section
variable (s : State)

theorem targetOf_fresh (b : Bed) (st : CStep) (q : Nat) : targetOf (fresh s) b st q = targetOf s b st q := rfl

theorem servedSpans_fresh (b : Bed) (st : CStep) (node k x : Nat) : servedSpans (fresh s) b st node k x = servedSpans s b st node k x := by
  simp only [servedSpans, targetOf_fresh]

theorem stepSlots_fresh (b : Bed) (st : CStep) (node : Nat) : stepSlots (fresh s) b st node = stepSlots s b st node := by
  simp only [stepSlots, servedSpans_fresh]

theorem unitHeld_fresh (ctx : Nat) (b : Bed) (st : CStep) : unitHeld (fresh s) ctx b st = unitHeld s ctx b st := by
  have node : selfNode (fresh s) = selfNode s := rfl
  simp only [unitHeld, stepSlots_fresh, node, fresh_coll]

theorem busyUnits_fresh : busyUnits (fresh s) = busyUnits s := by
  simp only [busyUnits, unitHeld_fresh, fresh_coll]

@[simp] theorem domKind_fresh (d : Nat) : domKind (fresh s) d = domKind s d := rfl

theorem domIdle_fresh (d : Nat) : domIdle (fresh s) d = domIdle s d := by
  rw [domIdle, domIdle, domKind_fresh]
  cases domKind s d
  case sieve => rw [busyUnits_fresh]
  all_goals rfl

theorem offAllowed_fresh (d : Nat) : offAllowed (fresh s) d = offAllowed s d := by
  rw [offAllowed, offAllowed, domKind_fresh]
  cases domKind s d
  case lanes => rfl
  all_goals exact domIdle_fresh s d

end

/-! ### PWR_DOM_REQ (R548, R552, R558) -/

section
variable {s v : State} {sv : Nat} {w : Word}

/-- A write of PWR_DOM_REQ with go set has the register's effect and is answered with status 0. -/
theorem execPwrDomReq_writes (hw : Writable s sv 0x4F000C) (h8 : bitAt w 8 = true) (h : domReqW w (fresh s) = v) :
    execPwrDomReq sv w s = .next (after s (cpAnswer sv 0 0 v)) :=
  run_of ((if_pos h8).trans ((cpWrite_writable hw _).trans (congrArg (cpAnswer sv 0 0) h)))

/-- What bars the owner's request: no such domain, a domain cycle, another request, or a handshake of the domain itself (R552). -/
def DomBarred (s : State) (d : Nat) : Prop :=
  domCount s ≤ d ∨ s.glb.cycBusy = true ∨ s.pwr.busy.isSome = true ∨ (getDom s d).req ≠ (getDom s d).ack

theorem domReqW_barred (h8 : bitAt w 8 = true) (h : DomBarred s (fld w 0 7)) : domReqW w s = raise 0x820 s := by
  have go : ¬ (!bitAt w 8) = true := by simp [h8]
  exact (if_neg go).trans (if_pos h)

theorem not_domBarred {d : Nat} (hd : d < domCount s) (hc : s.glb.cycBusy = false) (hb : s.pwr.busy = none)
    (hx : (getDom s d).req = (getDom s d).ack) : ¬ DomBarred s d := by
  simp [DomBarred, hd, hc, hb, hx]

/-- A request of the owner that nothing bars is for on, or for off (R548, R552). -/
theorem domReqW_free (h8 : bitAt w 8 = true) (h : ¬ DomBarred s (fld w 0 7)) : domReqW w s =
    if bitAt w 7 then
      (if (getDom s (fld w 0 7)).req then { s with pwr := { s.pwr with reqReg := w &&& 0xFF } }
        else ownerOn (fld w 0 7) { s with pwr := { s.pwr with reqReg := w &&& 0xFF } })
    else if !(getDom s (fld w 0 7)).req then
      modDom (fld w 0 7) (fun x => { x with ownerOff := fld w 0 7 != mgmtDom s }) { s with pwr := { s.pwr with reqReg := w &&& 0xFF } }
    else if offAllowed s (fld w 0 7) then ownerOff (fld w 0 7) { s with pwr := { s.pwr with reqReg := w &&& 0xFF } }
    else raise 0x820 s := by
  have go : ¬ (!bitAt w 8) = true := by simp [h8]
  exact (if_neg go).trans (if_neg h)

end

/-! ### The handshake and self-gating (R508, R509, R548) -/

/-- Two changes of one domain are one. -/
theorem modDom_modDom (d : Nat) (g h : Dom → Dom) (s : State) : modDom d h (modDom d g s) = modDom d (fun x => h (g x)) s := by
  simp [modDom, getDom]

section
variable {s : State} {d : Nat}

theorem powerAck_asked {lev : Bool} (hd : d < domCount s) (hl : lev ≠ (getDom s d).ack) (hr : lev = (getDom s d).req) :
    powerAck d lev s = (if lev then domUp d else domDown d) (modDom d (fun x => { x with ack := lev, late := false }) s) := by
  have moved : ¬ (domCount s ≤ d ∨ lev = (getDom s d).ack) := by simp [hd, hl]
  refine (if_neg moved).trans ((if_neg (not_not_intro hr)).trans ?_)
  cases lev <;> rfl

theorem powerAck_unasked {lev : Bool} (hd : d < domCount s) (hl : lev ≠ (getDom s d).ack) (hr : lev ≠ (getDom s d).req)
    (hn : (getDom s d).noted805 = false) :
    powerAck d lev s = raise 0x805 (modDom d (fun x => { x with noted805 := true }) s) := by
  have moved : ¬ (domCount s ≤ d ∨ lev = (getDom s d).ack) := by simp [hd, hl]
  exact (if_neg moved).trans ((if_pos hr).trans (if_neg (Bool.eq_false_iff.mp hn)))

/-- A handshake that is late outside a start fails the cycle (R509). -/
theorem ackTimeout_fails (hd : d < domCount s) (hx : (getDom s d).req ≠ (getDom s d).ack) (hl : (getDom s d).late = false)
    (hp : (getDom s d).reqSince + 1000000 ≤ s.clk) (hs : s.start.state ≠ 0 ∨ s.start.running = false) :
    ackTimeout d s = cycleFailed (modDom d (fun x => { x with late := true }) { s with pwr := { s.pwr with busy := none } }) := by
  have due : ¬ (!ackDue s d) = true := by simp [ackDue, passed, *]
  have idle : ¬ (s.start.state = 0 ∧ s.start.running = true) := by
    rcases hs with hs | hs <;> simp [hs]
  exact (if_neg due).trans (if_neg idle)

theorem selfGate_gates {b : Nat} (hb : gateBit (domKind s d) = some b) (hg : bitAt s.pwr.gateCfg b = true) (hd : d < domCount s)
    (ho : (getDom s d).on = true) (hr : (getDom s d).req = true) (ha : (getDom s d).ack = true) (hi : (getDom s d).isolated = false)
    (hid : domIdle s d = true) (hrun : inRun s = true) (hc : s.glb.cycBusy = false ∨ s.glb.cycDomain ≠ d)
    (hp : (getDom s d).idleSince + fld s.pwr.gateCfg 8 16 * 1000 ≤ s.clk) :
    selfGate d s = modDom d (fun x => { x with selfOff := true, isolated := true, req := false, reqSince := s.clk }) s := by
  have other : (s.glb.cycBusy && s.glb.cycDomain == d) = false := by
    rcases hc with hc | hc <;> simp [hc]
  simp only [selfGate, hb, hg, decide_eq_true hd, ho, hr, ha, hi, hid, hrun, other, passed, decide_eq_true hp, Bool.not_false, Bool.and_self, if_true]
  exact modDom_modDom ..

end

/-! ### Heat, droop and lock losses (R490, R504, R556, R557) -/

section
variable {s : State}

theorem thermPin_falls (hl : s.pwr.thermLow = false) (hc : s.glb.coldPin = true) : thermPin false s
    = raise 0x810 { s with pwr := { s.pwr with thermLow := true, thermSince := s.clk, thermEvt := true } } :=
  (if_neg (Bool.eq_false_iff.mp hl)).trans (if_pos hc)

theorem thermLate_notes (hl : s.pwr.thermLow = true) (h2 : s.pwr.therm2 = false)
    (hp : s.pwr.thermSince + s.pwr.thermLimit * 10 ^ 9 ≤ s.clk) :
    thermLate s = raise 0x812 { s with pwr := { s.pwr with therm2 := true, thermEvt := true } } := by
  have due : (s.pwr.thermLow && !s.pwr.therm2 && passed s s.pwr.thermSince (s.pwr.thermLimit * 10 ^ 9)) = true := by
    simpa [hl, h2, passed] using hp
  exact if_pos due

theorem droopPin_rises (hl : s.pwr.droopLow = true) :
    droopPin true s = { s with pwr := { s.pwr with droopLow := false, droopHold := some s.clk } } := by
  simp only [droopPin, hl, Bool.not_true, reduceCtorEq, if_false, if_true]
  rfl

theorem droopPin_falls (hl : s.pwr.droopLow = false) (hc : s.glb.coldPin = true) : droopPin false s
    = raise 0x811 { s with pwr := { s.pwr with droopLow := true, droopHold := none, droopEvt := true } } := by
  have high : ¬ false = !s.pwr.droopLow := by simp [hl]
  exact (if_neg high).trans (if_pos hc)

theorem droopOver_ends {t : Nat} (ht : s.pwr.droopHold = some t) (hp : t + 1000 ≤ s.clk) :
    droopOver s = { s with pwr := { s.pwr with droopHold := none } } := by
  rw [droopOver, ht]
  exact if_pos (decide_eq_true hp)

theorem holdover_enters (h : s.sun.state ≠ .holdover) :
    holdover s = raise 0x920 { s with sun := { s.sun with state := .holdover, holdoverEvt := true, good := 0 } } := if_neg h

theorem holdover_again (h : s.sun.state = .holdover) : holdover s = s := if_pos h

theorem refLost_past (hl : s.pwr.refLock = true) (hp : pastLock s = true) :
    refLost s = holdover (raise 0x801 { s with pwr := { s.pwr with refLock := false } }) := by
  have lost : (s.pwr.refLock && pastLock s) = true := by simp [hl, hp]
  exact if_pos lost

/-- A core PLL that is in lock and loses it past start step 1 is noted, and its lock alone is gone (R557). -/
theorem coreLost_past {k : Nat} (hk : k = 0 ∧ s.pwr.tLock = true ∨ k = 1 ∧ s.pwr.bLock = true ∨ k = 2 ∧ s.pwr.hLock = true)
    (hp : pastLock s = true) : coreLost k s = raise 0x821 { s with pwr := { s.pwr with
      tLock := s.pwr.tLock && k != 0, bLock := s.pwr.bLock && k != 1, hLock := s.pwr.hLock && k != 2, lockEvt := true } } := by
  rcases hk with ⟨rfl, hk⟩ | ⟨rfl, hk⟩ | ⟨rfl, hk⟩ <;> simp only [coreLost, hk, hp, Bool.and_self, if_true, modPwr]

end

end Sys2Proof.Laws

namespace Sys2Proof.Proofs

open Sys2Proof.Machine Sys2Proof.Laws

/-- Settles O2: every command ends, and what is left at an end keeps the queue and the clock. -/
theorem everyCommandAnswers : Obligations.EveryCommandAnswers := by
  unfold Obligations.EveryCommandAnswers
  intro c s
  obtain ⟨u, hu⟩ := exec_ends c s
  exact ⟨ended s u, hu, ended_pending s u, ended_clk s u, ended_wlog s u⟩

/-- Settles O50: a fault is recorded and its level acts on a block that stands as it stood; the other clauses are the lemmas of levels,
entries and the collector's registers. -/
theorem faultsAreTakenByTheirLevel : Obligations.FaultsAreTakenByTheirLevel := by
  unfold Obligations.FaultsAreTakenByTheirLevel
  rintro s u sv w rfl
  refine ⟨?taken, fun e => ⟨takenLevel_own, fun x h0 hc hr hx hu h2 => takenLevel_escalated h0 hc hr hx hu h2⟩,
    fun e lvl esc i h => openEntry_free h, fun e lvl esc h => ?full, fun code => rfl, ?ack, fun hr => ?lost⟩
  case taken =>
    rintro e lvl esc y z m he hl hy hz hm
    have recd : recorded e lvl esc (freeEntry s) (siltTaken e (fresh s)) = m := by
      subst hy hz hm
      rfl
    have acts : ∀ {v}, levelAction e lvl m = v → exec .faultRaised s = .next (after s v) := fun h =>
      run_of ((takeNext_takes (s := fresh s) he hl).trans ((congrArg (levelAction e lvl) recd).trans h))
    obtain ⟨hstart, hl3, hsafe⟩ := standing_iff.mp (recd ▸ recorded_standing e lvl esc (freeEntry s) (siltTaken e (fresh s)) : standing m = standing s)
    clear hy hz hm recd
    refine ⟨fun h => ?noAction, ?frozen, ?stopped, ?safe⟩
    case noAction => rcases h with rfl | rfl <;> exact acts rfl
    case frozen =>
      rintro p x y2 rfl hp hx hy
      have freezes : levelAction e .l2 m = freezePlot p e.code m := by simp only [levelAction, hp]
      exact acts (freezes.trans (freezePlot_freezes hx hy))
    case stopped =>
      rintro rfl
      have holding : holds m e.code = holds s e.code := by rw [holds, hstart, holds]
      refine ⟨fun h => ?_, fun x y2 y3 hh h3 hs hx hy hz => ?_⟩
      · rcases h with h | h
        · exact acts (if_pos (holding.trans h))
        · rw [← hl3, ← hsafe] at h
          exact acts ((congrArg (ite _ m) (enterL3_entered e.code h)).trans (ite_self m))
      · have free : ¬ holds m e.code = true := by rw [holding, hh]; exact Bool.false_ne_true
        exact acts ((if_neg free).trans (enterL3_stops (hl3.trans h3) (hsafe.trans hs) hx hy hz))
    case safe =>
      rintro rfl
      exact ⟨fun h => acts (if_pos (hsafe.trans h)), fun x y2 y3 hs hx hy hz => acts (enterSafe_stops (hsafe.trans hs) hx hy hz)⟩
  case full =>
    rw [openEntry_full h]
    cases hn : s.flt.fullNoted with
    | true => simp [noteIf]
    | false => simp [noteIf, raise, raiseEv]
  case ack =>
    rintro hw c mine es (⟨rfl, h5, rfl⟩ | ⟨rfl, h5, rfl⟩) he
    · have one : ∀ i, (bitAt w 5 || i == fld w 0 5) = decide (i = fld w 0 5) := fun i => by rw [h5]; rfl
      exact execFltAck_writes hw h5 (fltAckW_eq (s := fresh s) one he)
    · have all : ∀ i, (bitAt w 5 || i == fld w 0 5) = true := fun i => by rw [h5]; rfl
      exact execFltAckAll_writes hw h5 (fltAckW_eq (s := fresh s) all he)
  case lost => exact act_of (cpRead_readable hr readLost)

/-- Settles O52: each clause is the lemma of the request, of the reset that acts, or of the pin. -/
theorem resetsAreRequestedAndAct : Obligations.ResetsAreRequestedAndAct := by
  unfold Obligations.ResetsAreRequestedAndAct
  rintro s u sv d w rfl rfl
  refine ⟨fun hw => ⟨fun hd => ⟨fun r h1 hq hr => ?cold, fun r h0 h1 hs hi hq hr => ?warm, fun h0 h1 hs => ?warmRefused,
      fun h2 h1 h0 hs => ⟨fun hm hb hx => ?cycle, fun h => ?cycleRefused⟩⟩, fun hd c hc => ?absent⟩,
    fun r hq hr => ⟨fun hk => ?actsWarm, fun hk => ?actsCold⟩, fun r y => ?warmed, fun t go keep y => ?cooled,
    fun r hw hc hs hi hq hr => ?warmPin, fun h => ?release, fun hw hc h0 hr hq hs => ?releaseBegins, fun h hc => ?pulse,
    fun c hc => ?power, fun ties => ⟨fun h => ?coldLow, fun h => ?coldHigh⟩⟩
  case cold => exact run_resetWrite hw h1 ((resetCtlW_cold (s := fresh s) hd h1).trans (requestReset_cold hq hr))
  case warm =>
    have asked := (resetCtlW_warm (s := fresh s) hd h1 h0).trans (if_neg (Bool.eq_false_iff.mp hs))
    exact run_resetWrite hw h0 (asked.trans (requestReset_warm hs hi hq hr))
  case warmRefused => exact run_resetWrite hw h0 ((resetCtlW_warm (s := fresh s) hd h1 h0).trans (if_pos hs))
  case cycle =>
    refine run_resetWrite hw h2 ((resetCtlW_domCycle (s := fresh s) hd h1 h0 h2 hs).trans (if_neg ?_))
    have free : (!mayCycle s (fld w 3 7) || s.glb.cycBusy || (getDom s (fld w 3 7)).req != (getDom s (fld w 3 7)).ack) = false := by
      simp [hm, hb, hx]
    exact Bool.eq_false_iff.mp free
  case cycleRefused =>
    refine run_resetWrite hw h2 ((resetCtlW_domCycle (s := fresh s) hd h1 h0 h2 hs).trans (if_pos ?_))
    have taken : (!mayCycle s (fld w 3 7) || s.glb.cycBusy || (getDom s (fld w 3 7)).req != (getDom s (fld w 3 7)).ack) = true := by
      simpa [or_assoc] using h
    exact taken
  case absent =>
    have refused := resetCtlW_absent (s := fresh s) hd
    rcases hc with ⟨rfl, hk⟩ | ⟨rfl, hk⟩ | ⟨rfl, hk⟩ <;> exact run_resetWrite hw hk refused
  case actsWarm => exact act_of (resetActs_warm (s := fresh s) hq hr hk)
  case actsCold => exact act_of (resetActs_cold (s := fresh s) hq hr hk)
  case warmed => exact ⟨rfl, rfl, rfl, rfl, rfl, rfl, rfl, rfl, rfl, rfl, actWarm_keeps r y⟩
  case cooled => exact ⟨rfl, rfl, rfl, rfl, rfl, rfl, rfl, rfl, rfl, rfl, rfl, rfl⟩
  case warmPin => exact run_of ((warmInput_low (s := fresh s) hw hc).trans (requestReset_warm hs hi hq hr))
  case release => exact act_of (warmReleased_running (s := fresh s) h)
  case releaseBegins => exact act_of (warmReleased_begins (s := fresh s) hw hc h0 hr hq hs)
  case pulse =>
    have noted : (decide (2 ≤ s.start.state) && s.glb.coldPin) = true := by simp [h, hc]
    exact act_of (if_pos noted)
  case power =>
    have lost : exec c s = .next (ended s (powerLost (fresh s))) := by rcases hc with rfl | rfl <;> exact act_next powerLost s
    exact ⟨_, lost, rfl, rfl, rfl, rfl, rfl, rfl, rfl, powerLost_doms (fresh s)⟩
  case coldLow => exact ⟨_, act_of (coldInput_low (s := fresh s) ties h), rfl, rfl, rfl, rfl, rfl, rfl, rfl⟩
  case coldHigh => exact ⟨_, act_of (coldInput_high (s := fresh s) ties h), rfl, rfl, rfl, rfl, rfl, rfl, rfl⟩

/-- Settles O55: each clause is the lemma of the request, the handshake, the gate, the pin or the lock. -/
theorem powerFollowsItsRules : Obligations.PowerFollowsItsRules := by
  unfold Obligations.PowerFollowsItsRules
  rintro s u sv d w x rfl rfl
  refine ⟨?request, fun lev hd hl => ⟨fun hr => ?asked, fun hr hn => ?unasked⟩, ?late, fun b hb hg hd ho hr ha hi hid hrun hc hp => ?gated,
    act_of rfl, fun hl hc => ?heat, fun hl h2 hp => ?heatLimit, fun hl => ?droopEnds, fun hl hc => ?droop, fun t ht hp => ?droopOver,
    fun hl hp => ⟨fun hh => ?refLost, fun hh => ?refLostAgain⟩, fun k hk hp => ?coreLost⟩
  case request =>
    rintro rfl hw h8 y rfl
    have writes : ∀ {v}, domReqW w (fresh s) = v → exec (.pwrDomReq sv w) s = .next (after s (cpAnswer sv 0 0 v)) :=
      fun h => execPwrDomReq_writes hw h8 h
    refine ⟨fun h => writes (domReqW_barred (s := fresh s) h8 h), fun hd hc hb hx => ?_⟩
    have free := domReqW_free (s := fresh s) h8 (not_domBarred hd hc hb hx)
    refine ⟨fun h7 hr => ?_, fun h7 hr => ?_, fun h7 hr ho => ?_, fun h7 hr ho => ?_⟩
    · exact writes (free.trans ((if_pos h7).trans (if_neg (Bool.eq_false_iff.mp hr))))
    · exact writes (free.trans ((if_pos h7).trans (if_pos hr)))
    all_goals
      have off : ¬ (!(getDom s (fld w 0 7)).req) = true := by simp [hr]
      have turned := free.trans ((if_neg (Bool.eq_false_iff.mp h7)).trans (if_neg off))
    · exact writes (turned.trans (if_pos ((offAllowed_fresh s _).trans ho)))
    · exact writes (turned.trans (if_neg (Bool.eq_false_iff.mp ((offAllowed_fresh s _).trans ho))))
  case asked => exact ⟨_, run_of (powerAck_asked (s := fresh s) hd hl hr), rfl⟩
  case unasked => exact run_of (powerAck_unasked (s := fresh s) hd hl hr hn)
  case late =>
    rintro hd hx hl hp hs y rfl
    exact run_of (ackTimeout_fails (s := fresh s) hd hx hl hp hs)
  case gated => exact run_of (selfGate_gates (s := fresh s) hb hg hd ho hr ha hi hid hrun hc hp)
  case heat => exact act_of (thermPin_falls (s := fresh s) hl hc)
  case heatLimit => exact act_of (thermLate_notes (s := fresh s) hl h2 hp)
  case droopEnds => exact act_of (droopPin_rises (s := fresh s) hl)
  case droop => exact act_of (droopPin_falls (s := fresh s) hl hc)
  case droopOver => exact act_of (droopOver_ends (s := fresh s) ht hp)
  case refLost => exact act_of ((refLost_past (s := fresh s) hl hp).trans (holdover_enters hh))
  case refLostAgain => exact act_of ((refLost_past (s := fresh s) hl hp).trans (holdover_again hh))
  case coreLost => exact act_of (coreLost_past (s := fresh s) hk hp)

end Sys2Proof.Proofs
end

section
/-! SUPPORT. The start, observation and boundary family: the form of buffer SRAM, trace records, counters and rings, the Sundial's
exchanges, the memory ports' answers and test access, with the statements that they settle. -/

namespace Sys2Proof.Laws

open Sys2Proof.Machine

/-! ### Buffer SRAM keeps its form (R454; log 2) -/

section
variable {s : State}

/-- At a command's end the bytes it wrote join the buffer, and no write is left over. -/
theorem memInv_ended (u : State) (h : s.MemInv) : (ended s u).MemInv := by
  obtain ⟨hform, -⟩ := h
  exact ⟨(congrArg Memory.wf (ended_sram s u)).trans (writeAll_wf u.wlog s.sram hform), ended_wlog s u⟩

theorem memInv_noteIf (b : Bool) (code : Nat) (h : s.MemInv) : (noteIf b code s).MemInv := by
  unfold noteIf
  split
  · exact h
  · exact h

theorem memInv_countSrc (src unit n : Nat) (h : s.MemInv) : (countSrc src unit n s).MemInv := memInv_noteIf (s := { s with obs := _ }) _ _ h

theorem memInv_domIdleTick (h : s.MemInv) : (domIdleTick s).MemInv := by
  unfold domIdleTick
  refine List.foldlRecOn _ _ h fun t ht d _ => ?_
  split
  · exact ht
  · exact ht

theorem memInv_waitTick (h : s.MemInv) : (waitTick s).MemInv := by
  unfold waitTick
  refine List.foldlRecOn _ _ h fun t ht e _ => ?_
  split
  · exact memInv_countSrc _ _ _ ht
  · exact ht

/-- Time alone writes no byte of the buffer (log 3). -/
theorem memInv_tick (h : s.MemInv) : (tick s).MemInv := by
  have sun : (modSun sunTick s).MemInv := h
  exact memInv_waitTick (memInv_domIdleTick sun)

end

/-! ### NOP, HALT, BREAK and MARK (R82, R87, R88, R483) -/

section
variable {s : State} {w : BitVec 256}

/-- A disabled trace ring takes no record. -/
theorem pushTrace_off (h : bitAt s.obs.trcCtl 0 = false) : pushTrace w s = s := by
  have off : (!bitAt s.obs.trcCtl 0) = true := by rw [h]; rfl
  exact if_pos off

/-- An enabled trace ring takes a record at its producer's place. -/
theorem pushTrace_on (h : bitAt s.obs.trcCtl 0 = true) : (pushTrace w s).obs.trcProd = s.obs.trcProd + 1
    ∧ (pushTrace w s).obs.trc = s.obs.trc.set (s.obs.trcProd.toNat % 2048) w := by
  have on : ¬ (!bitAt s.obs.trcCtl 0) = true := by rw [h]; exact Bool.false_ne_true
  unfold pushTrace
  simp only [if_neg on, and_self]

theorem furOnly_pushTrace (f : Nat) (w : BitVec 256) (s : State) : FurOnly f s (pushTrace w s) := by
  unfold pushTrace
  simp only
  split
  · exact .rfl
  · exact furOnly_obs f _ s

@[simp] theorem getFur_pushTrace (w : BitVec 256) (s : State) (n : Nat) : getFur (pushTrace w s) n = getFur s n := by
  unfold pushTrace
  simp only
  split <;> rfl

/-- The Silt events of a command's end leave the trace ring. -/
@[simp] theorem ended_trc (s u : State) : (ended s u).obs.trc = u.obs.trc := by obtain ⟨o, h⟩ := ended_eq s u; rw [h]
@[simp] theorem ended_trcProd (s u : State) : (ended s u).obs.trcProd = u.obs.trcProd := by obtain ⟨o, h⟩ := ended_eq s u; rw [h]

end

/-! ### Registers of the observation unit (R473, R482, R492, R493, R496) -/

section
variable {s v : State} {sv addr : Nat} {w d : Word} {f : State → State}

/-- A write that is the event's own, as its acting bit says, leaves the register's effect and an answer of status 0. -/
theorem act_cpWriteIf {acts : Bool} (ha : acts = true) (hw : Writable s sv addr) (h : f (fresh s) = v) :
    act (fun s => if acts then cpWrite sv addr f s else s) s = .next (ended s (cpAnswer sv 0 0 v)) :=
  act_of ((if_pos ha).trans ((cpWrite_writable hw f).trans (congrArg (cpAnswer sv 0 0) h)))

/-- A read that is answered with a value and leaves a latch. -/
theorem act_cpRead {r : State → Word × State} (hr : Readable s sv addr) (h : r (fresh s) = (d, v)) :
    act (cpRead sv addr r) s = .next (ended s (cpAnswer sv 0 d v)) :=
  act_of ((cpRead_readable hr r).trans (by rw [h]))

/-- A change of every listed entry that leaves the default alone changes what every key reads. -/
theorem at_mapVals {α : Type} [Inhabited α] {g : α → α} (h : g default = default) (t : Tbl α) (k : Nat) :
    (t.mapVals (fun _ x => g x)).at k = g (t.at k) := by
  induction t with
  | nil => exact h.symm
  | cons e r ih =>
    obtain ⟨j, x⟩ := e
    by_cases hj : j = k
    · simp [Tbl.mapVals, Tbl.at, Tbl.getD, hj]
    · simpa [Tbl.mapVals, Tbl.at, Tbl.getD, hj] using ih

/-- A counter that is snapped: its snapshot is its count, with the tag of that moment (R493). -/
def snappedCnt (c : Cnt) : Cnt := { c with snap := c.count, snapTag := c.tag }

/-- A counter that is cleared: its selection, latches and snapshot stand (R496). -/
def clearedCnt (c : Cnt) : Cnt := { c with count := 0, tag := 0, ovf := false }

/-- A write of snap alone copies every counter and its tag, and the Sundial's time (R493). -/
theorem cntCtlW_snap (h0 : bitAt w 0 = true) (h1 : bitAt w 1 = false) : cntCtlW w s = { s with obs := { s.obs with
    snapTime := s.sun.time, cnt := s.obs.cnt.mapVals (fun _ c => snappedCnt c) } } := by
  simp only [cntCtlW, h0, h1, if_true, Bool.false_eq_true, if_false, modObs, snappedCnt]

/-- A write of clear alone zeroes every counter, its tag and its flag (R496). -/
theorem cntCtlW_clear (h1 : bitAt w 1 = true) (h0 : bitAt w 0 = false) : cntCtlW w s = { s with obs := { s.obs with
    cnt := s.obs.cnt.mapVals (fun _ c => clearedCnt c) } } := by
  simp only [cntCtlW, h0, h1, if_true, Bool.false_eq_true, if_false, modObs, clearedCnt]

/-- A ring that the build has is selected (R482). -/
theorem siltSelW_present (h : (fld w 0 3, fld w 3 8) ∈ siltUnits s) :
    siltSelW w s = { s with obs := { s.obs with siltSel := w &&& 0x17FF, frozenSince := s.clk } } :=
  if_pos (List.contains_iff_mem.mpr h)

theorem siltSelW_absent (h : (fld w 0 3, fld w 3 8) ∉ siltUnits s) : siltSelW w s = raise 0x9F0 s :=
  if_neg (mt List.contains_iff_mem.mp h)

/-- A frozen ring thaws once its 10 ms have passed (R482). -/
theorem siltThaw_due (hz : bitAt s.obs.siltSel 12 = true) (hc : s.obs.frozenSince + 10000000 ≤ s.clk) :
    siltThaw s = { s with obs := { s.obs with siltSel := s.obs.siltSel &&& 0x7FF } } := by
  have due : (bitAt s.obs.siltSel 12 && passed s s.obs.frozenSince 10000000) = true := by simp [hz, passed, hc]
  exact if_pos due

end

/-! ### The Sundial's exchanges (R488-R490, R496) -/

section
variable {s : State} {l plot t : Nat} {p : Packet}

@[simp] theorem isMesh_taken : isMesh (taken s l p) l = isMesh s l := by rw [isMesh, e64_taken, ← isMesh]

@[simp] theorem taken_sun : (taken s l p).sun = s.sun := by rw [taken_eq]

/-- The state in which a message has told of its sender (R489). -/
theorem hearSun_taken : hearSun p (taken s l p)
    = { taken s l p with sun := { s.sun with peers := s.sun.peers.set p.src (p.ar 17 1 % 8) } } := by
  rw [hearSun, modSun, taken_sun]

/-- An endpoint's exchange period ends with a sync to each partner (R489). -/
theorem syncTick_due (hs : s.sun.state ≠ .free) (hp : s.sun.lastSync + sunPeriod s ≤ s.clk) (he : e64 s = true) {y : State}
    (hy : y = { s with sun := { s.sun with lastSync := s.clk } }) : syncTick s
      = (sunPartners y).foldl (fun z n => sendMgmt n [(16, 1, 0x20), (17, 1, sunTells z)] (supersede n 0x20 0 z)) y := by
  subst hy
  have due : ¬ (s.sun.state = .free ∨ (!passed s s.sun.lastSync (sunPeriod s)) = true) := by simp [hs, passed, hp]
  unfold syncTick
  simp only [if_neg due, he, if_true, modSun]

theorem takeSync_mesh (hp : Arrives s l p 0x60 plot) (ht : p.ar 16 1 = 0x20) (hm : isMesh s l = true) :
    takeSync l p t (fresh s) = mgmtAnswer p 0x62 2 (taken s l p) := by
  rw [takeSync, mgmtArrival_arrives hp ht, isMesh_taken, if_pos hm]
  rfl

/-- A sync off the mesh is answered with a reply that repeats its first time and tells the times of its arrival (R489). -/
theorem takeSync_answered (hp : Arrives s l p 0x60 plot) (ht : p.ar 16 1 = 0x20) (hm : isMesh s l = false) {y : State}
    (hy : y = { taken s l p with sun := { s.sun with peers := s.sun.peers.set p.src (p.ar 17 1 % 8) } }) :
    takeSync l p t (fresh s) = mgmtAnswer p 0x61 0
      (sendMgmt p.src [(16, 1, 0x21), (17, 1, sunTells y), (20, 8, p.ar 20 8), (28, 8, t)] (supersede p.src 0x21 0 y)) := by
  rw [takeSync, mgmtArrival_arrives hp ht, isMesh_taken, if_neg (Bool.eq_false_iff.mp hm), hearSun_taken, ← hy]
  rfl

section
variable (hp : Arrives s l p 0x60 plot) (ht : p.ar 16 1 = 0x21) (hm : isMesh s l = false) {y : State}
  (hy : y = { taken s l p with sun := { s.sun with peers := s.sun.peers.set p.src (p.ar 17 1 % 8) } })
include hp ht hm hy

/-- A reply of a node that is no partner is heard and used for nothing (R490). -/
theorem takeSyncReply_stranger (hn : p.src ∉ sunPartners y) : takeSyncReply l p t (fresh s) = mgmtAnswer p 0x61 0 y := by
  have stranger : (!(sunPartners y).contains p.src) = true := by simp [hn]
  rw [takeSyncReply, mgmtArrival_arrives hp ht, isMesh_taken, if_neg (Bool.eq_false_iff.mp hm), hearSun_taken, ← hy]
  simp only [if_pos stranger]
  rfl

/-- A partner's reply is taken: an endpoint uses its offset, a plane keeps it for its round (R489, R490). -/
theorem takeSyncReply_partner (hn : p.src ∈ sunPartners y) : takeSyncReply l p t (fresh s) = mgmtAnswer p 0x61 0
    (if e64 s then useOffset (replyOffset p t) { y with sun := { y.sun with lastReply := s.clk } }
     else { y with sun := { y.sun with lastReply := s.clk, replies := s.sun.replies.set p.src (replyOffset p t) } }) := by
  have partner : ¬ (!(sunPartners y).contains p.src) = true := by simp [hn]
  have hreplies : y.sun.replies = s.sun.replies := by rw [hy]
  have hclk : y.clk = s.clk := by rw [hy]; exact taken_clk s l p
  have hbuild : e64 (modSun (fun x => { x with lastReply := y.clk }) y) = e64 s := by rw [hy]; exact e64_taken s l p
  rw [takeSyncReply, mgmtArrival_arrives hp ht, isMesh_taken, if_neg (Bool.eq_false_iff.mp hm), hearSun_taken, ← hy]
  simp only [if_neg partner, hbuild]
  simp only [modSun, hreplies, hclk, if_true]

end

/-- Without a reply for 10 ms the Sundial goes into Holdover (R490). -/
theorem holdoverLate_enters (hs : s.sun.state = .locked ∨ s.sun.state = .locking) (hd : e64 s = true ∨ sunDepth s ≠ 0)
    (hr : inRun s = true) (hc : s.sun.lastReply + 10000000 ≤ s.clk) : holdoverLate s
      = raise 0x920 { s with sun := { s.sun with state := .holdover, holdoverEvt := true, good := 0 } } := by
  have late : passed s s.sun.lastReply 10000000 = true := decide_eq_true hc
  have steady : s.sun.state ≠ .holdover := by rcases hs with h | h <;> simp [h]
  exact (if_pos ⟨hs, hd, hr, late⟩).trans (holdover_enters steady)

theorem setSource_other {n : Nat} (h : n ≠ s.sun.source) :
    setSource n s = { s with sun := { s.sun with source := n, good := 0, replies := [] } } := if_neg h

end

/-! ### The memory ports (R518, R521, R524, R525, R527, R532, R538) -/

section
variable {s : State} {port : Nat} (hup : PortUp s port)
include hup

/-- An answer whose tag is not outstanding frees a quarantined tag, and is an error else (R521, R532). -/
theorem orBeat_unasked {k : Nat} {b : OrBeat} (hk : b.kind.toNat = k) (ht : (s.mp.ports.at port).tags.lookup b.tag.toNat = none) :
    orBeat k port b s = if (s.mp.ports.at port).quar.contains b.tag.toNat
      then modPort port (fun p => { p with quar := p.quar.filter (fun t => t != b.tag.toNat) }) s else outboundFault 0x246 port s := by
  obtain ⟨he, hn, hu⟩ := hup
  simp only [orBeat, he, hn, hu, hk, ht, decide_true, BEq.rfl, Bool.and_self, Bool.not_true, Bool.false_eq_true, if_false]

/-- An answer of the kind that its access waits for ends the access, or fails it (R521, R525, R538). -/
theorem orBeat_answers {k : Nat} {b : OrBeat} {t : Tag} (hk : b.kind.toNat = k)
    (ht : (s.mp.ports.at port).tags.lookup b.tag.toNat = some t) (ha : t.acc.kind.answer = k) : orBeat k port b s
      = if !orParityOk b then failAcc port b.tag.toNat t.acc (outboundFault 0x247 port s)
        else if b.status then failAcc port b.tag.toNat t.acc s else endAcc port b.tag.toNat t.acc b.data s := by
  obtain ⟨he, hn, hu⟩ := hup
  simp only [orBeat, he, hn, hu, hk, ht, ha, decide_true, BEq.rfl, Bool.and_self, Bool.not_true, Bool.false_eq_true, if_false, ne_eq,
    not_true_eq_false]

theorem mpCredit_up (od : Bool) : mpCredit port od s
    = if 1023 ≤ (if od then (s.mp.ports.at port).od else (s.mp.ports.at port).oq) then outboundFault 0x245 port s
      else if od then modPort port (fun p => { p with od := p.od + 1, gotOd := satInc 32 p.gotOd }) s
      else modPort port (fun p => { p with oq := p.oq + 1, gotOq := satInc 32 p.gotOq }) s := by
  obtain ⟨he, hn, hu⟩ := hup
  have up : ¬ (!(e64 s && decide (port < 16) && (s.mp.ports.at port).up)) = true := by simp [he, hn, hu]
  exact if_neg up

/-- Too few initial credits of a kind 10 us after the port came up are noted once (R524). -/
theorem initialExpiry_notes (hc : (s.mp.ports.at port).upSince + 10000 ≤ s.clk) (hn : (s.mp.ports.at port).noted249 = false)
    (hg : (s.mp.ports.at port).gotOq < 32 ∨ (s.mp.ports.at port).gotOd < 32) : initialExpiry port s = memErr 0x249 port 0
      (raiseEv { code := 0x249, level := .l3, unit := port } (modPort port (fun p => { p with noted249 := true }) s)) := by
  obtain ⟨he, hp, hu⟩ := hup
  refine if_pos ?_
  simp [he, hp, hu, passed, hc, hn, hg]

end

section
variable {s : State} {port tag : Nat}

/-- An access that is no lock read ends with its line: its tag is free and its work is finished (R521). -/
theorem endAcc_finishes {a : Access} (h : a.kind ≠ .lockRead) (l : Line) : endAcc port tag a l s = finishAcc a false l
    (modPort port (fun p => { p with tags := p.tags.filter (fun e => e.1 != tag) }) (countMoved port a s)) := by
  unfold endAcc
  split
  · exact absurd ‹_› h
  · rfl

/-- A lock read ends with the unlock write (R527). -/
theorem endAcc_unlocks {a : Access} {job : Nat} (h : a.kind = .lockRead) (hj : a.what = .lock job) (l : Line) :
    endAcc port tag a l s = unlockOf port tag a job l (countMoved port a s) := by
  unfold endAcc
  simp only [h, hj]

theorem respExpiry_due {t : Tag} (ht : (s.mp.ports.at port).tags.lookup tag = some t)
    (hc : t.since + fld s.mp.cfg 1 15 * 1000 ≤ s.clk) : respExpiry port tag s = modPort port (fun p => { p with quar := tag :: p.quar })
      (failAcc port tag t.acc (outboundFault 0x248 port s)) := by
  rw [respExpiry, ht]
  exact if_pos (decide_eq_true hc)

/-- A change of several ports is a change of the table of ports alone. -/
theorem foldl_modPort (g : MPort → MPort) (ps : List Nat) : ∀ s : State, ps.foldl (fun s p => modPort p g s) s
    = { s with mp := { s.mp with ports := ps.foldl (fun t p => t.mod p g) s.mp.ports } } := by
  induction ps with
  | nil => exact fun s => rfl
  | cons p r ih => exact fun s => ih (modPort p g s)

/-- Every port below `k` is down once each has been taken down. -/
theorem foldl_portDown {k n : Nat} (h : n < k) (t : Tbl MPort) :
    (((List.range k).foldl (fun t p => t.mod p (fun x => { x with up := false })) t).at n).up = false := by
  induction k with
  | zero => omega
  | succ k ih =>
    rw [List.range_succ, List.foldl_append, List.foldl_cons, List.foldl_nil]
    by_cases hn : n = k
    · rw [hn, at_mod_self]
    · rw [at_mod_other _ _ _ _ hn]
      exact ih (by omega)

/-- MP_CLK's loss takes every port down and is noted (R518). -/
theorem mpClkLost_notes (he : e64 s = true) (hc : s.pwr.mpClkOk = true) :
    ∃ down : Tbl MPort, (∀ n < 16, (down.at n).up = false) ∧ mpClkLost s
      = raise 0x24B { s with pwr := { s.pwr with mpClkOk := false }, mp := { s.mp with ports := down } } := by
  refine ⟨_, fun n hn => foldl_portDown hn s.mp.ports, ?_⟩
  unfold mpClkLost
  rw [if_pos ⟨he, hc⟩, foldl_modPort]

end

/-! ### Test access (R535-R537) -/

section
variable {s : State} {bypass f : State → State}

theorem testOnly_enabled (h : s.glb.ties.tstEn = true) : testOnly bypass f s = f s := if_pos h

theorem testOnly_refused (h : s.glb.ties.tstEn = false) : testOnly bypass f s = raise 0x871 (bypass s) :=
  if_neg (Bool.eq_false_iff.mp h)

end

end Sys2Proof.Laws

namespace Sys2Proof.Proofs

open Sys2Proof.Machine Sys2Proof.Laws

/-- Settles O3: time writes no byte of the buffer, and a command ends with its bytes written in their places. -/
theorem stepKeepsBufferForm : Obligations.StepKeepsBufferForm := by
  unfold Obligations.StepKeepsBufferForm
  intro s t hinv hstep
  cases hq : s.pending with
  | nil =>
    have idle : step s = .next (tick s) := by simp only [step, hq]
    obtain rfl := Host.Outcome.next.inj (idle.symm.trans hstep)
    exact memInv_tick hinv
  | cons c r =>
    have runs : step s = exec c { s with pending := r } := stepRunsFrontCommand s c r hq
    obtain ⟨u, hends⟩ := exec_ends c { s with pending := r }
    obtain rfl := Host.Outcome.next.inj (hends.symm.trans (runs.symm.trans hstep))
    exact memInv_ended u hinv

/-- Settles O7: each of the four commands issues at once, and what it does beyond that is its own furrow's state or the trace ring. -/
theorem nopHaltBreakMarkComplete : Obligations.NopHaltBreakMarkComplete := by
  unfold Obligations.NopHaltBreakMarkComplete
  refine ⟨fun s f r hr => ?nop, fun s f r hr => ?halt, fun s f r hr => ?brk, fun s f r hr => ?mark⟩
  case nop => exact act_fur (withCmd_issues hr _) (furOnly_issueNow ..) (getFur_issueNow_self ..)
  case halt =>
    refine act_fur (withCmd_issues hr _) ((furOnly_issueNow ..).trans (furOnly_modFur ..)) ?_
    rw [getFur_modFur_self, getFur_issueNow_self, getFur_fresh]
  case brk =>
    refine act_fur (withCmd_issues hr _) ((furOnly_issueNow ..).trans ((furOnly_stopFur ..).trans (furOnly_modFur ..))) ?_
    rw [getFur_modFur_self, stopFur, getFur_modFur_self, getFur_issueNow_self, getFur_fresh]
    rfl
  case mark =>
    refine ⟨_, act_of (withCmd_issues hr _), ((furOnly_pushTrace ..).trans (furOnly_issueNow ..)).ended, ?_, fun hoff => ?_, fun hon => ?_⟩
    · rw [getFur_ended, getFur_issueNow_self, getFur_pushTrace, getFur_fresh]
    · rw [ended_trc, ended_trcProd, pushTrace_off (s := fresh s) hoff]
      exact ⟨rfl, rfl⟩
    · rw [ended_trc, ended_trcProd]
      exact pushTrace_on (s := fresh s) hon

/-- Settles O56: each register's command has the effect of that register's rule, and is answered. -/
theorem observationRegistersAct : Obligations.ObservationRegistersAct := by
  unfold Obligations.ObservationRegistersAct
  rintro s u sv k w rfl
  refine ⟨fun hw => ⟨fun h0 h1 => ?snap, fun h1 h0 => ?clear⟩, fun hk hr => ?count, fun hr => ?time,
    fun hw => ⟨fun hs => ?ring, fun hs => ?noRing⟩, fun hz hc => ?thaw, fun hw h0 => ?rearm⟩
  case snap => exact ⟨_, act_cpWriteIf h0 hw (cntCtlW_snap (s := fresh s) h0 h1), rfl, at_mapVals (g := snappedCnt) rfl s.obs.cnt⟩
  case clear => exact ⟨_, act_cpWriteIf h1 hw (cntCtlW_clear (s := fresh s) h1 h0), rfl, at_mapVals (g := clearedCnt) rfl s.obs.cnt⟩
  case count => exact act_of ((if_pos hk).trans (cpRead_readable hr (readCntLo k)))
  case time => exact act_cpRead hr rfl
  case ring => exact act_cpWrite hw (siltSelW_present (s := fresh s) hs)
  case noRing => exact act_cpWrite hw (siltSelW_absent (s := fresh s) hs)
  case thaw => exact act_of (siltThaw_due (s := fresh s) hz hc)
  case rearm => exact act_cpWriteIf h0 hw rfl

/-- Settles O57: each clause is the lemma of the tick, the message or the register. -/
theorem sundialExchangesTimes : Obligations.SundialExchangesTimes := by
  unfold Obligations.SundialExchangesTimes
  rintro s u v l plot t sv p w rfl rfl
  refine ⟨fun hs hp he y hy => ?tick, fun hp ht => ⟨fun hm => ?meshed, fun hm y hy => ?sync⟩,
    fun hp ht hm y hy => ⟨fun hn => ?stranger, fun hn he => ?endpoint, fun hn he => ?plane⟩, fun hs hd hr hc => ?holdover,
    fun hw => ⟨fun hn => ?moved, fun hn => ?same⟩⟩
  case tick => exact act_of (syncTick_due (s := fresh s) hs hp he hy)
  case meshed => exact run_of (takeSync_mesh hp ht hm)
  case sync => exact run_of (takeSync_answered hp ht hm hy)
  case stranger => exact run_of (takeSyncReply_stranger hp ht hm hy hn)
  case endpoint => exact run_of ((takeSyncReply_partner hp ht hm hy hn).trans (congrArg (mgmtAnswer p 0x61 0) (if_pos he)))
  case plane =>
    exact run_of ((takeSyncReply_partner hp ht hm hy hn).trans (congrArg (mgmtAnswer p 0x61 0) (if_neg (Bool.eq_false_iff.mp he))))
  case holdover => exact act_of (holdoverLate_enters (s := fresh s) hs hd hr hc)
  case moved => exact act_cpWrite hw (setSource_other (s := fresh s) hn)
  case same => exact act_cpWrite hw (if_pos hn)

/-- Settles O37: the four rows of OR are one beat of their kind, and each clause is the lemma of the beat, the credit or the timer. -/
theorem memoryPortsTakeAnswersAndCredits : Obligations.MemoryPortsTakeAnswersAndCredits := by
  unfold Obligations.MemoryPortsTakeAnswersAndCredits
  rintro s v port b rfl hup
  refine ⟨fun c k hc hk => ?answer, fun h => ?request, fun h => ?data, fun h => ?excess, fun tag t ht h => ?late,
    fun hc hn hg => ?initial, fun hc => ?clock⟩
  case answer =>
    have row : ∀ {w}, orBeat k port b (fresh s) = w → exec c s = .next (after s w) := by
      simp only [List.mem_cons, Prod.mk.injEq, List.not_mem_nil, or_false] at hc
      obtain ⟨rfl, rfl⟩ | ⟨rfl, rfl⟩ | ⟨rfl, rfl⟩ | ⟨rfl, rfl⟩ := hc <;> exact run_of
    refine ⟨fun t ht ha => ?asked, fun ht => ?unasked⟩
    case asked =>
      have beat := orBeat_answers (s := fresh s) hup hk ht ha
      refine ⟨fun hpar hst => ?good, fun hpar hst => ?error, fun hpar => ?parity⟩
      · have ends := row (beat.trans ((if_neg (by simp [hpar])).trans (if_neg (by simp [hst]))))
        exact ⟨fun hl => ends.trans (by rw [endAcc_finishes hl]), fun job hl hj => ends.trans (by rw [endAcc_unlocks hl hj])⟩
      · exact row (beat.trans ((if_neg (by simp [hpar])).trans (if_pos hst)))
      · exact row (beat.trans (if_pos (by simp [hpar])))
    case unasked =>
      have beat := orBeat_unasked (s := fresh s) hup hk ht
      exact ⟨fun hq => row (beat.trans (if_pos hq)), fun hq => row (beat.trans (if_neg (Bool.eq_false_iff.mp hq)))⟩
  case request => exact run_of ((mpCredit_up (s := fresh s) hup false).trans (if_neg (Nat.not_le.mpr h)))
  case data => exact run_of ((mpCredit_up (s := fresh s) hup true).trans (if_neg (Nat.not_le.mpr h)))
  case excess => exact run_of ((mpCredit_up (s := fresh s) hup false).trans (if_pos h))
  case late => exact run_of (respExpiry_due (s := fresh s) ht h)
  case initial => exact act_of (initialExpiry_notes (s := fresh s) hup hc hn hg)
  case clock =>
    obtain ⟨he, -, -⟩ := hup
    obtain ⟨down, hdown, hlost⟩ := mpClkLost_notes (s := fresh s) he hc
    exact ⟨_, act_of hlost, hdown, rfl, _, rfl, rfl⟩

/-- Settles O58: with the test enable each test instruction has its own effect, and without it each is refused alike. -/
theorem testAccessFollowsItsModes : Obligations.TestAccessFollowsItsModes := by
  unfold Obligations.TestAccessFollowsItsModes
  rintro s u cells res q rfl rfl
  refine ⟨act_of rfl, act_of rfl, act_of rfl, act_of rfl, fun h => ?enabled, fun h => ?refused⟩
  case enabled =>
    have on : ∀ bypass f, testOnly bypass f (fresh s) = f (fresh s) := fun bypass f => testOnly_enabled h
    refine ⟨?_, act_of (on _ _), act_of (on _ _), act_of (on _ _), act_of (on _ _), act_of (on _ _), act_of (on _ _)⟩
    rintro c m z (⟨rfl, rfl⟩ | ⟨rfl, rfl⟩ | ⟨rfl, rfl⟩) rfl <;> exact run_of (on _ _)
  case refused =>
    have off : ∀ bypass f, testOnly bypass f (fresh s) = raise 0x871 (bypass (fresh s)) := fun bypass f => testOnly_refused h
    refine ⟨?_, ?_⟩
    · rintro c (rfl | rfl | rfl) <;> exact run_of (off _ _)
    · rintro c (rfl | rfl | rfl | rfl | rfl | rfl) <;> exact act_of (off _ _)

end Sys2Proof.Proofs
end

section
/-! SUPPORT. Words put together from fields: commands, headers, link words and payloads, and the statement that they settle. -/

namespace Sys2Proof.Laws

open Sys2Proof.Machine

/-! ### Words put together from fields (R67, R306, R322, R329) -/

/-- The number that fields of given widths spell, as (width, value) pairs, the lowest field first. -/
def packed : List (Nat × Nat) → Nat
  | [] => 0
  | (n, v) :: r => v + 2 ^ n * packed r

/-- Every value fits the width of its field. -/
def Fits (l : List (Nat × Nat)) : Prop := ∀ e ∈ l, e.2 < 2 ^ e.1

/-- The fields of given widths that a number holds. -/
def cut : List Nat → Nat → List (Nat × Nat)
  | [], _ => []
  | n :: r, v => (n, v % 2 ^ n) :: cut r (v >>> n)

theorem fits_cons {n v : Nat} {r : List (Nat × Nat)} : Fits ((n, v) :: r) ↔ v < 2 ^ n ∧ Fits r := by simp [Fits]

theorem fits_nil : Fits [] := fun _ h => nomatch h

/-- A field reads back from the number that the fields spell. -/
theorem field_packed {n v : Nat} : ∀ (l : List (Nat × Nat)) (i : Nat), Fits l → l[i]? = some (n, v) →
    packed l >>> ((l.map Prod.fst).take i).sum % 2 ^ n = v := by
  intro l
  induction l with
  | nil => exact fun _ _ h => nomatch h
  | cons e r ih =>
    obtain ⟨m, x⟩ := e
    intro i hf hi
    obtain ⟨hx, hr⟩ := fits_cons.mp hf
    cases i with
    | zero =>
      obtain ⟨rfl, rfl⟩ : m = n ∧ x = v := by simpa using hi
      simp [packed, Nat.mod_eq_of_lt hx]
    | succ i =>
      have low : (x + 2 ^ m * packed r) >>> m = packed r := by
        rw [Nat.shiftRight_eq_div_pow, Nat.add_mul_div_left _ _ (Nat.two_pow_pos m), Nat.div_eq_of_lt hx, Nat.zero_add]
      have := ih i hr (by simpa using hi)
      simpa [packed, Nat.shiftRight_add, low] using this

/-- The fields of a word stand each at the sum of the widths below it. -/
theorem packed_shiftLeft (n v k : Nat) (r : List (Nat × Nat)) : packed ((n, v) :: r) <<< k = v <<< k + packed r <<< (k + n) := by
  simp only [packed, Nat.shiftLeft_eq, Nat.pow_add]
  ring

theorem packed_nil_shiftLeft (k : Nat) : packed [] <<< k = 0 := Nat.zero_shiftLeft k

/-- The fields that a number holds spell its low bits. -/
theorem packed_cut (ns : List Nat) : ∀ v, packed (cut ns v) = v % 2 ^ ns.sum := by
  induction ns with
  | nil => intro v; simp [cut, packed, Nat.mod_one]
  | cons n r ih =>
    intro v
    rw [cut, packed, ih, List.sum_cons, Nat.pow_add, Nat.mod_mul, Nat.shiftRight_eq_div_pow]

/-- A field of a word below its width. -/
theorem fld_ofNat {w lo len : Nat} (v : Nat) (h : lo + len ≤ w) : fld (BitVec.ofNat w v) lo len = v >>> lo % 2 ^ len := by
  refine Nat.eq_of_testBit_eq (fun j => ?_)
  simp only [fld, BitVec.toNat_ofNat, Nat.testBit_mod_two_pow, Nat.testBit_shiftRight]
  by_cases hj : j < len
  · have : lo + j < w := by omega
    simp [hj, this]
  · simp [hj]

/-- A field of a word that fields were put into reads back. -/
theorem fld_packed {w lo n v : Nat} {l : List (Nat × Nat)} (hf : Fits l) (i : Nat) (hi : l[i]? = some (n, v))
    (hlo : ((l.map Prod.fst).take i).sum = lo) (hw : lo + n ≤ w) : fld (BitVec.ofNat w (packed l)) lo n = v := by
  rw [fld_ofNat _ hw, ← hlo, field_packed l i hf hi]

/-- The bits of a field, as the number that they spell. -/
theorem extract_of_fld {w lo len : Nat} {b : BitVec w} {v : BitVec len} (h : fld b lo len = v.toNat) : b.extractLsb' lo len = v :=
  BitVec.eq_of_toNat_eq (by rw [BitVec.extractLsb'_toNat]; exact h)

/-- One bit of a word, as the field that it is. -/
theorem fld_bit {w : Nat} (b : BitVec w) (i : Nat) : fld b i 1 = (b.getLsbD i).toNat := by
  rw [fld, ← BitVec.testBit_toNat, Nat.testBit_eq_decide_div_mod_eq, Nat.shiftRight_eq_div_pow]
  rcases Nat.mod_two_eq_zero_or_one (b.toNat / 2 ^ i) with h | h <;> simp [h]

theorem bit_of_fld {w i : Nat} {b : BitVec w} {x : Bool} (h : fld b i 1 = x.toNat) : b.getLsbD i = x := by
  rw [fld_bit] at h
  revert h
  cases b.getLsbD i <;> cases x <;> decide

/-! The layouts of the three words. -/

/-- The fields of a command's 32 bytes (R67). -/
def cmdFields (c : Cmd) : List (Nat × Nat) :=
  [(8, c.op), (8, c.flags.toNat), (16, c.layer), (16, c.oper), (16, c.id), (64, c.a.toNat), (64, c.b.toNat), (32, c.len), (8, c.d),
   (8, c.sel), (16, c.crc.toNat)]

/-- The fields of a packet's header flit, its version first (R322). -/
def headerFields (v : Nat) (p : Packet) : List (Nat × Nat) :=
  [(8, v), (8, p.kind), (3, p.vn), (3, p.pathVn), (1, p.row.toNat), (1, p.replay.toNat), (5, p.flits), (3, p.rowCh), (12, p.key),
   (4, p.gen), (16, p.src), (16, p.dst), (16, p.hint), (32, p.seq), (352, p.area.toNat), (32, p.crc.toNat)]

/-- The fields of a link word (R329). -/
def linkFields (w : LinkWord) : List (Nat × Nat) := [(8, w.seq), (1, w.replay.toNat), (1, w.idle.toNat), (2, w.kind), (8, w.arg)]

/-- The widths of a command's fields (R67). -/
def cmdWidths : List Nat := [8, 8, 16, 16, 16, 64, 64, 32, 8, 8, 16]

/-- The widths of a header's fields (R322). -/
def headerWidths : List Nat := [8, 8, 3, 3, 1, 1, 5, 3, 12, 4, 16, 16, 16, 32, 352, 32]

/-- The widths of a link word's fields (R329). -/
def linkWidths : List Nat := [8, 1, 1, 2, 8]

theorem encodeCmd_packed (c : Cmd) : encodeCmd c = BitVec.ofNat 256 (packed (cmdFields c)) := by
  rw [← Nat.shiftLeft_zero (n := packed (cmdFields c))]
  simp only [cmdFields, packed_shiftLeft, packed_nil_shiftLeft, Nat.reduceAdd]
  simp only [encodeCmd, Nat.shiftLeft_zero, Nat.add_assoc, Nat.add_zero]

theorem encodeHeader_packed (p : Packet) : encodeHeader p = BitVec.ofNat 512 (packed (headerFields 2 p)) := by
  unfold encodeHeader headerNat
  generalize (2 : Nat) = v
  rw [← Nat.shiftLeft_zero (n := packed (headerFields v p))]
  simp only [headerFields, packed_shiftLeft, packed_nil_shiftLeft, Nat.reduceAdd]
  simp only [Nat.shiftLeft_zero, Nat.add_assoc, Nat.add_zero]

theorem encodeLinkWord_packed (w : LinkWord) : encodeLinkWord w = BitVec.ofNat 20 (packed (linkFields w)) := by
  rw [← Nat.shiftLeft_zero (n := packed (linkFields w))]
  simp only [linkFields, packed_shiftLeft, packed_nil_shiftLeft, Nat.reduceAdd]
  simp only [encodeLinkWord, Nat.shiftLeft_zero, Nat.add_assoc, Nat.add_zero]

theorem cmdFields_fit {c : Cmd} (h : c.wf = true) : Fits (cmdFields c) := by
  simp only [Cmd.wf, Bool.and_eq_true, decide_eq_true_eq] at h
  obtain ⟨⟨⟨⟨⟨⟨hop, hlayer⟩, hoper⟩, hid⟩, hlen⟩, hd⟩, hsel⟩ := h
  simp only [cmdFields, fits_cons]
  exact ⟨hop, c.flags.isLt, hlayer, hoper, hid, c.a.isLt, c.b.isLt, hlen, hd, hsel, c.crc.isLt, fits_nil⟩

theorem headerFields_fit {p : Packet} (h : p.wf = true) : Fits (headerFields 2 p) := by
  simp only [Packet.wf, Bool.and_eq_true, decide_eq_true_eq] at h
  obtain ⟨⟨⟨⟨⟨⟨⟨⟨⟨⟨⟨hkind, hvn⟩, hpath⟩, hflits⟩, -⟩, hrow⟩, hkey⟩, hgen⟩, hsrc⟩, hdst⟩, hhint⟩, hseq⟩ := h
  simp only [headerFields, fits_cons]
  exact ⟨by decide, hkind, hvn, hpath, Bool.toNat_lt _, Bool.toNat_lt _, hflits, hrow, hkey, hgen, hsrc, hdst, hhint, hseq,
    BitVec.isLt _, p.crc.isLt, fits_nil⟩

theorem linkFields_fit {w : LinkWord} (h : w.wf = true) : Fits (linkFields w) := by
  simp only [LinkWord.wf, Bool.and_eq_true, decide_eq_true_eq] at h
  obtain ⟨⟨hseq, hkind⟩, harg⟩ := h
  simp only [linkFields, fits_cons]
  exact ⟨hseq, Bool.toNat_lt _, Bool.toNat_lt _, hkind, harg, fits_nil⟩

/-- A well-formed command reads back from its bytes (R67). -/
theorem decodeCmd_encodeCmd {c : Cmd} (h : c.wf = true) : decodeCmd (encodeCmd c) = c := by
  have field {lo n v : Nat} (i : Nat) (hi : (cmdFields c)[i]? = some (n, v)) (hlo : (cmdWidths.take i).sum = lo) (hw : lo + n ≤ 256) :
      fld (encodeCmd c) lo n = v := encodeCmd_packed c ▸ fld_packed (cmdFields_fit h) i hi hlo hw
  have hop : fld (encodeCmd c) 0 8 = c.op := field 0 rfl (by decide) (by decide)
  have hflags : (encodeCmd c).extractLsb' 8 8 = c.flags := extract_of_fld (field 1 rfl (by decide) (by decide))
  have hlayer : fld (encodeCmd c) 16 16 = c.layer := field 2 rfl (by decide) (by decide)
  have hoper : fld (encodeCmd c) 32 16 = c.oper := field 3 rfl (by decide) (by decide)
  have hid : fld (encodeCmd c) 48 16 = c.id := field 4 rfl (by decide) (by decide)
  have ha : (encodeCmd c).extractLsb' 64 64 = c.a := extract_of_fld (field 5 rfl (by decide) (by decide))
  have hb : (encodeCmd c).extractLsb' 128 64 = c.b := extract_of_fld (field 6 rfl (by decide) (by decide))
  have hlen : fld (encodeCmd c) 192 32 = c.len := field 7 rfl (by decide) (by decide)
  have hd : fld (encodeCmd c) 224 8 = c.d := field 8 rfl (by decide) (by decide)
  have hsel : fld (encodeCmd c) 232 8 = c.sel := field 9 rfl (by decide) (by decide)
  have hcrc : (encodeCmd c).extractLsb' 240 16 = c.crc := extract_of_fld (field 10 rfl (by decide) (by decide))
  rw [decodeCmd, hop, hflags, hlayer, hoper, hid, ha, hb, hlen, hd, hsel, hcrc]

/-- A well-formed header reads back from its flit (R322). -/
theorem decodeHeader_encodeHeader {p : Packet} (h : p.wf = true) : decodeHeader (encodeHeader p) = { p with payload := [] } := by
  have field {lo n v : Nat} (i : Nat) (hi : (headerFields 2 p)[i]? = some (n, v)) (hlo : (headerWidths.take i).sum = lo) (hw : lo + n ≤ 512) :
      fld (encodeHeader p) lo n = v := encodeHeader_packed p ▸ fld_packed (headerFields_fit h) i hi hlo hw
  have hkind : fld (encodeHeader p) 8 8 = p.kind := field 1 rfl (by decide) (by decide)
  have hvn : fld (encodeHeader p) 16 3 = p.vn := field 2 rfl (by decide) (by decide)
  have hpathVn : fld (encodeHeader p) 19 3 = p.pathVn := field 3 rfl (by decide) (by decide)
  have hrow : (encodeHeader p).getLsbD 22 = p.row := bit_of_fld (field 4 rfl (by decide) (by decide))
  have hreplay : (encodeHeader p).getLsbD 23 = p.replay := bit_of_fld (field 5 rfl (by decide) (by decide))
  have hflits : fld (encodeHeader p) 24 5 = p.flits := field 6 rfl (by decide) (by decide)
  have hrowCh : fld (encodeHeader p) 29 3 = p.rowCh := field 7 rfl (by decide) (by decide)
  have hkey : fld (encodeHeader p) 32 12 = p.key := field 8 rfl (by decide) (by decide)
  have hgen : fld (encodeHeader p) 44 4 = p.gen := field 9 rfl (by decide) (by decide)
  have hsrc : fld (encodeHeader p) 48 16 = p.src := field 10 rfl (by decide) (by decide)
  have hdst : fld (encodeHeader p) 64 16 = p.dst := field 11 rfl (by decide) (by decide)
  have hhint : fld (encodeHeader p) 80 16 = p.hint := field 12 rfl (by decide) (by decide)
  have hseq : fld (encodeHeader p) 96 32 = p.seq := field 13 rfl (by decide) (by decide)
  have harea : (encodeHeader p).extractLsb' 128 352 = p.area := extract_of_fld (field 14 rfl (by decide) (by decide))
  have hcrc : (encodeHeader p).extractLsb' 480 32 = p.crc := extract_of_fld (field 15 rfl (by decide) (by decide))
  rw [decodeHeader, hkind, hvn, hpathVn, hrow, hreplay, hflits, hrowCh, hkey, hgen, hsrc, hdst, hhint, hseq, harea, hcrc]

/-- A well-formed link word reads back from its bits (R329). -/
theorem decodeLinkWord_encodeLinkWord {w : LinkWord} (h : w.wf = true) : decodeLinkWord (encodeLinkWord w) = w := by
  have field {lo n v : Nat} (i : Nat) (hi : (linkFields w)[i]? = some (n, v)) (hlo : (linkWidths.take i).sum = lo) (hw : lo + n ≤ 20) :
      fld (encodeLinkWord w) lo n = v := encodeLinkWord_packed w ▸ fld_packed (linkFields_fit h) i hi hlo hw
  have hseq : fld (encodeLinkWord w) 0 8 = w.seq := field 0 rfl (by decide) (by decide)
  have hreplay : (encodeLinkWord w).getLsbD 8 = w.replay := bit_of_fld (field 1 rfl (by decide) (by decide))
  have hidle : (encodeLinkWord w).getLsbD 9 = w.idle := bit_of_fld (field 2 rfl (by decide) (by decide))
  have hkind : fld (encodeLinkWord w) 10 2 = w.kind := field 3 rfl (by decide) (by decide)
  have harg : fld (encodeLinkWord w) 12 8 = w.arg := field 4 rfl (by decide) (by decide)
  rw [decodeLinkWord, hseq, hreplay, hidle, hkind, harg]

/-- A word is the one that its own fields spell. -/
theorem ofNat_packed_cut {w : Nat} {l : List (Nat × Nat)} {ns : List Nat} {b : BitVec w} (h : l = cut ns b.toNat) (hw : ns.sum = w) :
    BitVec.ofNat w (packed l) = b := by
  rw [h, packed_cut, hw, Nat.mod_eq_of_lt b.isLt, BitVec.ofNat_toNat, BitVec.setWidth_eq]

/-- Every 32 bytes are those of the command that they spell (R67). -/
theorem encodeCmd_decodeCmd (w : BitVec 256) : encodeCmd (decodeCmd w) = w := by
  have h : cmdFields (decodeCmd w) = cut cmdWidths w.toNat := by
    simp [cmdFields, decodeCmd, cmdWidths, cut, fld, ← Nat.shiftRight_add]
  rw [encodeCmd_packed, ofNat_packed_cut h (by decide)]

/-- Every flit whose first byte is 2 is that of the header that it spells (R322). -/
theorem encodeHeader_decodeHeader {w : BitVec 512} (h2 : fld w 0 8 = 2) : encodeHeader (decodeHeader w) = w := by
  have h : headerFields 2 (decodeHeader w) = cut headerWidths w.toNat := by
    rw [← h2]
    simp only [headerFields, decodeHeader, ← fld_bit]
    simp [headerWidths, cut, fld, ← Nat.shiftRight_add]
  rw [encodeHeader_packed, ofNat_packed_cut h (by decide)]

/-- Every 20 bits are those of the link word that they spell (R329). -/
theorem encodeLinkWord_decodeLinkWord (b : BitVec 20) : encodeLinkWord (decodeLinkWord b) = b := by
  have h : linkFields (decodeLinkWord b) = cut linkWidths b.toNat := by
    simp only [linkFields, decodeLinkWord, ← fld_bit]
    simp [linkWidths, cut, fld, ← Nat.shiftRight_add]
  rw [encodeLinkWord_packed, ofNat_packed_cut h (by decide)]

theorem fld_lt {n : Nat} (w : BitVec n) (lo len : Nat) : fld w lo len < 2 ^ len := Nat.mod_lt _ (Nat.two_pow_pos len)

theorem decodeCmd_wf (w : BitVec 256) : (decodeCmd w).wf = true := by
  simp only [Cmd.wf, decodeCmd, fld_lt, decide_true, Bool.and_self]

theorem decodeLinkWord_wf (b : BitVec 20) : (decodeLinkWord b).wf = true := by
  simp only [LinkWord.wf, decodeLinkWord, fld_lt, decide_true, Bool.and_self]

/-! ### Codeword payloads (R306, R321) -/

/-- A flit of a flit list's bits; a missing one is null. -/
theorem flitsNat_getD : ∀ (fs : List (BitVec 512)) (f : Nat), flitsNat fs >>> (512 * f) % 2 ^ 512 = (fs.getD f 0).toNat := by
  intro fs
  induction fs with
  | nil => intro f; simp [flitsNat]
  | cons x r ih =>
    intro f
    cases f with
    | zero =>
      rw [flitsNat, Nat.mul_zero, Nat.shiftRight_zero, Nat.add_mul_mod_self_left, Nat.mod_eq_of_lt x.isLt, List.getD_cons_zero]
    | succ f =>
      have low : (x.toNat + 2 ^ 512 * flitsNat r) >>> 512 = flitsNat r := by
        rw [Nat.shiftRight_eq_div_pow, Nat.add_mul_div_left _ _ (Nat.two_pow_pos 512), Nat.div_eq_of_lt x.isLt, Nat.zero_add]
      rw [flitsNat, Nat.mul_succ, Nat.add_comm (512 * f), Nat.shiftRight_add, low, ih, List.getD_cons_succ]

/-- The link word of a payload built from one reads back (R306). -/
theorem payloadWord_encodePayload {w : LinkWord} (fs : List (BitVec 512)) (h : w.wf = true) : payloadWord (encodePayload w fs) = w := by
  have bits : (encodePayload w fs).extractLsb' 0 20 = encodeLinkWord w := by
    refine extract_of_fld ?_
    rw [encodePayload, fld_ofNat _ (by decide), Nat.shiftRight_zero, Nat.add_mul_mod_self_left, Nat.mod_eq_of_lt (BitVec.isLt _)]
  rw [payloadWord, bits, decodeLinkWord_encodeLinkWord h]

/-- A flit of a payload built from flits reads back; a missing one is null (R306, R321). -/
theorem payloadFlit_encodePayload (w : LinkWord) (fs : List (BitVec 512)) {f : Nat} (h : f < 10) :
    payloadFlit (encodePayload w fs) f = fs.getD f 0 := by
  have low (n : Nat) : ((encodeLinkWord w).toNat + 2 ^ 20 * n) >>> 20 = n := by
    rw [Nat.shiftRight_eq_div_pow, Nat.add_mul_div_left _ _ (Nat.two_pow_pos 20), Nat.div_eq_of_lt (BitVec.isLt _), Nat.zero_add]
  have first : (fs.take 10).getD f 0 = fs.getD f 0 := by simp [h]
  refine extract_of_fld ?_
  rw [encodePayload, fld_ofNat _ (by omega), Nat.shiftRight_add, low, flitsNat_getD, first]

/-- A payload given another link word, bit by bit: the link word below, the old flits above it. -/
theorem setPayloadWord_bits (p : BitVec 5140) (w : LinkWord) (i : Nat) : (setPayloadWord p w).getLsbD i
    = if i < 20 then (encodeLinkWord w).getLsbD i else p.getLsbD i := by
  unfold setPayloadWord
  by_cases h : i < 20
  · have : i < 5140 := by omega
    simp [h, this]
  · have high : (encodeLinkWord w).getLsbD i = false := BitVec.getLsbD_of_ge _ _ (by omega)
    by_cases hi : i < 5140
    · simp [h, hi, high, Nat.add_sub_cancel' (Nat.le_of_not_lt h)]
    · simp [h, hi, BitVec.getLsbD_of_ge p i (by omega)]

theorem payloadWord_setPayloadWord (p : BitVec 5140) {w : LinkWord} (h : w.wf = true) : payloadWord (setPayloadWord p w) = w := by
  have bits : (setPayloadWord p w).extractLsb' 0 20 = encodeLinkWord w := by
    refine BitVec.eq_of_getLsbD_eq (fun i hi => ?_)
    rw [BitVec.getLsbD_extractLsb', setPayloadWord_bits]
    simp [hi]
  rw [payloadWord, bits, decodeLinkWord_encodeLinkWord h]

theorem payloadFlit_setPayloadWord (p : BitVec 5140) (w : LinkWord) (f : Nat) : payloadFlit (setPayloadWord p w) f = payloadFlit p f := by
  refine BitVec.eq_of_getLsbD_eq (fun i hi => ?_)
  have above : ¬ 20 + 512 * f + i < 20 := by omega
  rw [payloadFlit, payloadFlit, BitVec.getLsbD_extractLsb', BitVec.getLsbD_extractLsb', setPayloadWord_bits, if_neg above]

theorem payloadFlits_setPayloadWord (p : BitVec 5140) (w : LinkWord) : payloadFlits (setPayloadWord p w) = payloadFlits p :=
  List.map_congr_left (fun f _ => payloadFlit_setPayloadWord p w f)

end Sys2Proof.Laws

namespace Sys2Proof.Proofs

open Sys2Proof.Machine Sys2Proof.Laws

/-- Settles O60: commands, headers and link words are words put together from fields, which read back one by one, and a payload is a
link word below its flits. -/
theorem wordsReadBackWhatWasWritten : Obligations.WordsReadBackWhatWasWritten := by
  unfold Obligations.WordsReadBackWhatWasWritten
  exact ⟨fun _ h => decodeCmd_encodeCmd h, fun w => ⟨decodeCmd_wf w, encodeCmd_decodeCmd w⟩, fun _ h => decodeHeader_encodeHeader h,
    fun _ h => encodeHeader_decodeHeader h, fun _ h => decodeLinkWord_encodeLinkWord h,
    fun b => ⟨decodeLinkWord_wf b, encodeLinkWord_decodeLinkWord b⟩,
    fun w fs h => ⟨payloadWord_encodePayload fs h, fun _ hf => payloadFlit_encodePayload w fs hf⟩,
    fun p w h => ⟨payloadWord_setPayloadWord p h, payloadFlits_setPayloadWord p w⟩⟩

end Sys2Proof.Proofs
end

section
/-! SUPPORT. Register, flow and synchronisation commands of a furrow at issue, and the statements that they settle. -/

namespace Sys2Proof.Laws

open Sys2Proof.Machine

/-! ### A furrow that has issued a command at once, and what its own rule changes then (R76) -/

section
variable {s : State} {f : Nat} {c : Cmd} {g : Furrow → Furrow}

/-- What a command that completes as it issues does to its own furrow beyond that. -/
@[simp] theorem getFur_modFur_issueNow (s : State) (f : Nat) (c : Cmd) (g : Furrow → Furrow) :
    getFur (modFur f g (issueNow f c s)) f = g ((getFur s f).completing c) := by
  rw [getFur_modFur_self, getFur_issueNow_self]

theorem furOnly_modFur_issueNow (s : State) (f : Nat) (c : Cmd) (g : Furrow → Furrow) :
    FurOnly f s (modFur f g (issueNow f c s)) := (furOnly_issueNow ..).trans (furOnly_modFur ..)

end

/-! ### Indices of a destination (R89) -/

/-- A destination out of its range fails the field rules of step 4. -/
theorem fieldsOk_index_out {u : OpUse} {c : Cmd} (h : u.d = .greg ∧ 16 ≤ c.d ∨ u.d = .pred ∧ 8 ≤ c.d) : fieldsOk u c = false := by
  unfold fieldsOk
  rcases h with ⟨hu, hd⟩ | ⟨hu, hd⟩
  · simp [hu, Nat.not_lt.mpr hd]
  · simp [hu, Nat.not_lt.mpr hd]

/-- A listed command whose flags fit and whose fields do not is refused with 0x103 (R74). -/
theorem staticCheck_fields {plane : Bool} {c : Cmd} {u : OpUse} (hu : opUse plane c.op = some u)
    (hflags : outside c.flags.toNat (u.flags ||| 0x8C) = false) (hfields : fieldsOk u c = false) : staticCheck plane c = 0x103 := by
  simp [staticCheck, hu, hflags, hfields]

/-! ### Places of fetch (R84) -/

theorem targetBad_eq_zero (s : State) (p : Place) (off : Int) : targetBad s p off = 0 ↔
    if p.inImage then 0 ≤ p.idx + off ∧ p.idx + off < imgCount s p.slot else 1 ≤ off := by
  unfold targetBad
  cases p.inImage <;> simp

/-- Where a jump leaves its furrow's fetch. -/
theorem getFur_jumpTo (f : Nat) (p : Place) (off : Int) (s : State) : getFur (jumpTo f p off s) f
    = if p.inImage then goTo { p with idx := ((p.idx : Int) + off).toNat } (getFur s f)
      else ringForward (off.toNat - 1) (getFur s f) := by
  unfold jumpTo
  split <;> exact getFur_modFur_self ..

/-- The slots that FUR_PROD covers are consumed, and no more than are to be skipped (R84). -/
theorem consumeSkip_spec (g : Furrow) : ((consumeSkip g).cons - g.cons).toNat + (consumeSkip g).skip = g.skip
    ∧ ((consumeSkip g).skip = 0 ∨ (consumeSkip g).avail = 0) := by
  have hlt : g.avail < 2 ^ 32 := (g.prod - g.cons).isLt
  have hcons : ((consumeSkip g).cons - g.cons).toNat = min g.skip g.avail := by
    simp only [consumeSkip]
    bv_omega
  have havail : (consumeSkip g).avail = g.avail - min g.skip g.avail := by
    unfold Furrow.avail at *
    simp only [consumeSkip, Furrow.avail]
    bv_omega
  have hskip : (consumeSkip g).skip = g.skip - min g.skip g.avail := rfl
  omega

/-- Fetch that moves forward takes each command from the prefetched ones, the one in flight, the ring or what is left to skip. -/
theorem ringForward_spec (k : Nat) (g : Furrow) : (ringForward k g).prefetch = g.prefetch.drop k
    ∧ (g.prefetch.length - (ringForward k g).prefetch.length) + (g.fetching.isSome.toNat - (ringForward k g).fetching.isSome.toNat)
        + ((ringForward k g).cons - g.cons).toNat + (ringForward k g).skip = k + g.skip
    ∧ ((ringForward k g).skip = 0 ∨ (ringForward k g).avail = 0) := by
  have hpre : (ringForward k g).prefetch = g.prefetch.drop k := by
    have e : (ringForward k g).prefetch = g.prefetch.drop (min k g.prefetch.length) := rfl
    rw [e]
    rcases Nat.le_total k g.prefetch.length with h | h
    · rw [Nat.min_eq_left h]
    · rw [Nat.min_eq_right h, List.drop_length, List.drop_of_length_le h]
  refine ⟨hpre, ?_, (consumeSkip_spec _).2⟩
  have hmoved := (consumeSkip_spec { g with
    prefetch := g.prefetch.drop (min k g.prefetch.length)
    skip := g.skip + (k - min k g.prefetch.length - (decide (0 < k - min k g.prefetch.length) && g.fetching.isSome).toNat)
    fetching := if decide (0 < k - min k g.prefetch.length) && g.fetching.isSome then none else g.fetching }).1
  have hfly : (ringForward k g).fetching
      = if decide (0 < k - min k g.prefetch.length) && g.fetching.isSome then none else g.fetching := rfl
  rw [hpre, hfly, List.length_drop]
  change ((ringForward k g).cons - g.cons).toNat + (ringForward k g).skip = _ at hmoved
  by_cases hleft : 0 < k - min k g.prefetch.length
  · cases hg : g.fetching.isSome <;> simp [hg, hleft] at hmoved ⊢ <;> omega
  · simp [hleft] at hmoved ⊢
    omega

end Sys2Proof.Laws

namespace Sys2Proof.Proofs

open Sys2Proof.Machine Sys2Proof.Laws

/-- Settles O5: each of the four commands issues at once and then writes the one register or predicate of its own furrow; the field
rules of step 4 look at the destination's index. -/
theorem registerCommandsWriteTheirRegister : Obligations.RegisterCommandsWriteTheirRegister := by
  unfold Obligations.RegisterCommandsWriteTheirRegister
  refine ⟨fun s f r hr => ?seti, fun s f r hr hf => ?addi, fun s f r hr => ?movg, fun s f r hr hf => ?cmp, fun plane c u hu hflags hd => ?index⟩
  case seti => exact act_fur (withCmd_issues hr _) (furOnly_modFur_issueNow ..) (getFur_modFur_issueNow ..)
  case addi =>
    exact act_fur (cmd_passes hr rfl (passes_cons (regCheck_fresh hf) rfl)) (furOnly_modFur_issueNow ..) (getFur_modFur_issueNow ..)
  case movg => exact act_fur (withCmd_issues hr _) (furOnly_modFur_issueNow ..) (getFur_modFur_issueNow ..)
  case cmp =>
    exact act_fur (cmd_passes hr rfl (passes_cons (regCheck_fresh hf) rfl)) (furOnly_modFur_issueNow ..) (getFur_modFur_issueNow ..)
  case index =>
    refine staticCheck_fields hu hflags (fieldsOk_index_out ?_)
    rcases hd with ⟨hop | hop | hop, h16⟩ | ⟨hop, h8⟩
    all_goals
      rw [hop] at hu
      cases hu
    · exact .inl ⟨rfl, h16⟩
    · exact .inl ⟨rfl, h16⟩
    · exact .inl ⟨rfl, h16⟩
    · exact .inr ⟨rfl, h8⟩

/-- Settles O6: each flow command issues at once and then sets its own furrow's place of fetch; moving forward in a ring takes commands
from each place in turn, which `ringForward_spec` counts. -/
theorem flowCommandsMoveFetch : Obligations.FlowCommandsMoveFetch := by
  unfold Obligations.FlowCommandsMoveFetch
  refine ⟨fun s f r hr hf ht => ?jump, fun s f r hr hf ht => ?branch, targetBad_eq_zero, ringForward_spec,
    fun s f r hr hf ha hb hb16 => ?loop, fun s f r hr hd hc hi => ?call, fun s f r l back hr hl => ?ret⟩
  case jump =>
    have passes : Passes [regCheck (fresh s) r.cmd (opnds s f r), (targetBad (fresh s) r.place (opnds s f r).a.toInt != 0,
        targetBad (fresh s) r.place (opnds s f r).a.toInt)] :=
      passes_cons (regCheck_fresh hf) (passes_cons (bne_eq_false_iff_eq.mpr ht) rfl)
    refine act_fur (withCmd_passes hr passes rfl) ((furOnly_issueNow ..).trans (furOnly_jumpTo ..)) ?_
    rw [getFur_jumpTo, getFur_issueNow_self, getFur_fresh]
  case branch =>
    have passes : Passes [regCheck (fresh s) r.cmd (opnds s f r), (targetBad (fresh s) r.place (opnds s f r).a.toInt != 0,
        targetBad (fresh s) r.place (opnds s f r).a.toInt)] :=
      passes_cons (regCheck_fresh hf) (passes_cons (bne_eq_false_iff_eq.mpr ht) rfl)
    refine act_fur (withCmd_passes hr passes rfl) ?_ ?_
    · split
      · exact (furOnly_issueNow ..).trans (furOnly_jumpTo ..)
      · exact furOnly_issueNow ..
    · by_cases hp : (getFur s f).preds.getLsbD (fld r.cmd.b 0 3) = r.cmd.b.getLsbD 3
      · rw [if_pos hp]
        exact (congrArg (getFur · f) (if_neg (fun h => bne_iff_ne.mp h hp))).trans (getFur_issueNow_self ..)
      · rw [if_neg hp]
        refine (congrArg (getFur · f) (if_pos (bne_iff_ne.mpr hp))).trans ?_
        rw [getFur_jumpTo, getFur_issueNow_self, getFur_fresh]
  case loop =>
    have passes : Passes [regCheck (fresh s) r.cmd (opnds s f r), (decide (2 ^ 32 ≤ (opnds s f r).a.toNat), 0x111),
        (decide ((opnds s f r).b = 0 ∨ 16 < (opnds s f r).b.toNat), 0x143)] := by
      have nonzero : (opnds s f r).b ≠ 0 := fun h => by simp [h] at hb
      exact passes_cons (regCheck_fresh hf) (passes_cons (decide_eq_false (Nat.not_le.mpr ha))
        (passes_cons (decide_eq_false (not_or.mpr ⟨nonzero, Nat.not_lt.mpr hb16⟩)) rfl))
    exact act_fur (withCmd_passes hr passes rfl) (furOnly_modFur_issueNow ..) (getFur_modFur_issueNow ..)
  case call =>
    have passes : Passes [(decide (4 ≤ (getFur s f).stack.length), 0x144),
        (!callable (fresh s) (fld (opnds s f r).a 0 6) (getFur s f).plot, 0x145),
        (decide (imgCount (fresh s) (fld (opnds s f r).a 0 6) ≤ fld (opnds s f r).a 8 32), 0x141)] :=
      passes_cons (decide_eq_false (Nat.not_le.mpr hd)) (passes_cons (by rw [show callable (fresh s) _ _ = true from hc]; rfl)
        (passes_cons (decide_eq_false (Nat.not_le.mpr hi)) rfl))
    exact act_fur (withCmd_passes hr passes rfl) (furOnly_modFur_issueNow ..) (getFur_modFur_issueNow ..)
  case ret =>
    have passes : Passes [((getFur s f).stack.isEmpty, 0x146)] := passes_cons (by simp [hl]) rfl
    refine act_fur (withCmd_passes hr passes rfl) (furOnly_modFur_issueNow ..) ?_
    rw [getFur_modFur_issueNow]
    have top : (getFur s f).stack.getLastD {} = back := by simp [hl]
    have rest : (getFur s f).stack.dropLast = l := by simp [hl]
    rw [← top, ← rest]
    rfl

end Sys2Proof.Proofs
end

section
/-! SUPPORT. TWAIT, TSET, FENCE, SUNWAIT and SIGNAL at issue, and the statements that they settle. -/

namespace Sys2Proof.Laws

open Sys2Proof.Machine

/-- A command's effect that writes no byte of buffer SRAM is left as it is, the Silt rings apart. -/
theorem ended_frame {s u : State} (hp : u.pending = s.pending) (hc : u.clk = s.clk) (hm : u.sram = s.sram) (hw : u.wlog = []) :
    ∃ o, ended s u = { u with obs := o } := by
  obtain ⟨o, he⟩ := ended_eq s u
  refine ⟨{ u.obs with rings := o }, ?_⟩
  rw [he, hw, ← hp, ← hc, ← hm]
  rfl

/-! ### Tallies and the line cache (R97, R124, R140, R145) -/

/-- A tally of a plot that does not drain is set. -/
theorem setTally_live {s : State} {p : Nat} (h : (getPlot s p).state ≠ .draining) (k : Nat) (v : DWord) :
    setTally p k v s = { s with tally := s.tally.set (tallyIndex s p k) v } := if_neg h

theorem addTally_live {s : State} {p : Nat} (h : (getPlot s p).state ≠ .draining) (k : Nat) (v : DWord) :
    addTally p k v s = { s with tally := s.tally.set (tallyIndex s p k) (getTally s p k + v) } := if_neg h

@[simp] theorem getTally_ended (s u : State) (p k : Nat) : getTally (ended s u) p k = getTally u p k := by
  unfold getTally tallyIndex getPlot
  rw [ended_tally, ended_plots]

/-- A plot whose epoch advances to one that none of its lines carries hits no line any more. -/
theorem cacheHit_advanceEpoch_self {s : State} {p : Nat} (h : ∀ l ∈ s.rlc.lines, l.plot = p → l.epoch ≠ (curEpoch s p + 1) % 16)
    (a : Nat) : cacheHit (advanceEpoch p s) p a = none := by
  have epoch : curEpoch (advanceEpoch p s) p = (curEpoch s p + 1) % 16 := getD_set_self ..
  have miss : s.rlc.lines.find? (fun c => c.plot == p && c.addr == a && c.epoch == curEpoch (advanceEpoch p s) p) = none := by
    rw [epoch, List.find?_eq_none]
    intro l hl hit
    simp only [Bool.and_eq_true, beq_iff_eq] at hit
    exact h l hl hit.1.1 hit.2
  unfold cacheHit
  split
  · exact congrArg (Option.map _) miss
  · rfl

/-- The lines of another plot are hit as before. -/
theorem cacheHit_advanceEpoch_other {s : State} {p q : Nat} (h : q ≠ p) (a : Nat) :
    cacheHit (advanceEpoch p s) q a = cacheHit s q a := by
  have epoch : curEpoch (advanceEpoch p s) q = curEpoch s q := getD_set_other _ _ _ _ _ h
  simp only [cacheHit, epoch]
  rfl

/-- What a plot hits in the line cache hangs on the build and the cache alone. -/
theorem cacheHit_congr {s t : State} (hg : t.glb = s.glb) (hr : t.rlc = s.rlc) (p a : Nat) : cacheHit t p a = cacheHit s p a := by
  unfold cacheHit curEpoch e64
  rw [hg, hr]

/-! ### Waiting at issue (R45, R51, R97) -/

@[simp] theorem getFur_waitOn_self (f : Nat) (k : WaitKind) (s : State) : getFur (waitOn f k s) f
    = { getFur s f with state := .waiting, wait := k, waitSince := if (getFur s f).state = .waiting ∧ (getFur s f).wait = k then (getFur s f).waitSince else some s.clk } :=
  getFur_modFur_self ..

/-- A command that waits leaves its furrow Waiting with that kind, and all else of it. -/
theorem act_waits {s : State} {f : Nat} {k : WaitKind} {F : State → State} (e : F (fresh s) = waitOn f k (fresh s)) :
    ∃ t, act F s = .next t ∧ OnlyFurrow s t f ∧ (getFur t f).state = .waiting ∧ (getFur t f).wait = k
      ∧ (getFur t f).cur = (getFur s f).cur ∧ (getFur t f).issued = (getFur s f).issued := by
  refine ⟨_, act_of e, (furOnly_waitOn ..).ended, ?_⟩
  rw [getFur_ended, getFur_waitOn_self]
  exact ⟨rfl, rfl, rfl, rfl⟩

/-- A command whose first failing check has a code faults its furrow with it, when nothing else is issued (R79). -/
theorem act_faults {s : State} {f code : Nat} {c : Cmd} {F : State → State} (e : F (fresh s) = failCmd f c code (fresh s))
    (hi : (getFur s f).issued = []) (hf : (getFur s f).forced = none) : ∃ t, act F s = .next t ∧ FaultsAtIssue s t f c code :=
  ⟨_, act_of e, failCmd_faults c code hi hf⟩

/-- A command that issues and whose first failing check has a code fails with it (R74). -/
theorem withCmd_fails {s : State} {f op code : Nat} {outst : Bool} {r : Ready} {rule : Cmd → Opnd → Place → State → State}
    {checks : List (Bool × Nat)} {k : State → State} (hr : Issues s f op outst r) (hc : firstFail checks = code) (h0 : code ≠ 0)
    (hk : rule r.cmd (opnds s f r) r.place (fresh s) = checked f r.cmd checks k (fresh s)) :
    withCmd f op outst rule (fresh s) = failCmd f r.cmd code (fresh s) := by
  subst hc
  exact (withCmd_issues hr rule).trans (hk.trans (if_neg h0))

/-! ### SUNWAIT (R101) -/

section
variable {s : State} {f : Nat} {r : Ready} (hr : Issues s f 0x45 false r) (hf : FieldsHold s f r)
include hr hf

theorem doSunwait_issues (h : (opnds s f r).a.toNat ≤ s.sun.time + 10000000000) : doSunwait f (fresh s)
    = if (opnds s f r).a.toNat ≤ s.sun.time then issueNow f r.cmd (fresh s) else waitOn f .sunwait (fresh s) := by
  have passes : Passes [regCheck (fresh s) r.cmd (opnds s f r), (decide (s.sun.time + 10000000000 < (opnds s f r).a.toNat), 0x161)] :=
    passes_cons (regCheck_fresh hf) (passes_cons (decide_eq_false (Nat.not_lt.mpr h)) rfl)
  exact withCmd_passes (k := fun u => if (opnds s f r).a.toNat ≤ u.sun.time then issueNow f r.cmd u else waitOn f .sunwait u) hr passes rfl

theorem doSunwait_far (h : s.sun.time + 10000000000 < (opnds s f r).a.toNat) :
    doSunwait f (fresh s) = failCmd f r.cmd 0x161 (fresh s) := by
  have code : firstFail [regCheck (fresh s) r.cmd (opnds s f r), (decide (s.sun.time + 10000000000 < (opnds s f r).a.toNat), 0x161)]
      = 0x161 := (firstFail_pass (regCheck_fresh hf)).trans (if_pos (decide_eq_true h))
  exact withCmd_fails hr code (by decide) rfl

end

/-! ### FENCE (R99, R145) -/

section
variable {s : State} {f : Nat} {r : Ready} (hr : Issues s f 0x43 false r)
include hr

theorem doFence_waits (h : ((getFur s f).issued.all (fun i => i.done)) = false) : doFence f (fresh s) = waitOn f .fence (fresh s) := by
  have left : (getFur s f).issued.any (fun i => !i.done) = true := by
    rw [← List.not_all_eq_any_not, h]; rfl
  exact (withCmd_issues hr _).trans (if_pos left)

theorem doFence_issues (h : ((getFur s f).issued.all (fun i => i.done)) = true)
    (ha : e64 s = true → mayAdvance s (getFur s f).plot = true) : doFence f (fresh s)
      = if e64 s = true then advanceEpoch (getFur s f).plot (issueNow f r.cmd (fresh s)) else issueNow f r.cmd (fresh s) := by
  have none : ¬ (getFur s f).issued.any (fun i => !i.done) = true := by
    rw [← List.not_all_eq_any_not, h]; exact Bool.false_ne_true
  refine (withCmd_issues hr _).trans ((if_neg none).trans ?_)
  by_cases he : e64 s = true
  · rw [if_pos he]
    exact (if_pos he).trans (if_pos (ha he))
  · rw [if_neg he]
    exact if_neg he

end

/-! ### SIGNAL (R57, R100, R401) -/

/-- A new producer index that keeps the window rule is taken (R57). -/
theorem doorbell_taken {s : State} {n : Nat} {v : Word} (h : bellOk (getFur s n) v = true) :
    doorbell n v s = modFur n (fun g => { g with prod := v }) s := if_pos h

/-- A SIGNAL that issues and passes its rule's checks has the effect of its kind after them. -/
theorem withSignal_passes {s : State} {f kind : Nat} {r : Ready} {rule : Cmd → Opnd → State → State} {checks : List (Bool × Nat)}
    {k : State → State} (hr : Issues s f 0x44 false r) (ho : r.cmd.osel = kind) (hp : Passes checks)
    (hk : rule r.cmd (opnds s f r) (fresh s) = checked f r.cmd checks k (fresh s)) : withSignal f kind rule (fresh s) = k (fresh s) :=
  (withSignal_issues hr ho rule).trans (hk.trans (checked_passes hp k _))

/-- A furrow other than the one that issues is left as it was. -/
theorem getFur_issueNow_other (f n : Nat) (c : Cmd) (s : State) (h : n ≠ f) : getFur (issueNow f c s) n = getFur s n :=
  (furOnly_issueNow ..).1 n h

/-- Issuing a command changes neither the ring's bounds nor its indices. -/
theorem ring_issueNow (f n : Nat) (c : Cmd) (s : State) (v : Word) :
    (getFur (issueNow f c s) n).prod = (getFur s n).prod ∧ bellOk (getFur (issueNow f c s) n) v = bellOk (getFur s n) v := by
  by_cases h : n = f
  · subst h
    rw [getFur_issueNow_self]
    exact ⟨rfl, rfl⟩
  · rw [getFur_issueNow_other f n c s h]
    exact ⟨rfl, rfl⟩

theorem signalFur_issueNow {s : State} {f n : Nat} {c : Cmd} {w : Word} (h : bellOk (getFur s n) ((getFur s n).prod + w) = true) :
    signalFur n w (issueNow f c s) = modFur n (fun g => { g with prod := (getFur s n).prod + w }) (issueNow f c s) := by
  obtain ⟨hprod, hbell⟩ := ring_issueNow f n c s ((getFur s n).prod + w)
  rw [signalFur, hprod, doorbell_taken (hbell.trans h)]

theorem doSignal_issues {s : State} {f n : Nat} {r : Ready} (hr : Issues s f 0x44 false r) (hf : FieldsHold s f r) (ho : r.cmd.osel = 0)
    (hn : n = fld (opnds s f r).a 0 9) (hc : n < furrowCount s) (hp : (getFur s n).plot = (getFur s f).plot)
    (h1 : 1 ≤ (opnds s f r).b.toNat) (h2 : (opnds s f r).b.toNat ≤ 65536) :
    doSignal f (fresh s) = signalFur n ((opnds s f r).b.setWidth 32) (issueNow f r.cmd (fresh s)) := by
  have nonzero : (opnds s f r).b ≠ 0 := fun h => by simp [h] at h1
  have passes : Passes [regCheck (fresh s) r.cmd (opnds s f r),
      (decide (furrowCount s ≤ n) || (getFur s n).plot != (getFur s f).plot, 0x151),
      (decide ((opnds s f r).b = 0 ∨ 65536 < (opnds s f r).b.toNat), 0x111)] :=
    passes_cons (regCheck_fresh hf) (passes_cons (by simp [hp, Nat.not_le.mpr hc])
      (passes_cons (decide_eq_false (not_or.mpr ⟨nonzero, Nat.not_lt.mpr h2⟩)) rfl))
  subst hn
  exact withSignal_passes (k := fun u => signalFur (fld (opnds s f r).a 0 9) ((opnds s f r).b.setWidth 32) (issueNow f r.cmd u))
    hr ho passes rfl

theorem doSignalPost_issues {s : State} {f : Nat} {r : Ready} (hr : Issues s f 0x44 false r) (hf : FieldsHold s f r)
    (ho : r.cmd.osel = 1) : doSignalPost f (fresh s)
      = postEvent ((opnds s f r).a.toNat % 65536) f (getFur s f).plot (issueNow f r.cmd (fresh s)) := by
  have passes : Passes [regCheck (fresh s) r.cmd (opnds s f r)] := passes_cons (regCheck_fresh hf) rfl
  exact withSignal_passes (k := fun u => postEvent ((opnds s f r).a.toNat % 65536) f (getFur u f).plot (issueNow f r.cmd u)) hr ho passes rfl

/-- The event queue takes an event, or counts it as dropped; nothing else changes (R401). -/
theorem postEvent_spec (code f plot : Nat) (s : State) : postEvent code f plot s = { s with sup :=
    if s.sup.evq.length < 64 then { s.sup with evq := s.sup.evq ++ [pk [(0, code % 65536), (16, f % 256), (24, plot % 256)]] }
    else { s.sup with dropped := satInc 65535 s.sup.dropped, events := setBit s.sup.events 4 true } } := by
  unfold postEvent
  split <;> rfl

end Sys2Proof.Laws

namespace Sys2Proof.Proofs

open Sys2Proof.Machine Sys2Proof.Laws

/-- Settles O8: a TWAIT completes or waits as its tally has reached its target or not, and a TSET sets one entry of the tally table. -/
theorem twaitAndTsetUseTheirTally : Obligations.TwaitAndTsetUseTheirTally := by
  unfold Obligations.TwaitAndTsetUseTheirTally
  refine ⟨fun s f u r hr hf hu ht => ?twait, fun s f r hr hf ht hd => ?tset⟩
  case twait =>
    have passes : Passes [regCheck (fresh s) r.cmd (opnds s f r), (!tallyOk s (getFur s f).plot r.cmd.id false, 0x130)] :=
      passes_cons (regCheck_fresh hf) (passes_cons (by rw [ht]; rfl) rfl)
    have issues : doTwait f u (fresh s) = if tallyReached (getTally s (getFur s f).plot r.cmd.id) (opnds s f r).a = true
        then issueNow f r.cmd (fresh s) else waitOn f .twait (fresh s) := (withCmd_passes hr passes rfl).trans (if_neg hu)
    by_cases reached : tallyReached (getTally s (getFur s f).plot r.cmd.id) (opnds s f r).a = true
    · obtain ⟨t, hn, ho, hg⟩ := act_fur (issues.trans (if_pos reached)) (furOnly_issueNow ..) (getFur_issueNow_self ..)
      exact ⟨t, hn, ho, fun _ => hg, fun far => absurd (of_decide_eq_true reached) (Nat.not_lt.mpr far)⟩
    · obtain ⟨t, hn, ho, hg⟩ := act_fur (issues.trans (if_neg reached)) (furOnly_waitOn ..) (getFur_waitOn_self ..)
      exact ⟨t, hn, ho, fun near => absurd (decide_eq_true near) reached, fun _ => hg⟩
  case tset =>
    have passes : Passes [regCheck (fresh s) r.cmd (opnds s f r), (!tallyOk s (getFur s f).plot r.cmd.id false, 0x130)] :=
      passes_cons (regCheck_fresh hf) (passes_cons (by rw [ht]; rfl) rfl)
    have sets : doTset f (fresh s) = setTally (getFur s f).plot r.cmd.id (opnds s f r).a (issueNow f r.cmd (fresh s)) :=
      withCmd_passes (k := fun u => setTally (getFur s f).plot r.cmd.id (opnds s f r).a (issueNow f r.cmd u)) hr passes rfl
    have issues := sets.trans (setTally_live (s := issueNow f r.cmd (fresh s)) hd r.cmd.id (opnds s f r).a)
    refine ⟨_, act_of (f := doTset f) issues, ?_, fun n hn => ?_, ?_, ?_, fun k hk => ?_⟩
    · obtain ⟨o, he⟩ := ended_frame (s := s) (u := { issueNow f r.cmd (fresh s) with
        tally := s.tally.set (tallyIndex s (getFur s f).plot r.cmd.id) (opnds s f r).a }) rfl rfl rfl rfl
      exact he ▸ rfl
    · rw [getFur_ended]
      exact (furOnly_issueNow ..).1 n hn
    · rw [getFur_ended]
      exact getFur_issueNow_self ..
    · rw [getTally_ended]
      exact at_set_self ..
    · rw [ended_tally]
      exact at_set_other _ _ _ _ hk

/-- Settles O9: a FENCE and a SUNWAIT complete or wait as their rules say; on E64 a FENCE that completes advances its plot's epoch, so
that no line of the plot is of the current one. -/
theorem fenceAndSunwaitWait : Obligations.FenceAndSunwaitWait := by
  unfold Obligations.FenceAndSunwaitWait
  refine ⟨fun s f r hr hd ha => ?fence, fun s f r hr hd => act_waits (doFence_waits hr hd), fun s f r hr hf h => ?now,
    fun s f r hr hf h h10 => ?later, fun s f r hi hforced hr hf h => act_faults (doSunwait_far hr hf h) hi hforced⟩
  case fence =>
    by_cases he : e64 s = true
    · have issues := (doFence_issues hr hd ha).trans (if_pos he)
      refine ⟨_, act_of issues, ?_, fun n hn => ?_, ?_, fun h => absurd h (by simp [he]), fun _ hl a => ?_, fun p a hp => ?_⟩
      · obtain ⟨o, hu⟩ := ended_frame (s := s) (u := advanceEpoch (getFur s f).plot (issueNow f r.cmd (fresh s))) rfl rfl rfl rfl
        exact hu ▸ rfl
      · rw [getFur_ended]
        exact getFur_issueNow_other f n r.cmd (fresh s) hn
      · rw [getFur_ended]
        exact getFur_issueNow_self ..
      · rw [cacheHit_congr (ended_glb ..) (ended_rlc ..)]
        exact cacheHit_advanceEpoch_self hl a
      · rw [cacheHit_congr (ended_glb ..) (ended_rlc ..)]
        exact cacheHit_advanceEpoch_other hp a
    · have issues := (doFence_issues hr hd ha).trans (if_neg he)
      obtain ⟨t, hn, ⟨hother, ht⟩, hg⟩ := act_fur issues (furOnly_issueNow ..) (getFur_issueNow_self ..)
      have hrlc : t.rlc = s.rlc := by rw [ht]
      have hglb : t.glb = s.glb := by rw [ht]
      refine ⟨t, hn, ?_, hother, hg, fun _ => hrlc, fun h => absurd h he, fun p a _ => cacheHit_congr hglb hrlc p a⟩
      rw [hrlc]
      exact ht
  case now =>
    have issues := (doSunwait_issues hr hf (by omega)).trans (if_pos h)
    exact act_fur issues (furOnly_issueNow ..) (getFur_issueNow_self ..)
  case later => exact act_waits ((doSunwait_issues hr hf h10).trans (if_neg (Nat.not_le.mpr h)))

/-- Settles O10: a SIGNAL whose doorbell is taken changes its furrow's commands and the other's producer index, and an event goes to the
event queue or is counted as dropped. -/
theorem signalKindsReachTheirTarget : Obligations.SignalKindsReachTheirTarget := by
  unfold Obligations.SignalKindsReachTheirTarget
  refine ⟨fun s f n r hr hf ho hn hc hp h1 h2 hb => ?furrow, fun s f r hr hf ho => ?event⟩
  case furrow =>
    have issues := (doSignal_issues hr hf ho hn hc hp h1 h2).trans (signalFur_issueNow hb)
    refine ⟨_, act_of issues, ?_, fun k hkf hkn => ?_, fun h => ⟨?_, ?_⟩, fun h => ?_⟩
    · obtain ⟨o, he⟩ := ended_frame (s := s) (u := modFur n (fun g => { g with prod := (getFur s n).prod + (opnds s f r).b.setWidth 32 })
        (issueNow f r.cmd (fresh s))) rfl rfl rfl rfl
      exact he ▸ rfl
    · rw [getFur_ended, getFur_modFur_other _ _ _ _ hkn]
      exact getFur_issueNow_other f k r.cmd (fresh s) hkf
    · rw [getFur_ended, getFur_modFur_other _ _ _ _ h.symm]
      exact getFur_issueNow_self ..
    · rw [getFur_ended, getFur_modFur_self, getFur_issueNow_other f n r.cmd (fresh s) h]
      rfl
    · subst h
      rw [getFur_ended, getFur_modFur_issueNow]
      rfl
  case event =>
    have issues := (doSignalPost_issues hr hf ho).trans (postEvent_spec ..)
    refine ⟨_, act_of issues, ?_, fun n hn => ?_, ?_, fun h => ?_, fun h => ?_⟩
    · obtain ⟨o, he⟩ := ended_frame (s := s) (u := { issueNow f r.cmd (fresh s) with sup := _ }) rfl rfl rfl rfl
      exact he ▸ rfl
    · rw [getFur_ended]
      exact getFur_issueNow_other f n r.cmd (fresh s) hn
    · rw [getFur_ended]
      exact getFur_issueNow_self ..
    · rw [ended_sup]
      refine (if_pos h).trans ?_
      have code : fld (opnds s f r).a 0 16 = (opnds s f r).a.toNat % 65536 % 65536 := (Nat.mod_mod _ 65536).symm
      rw [code]
      rfl
    · rw [ended_sup]
      exact if_neg (Nat.not_lt.mpr h)

end Sys2Proof.Proofs
end

section
/-! SUPPORT. The TWAIT limit, furrow resets, doorbells, notify reads and image replacement, and the statements that they settle. -/

namespace Sys2Proof.Laws

open Sys2Proof.Machine

/-! ### The TWAIT limit and the end of a furrow's reset (R80, R97, R412) -/

/-- A TWAIT whose limit has passed before its tally reached its target fails (R97). -/
theorem twaitExpiry_fails {s : State} {f t0 : Nat} {r : Ready} (hr : atIssue s f 0x40 = some r) (hs : (getFur s f).state = .waiting)
    (hw : (getFur s f).wait = .twait) (ht : (getFur s f).waitSince = some t0) (hp : t0 + (getFur s f).twLimit * 1000 ≤ s.clk)
    (hv : tallyReached (getTally s (getFur s f).plot r.cmd.id) (opnds s f r).a = false) :
    twaitExpiry f (fresh s) = failCmd f r.cmd 0x160 (fresh s) := by
  have hr' : atIssue (fresh s) f 0x40 = some r := hr
  have past : (getFur s f).state = .waiting ∧ (getFur s f).wait = .twait ∧ passed s t0 ((getFur s f).twLimit * 1000)
      ∧ !tallyReached (getTally s (getFur s f).plot r.cmd.id) (opnds s f r).a := ⟨hs, hw, decide_eq_true hp, by rw [hv]; rfl⟩
  unfold twaitExpiry
  simp only [hr', getFur_fresh, ht]
  exact if_pos past

/-- A cause that is cleared leaves no entry of its own uncleared (R412). -/
theorem clearCauses_cleared {mine : FltEntry → Bool} {s : State} {e : Nat × FltEntry}
    (h : e ∈ (clearCauses mine s).flt.entries) (hm : mine e.2 = true) : e.2.cleared = true := by
  simp only [clearCauses, List.mem_filter, Tbl.mapVals, List.mem_map] at h
  obtain ⟨⟨⟨k, x⟩, -, rfl⟩, -⟩ := h
  by_cases hx : mine x = true
  · simp [hx]
  · simp only [hx] at hm
    exact absurd hm hx

theorem furIdle_released {s : State} {f : Nat} (h : (getFur s f).resetting.isSome = true) (hr : furReleased s f = true) :
    ∃ u, furIdle f (fresh s) = u ∧ u.fur = (modFur f Furrow.toIdle s).fur
      ∧ u = { s with wlog := [], fur := u.fur, flt := { s.flt with
          entries := u.flt.entries, fullNoted := u.flt.fullNoted, engResets := u.flt.engResets } }
      ∧ (∀ e ∈ u.flt.engResets, ¬ (e.kind = .furrow ∧ e.unit = f))
      ∧ (∀ e ∈ u.flt.entries, e.2.furrow = some f → e.2.level = .l1 → e.2.cleared = true) := by
  have released : ((getFur (fresh s) f).resetting.isSome && furReleased (fresh s) f) = true := by
    rw [getFur_fresh, h, show furReleased (fresh s) f = true from hr]; rfl
  refine ⟨_, if_pos released, rfl, rfl, fun e he => ?_, fun e he hf hl => ?_⟩
  · exact not_and.mpr (fun hk hu => by simp [hk, hu] at he)
  · exact clearCauses_cleared (s := modFur f Furrow.toIdle (fresh s)) he (by simp [hf, hl])

/-- The window rule of R57, in its two distances. -/
theorem bellOk_iff (g : Furrow) (v : Word) : bellOk g v = true ↔ (v - g.cons).toNat ≤ g.ringSize ∧ (v - g.prod).toNat ≤ g.ringSize := by
  simp only [bellOk, Bool.and_eq_true, decide_eq_true_eq]

/-! ### Image replacement (R66) -/

/-- A mailbox once the image that waited for a slot is in it: one that waited with it is answered, and holds no request any more. -/
def answeredBox (slot : Nat) (m : Mbx) : Mbx :=
  match m.taken with
  | some (.image k h) =>
    if k = slot then
      if m.rspGo then { m with taken := none, owed := some (mbxReply [h] 0 []) }
      else { m with taken := none, rsp := rspWords (mbxReply [h] 0 []), rspGo := true, owed := none }
    else m
  | _ => m

theorem answeredBox_waiting {slot : Nat} {h : Word} {m : Mbx} (hm : m.taken = some (.image slot h)) :
    (answeredBox slot m).taken = none
      ∧ (m.rspGo = false → (answeredBox slot m).rspGo = true ∧ (answeredBox slot m).rsp = rspWords (mbxReply [h] 0 [])) := by
  simp only [answeredBox, hm, if_true]
  cases m.rspGo <;> simp

theorem answeredBox_other {slot : Nat} {m : Mbx} (hm : ∀ h, m.taken ≠ some (.image slot h)) : answeredBox slot m = m := by
  unfold answeredBox
  split
  · rename_i k h ht
    exact if_neg (fun e => hm h (by rw [ht, e]))
  · rfl

theorem imageAnswer_waiting {slot i : Nat} {h : Word} {s : State} (hm : (getMbx s i).taken = some (.image slot h)) :
    imageAnswer slot i s = postReply i (mbxReply [h] 0 []) (modMbx i (fun m => { m with taken := none }) s) := by
  simp only [imageAnswer, hm, if_true]

theorem imageAnswer_other {slot i : Nat} {s : State} (hm : ∀ h, (getMbx s i).taken ≠ some (.image slot h)) :
    imageAnswer slot i s = s := by
  unfold imageAnswer
  split
  · rename_i k h ht
    exact if_neg (fun e => hm h (by rw [ht, e]))
  · rfl

/-- One answer changes its own mailbox alone. -/
theorem imageAnswer_spec (slot i : Nat) (s : State) : (imageAnswer slot i s = { s with mbx := (imageAnswer slot i s).mbx })
    ∧ getMbx (imageAnswer slot i s) i = answeredBox slot (getMbx s i)
    ∧ ∀ j, j ≠ i → getMbx (imageAnswer slot i s) j = getMbx s j := by
  by_cases hw : ∃ h, (getMbx s i).taken = some (.image slot h)
  · obtain ⟨h, ht⟩ := hw
    rw [imageAnswer_waiting ht]
    refine ⟨rfl, ?_, fun j hj => ?_⟩
    · simp only [postReply, getMbx_modMbx_self, answeredBox, ht, if_true]
    · simp only [postReply, getMbx_modMbx_other _ _ hj]
  · have other : ∀ h, (getMbx s i).taken ≠ some (.image slot h) := fun h ht => hw ⟨h, ht⟩
    rw [imageAnswer_other other, answeredBox_other other]
    exact ⟨rfl, rfl, fun _ _ => rfl⟩

/-- Answers to a list of mailboxes change those alone, each once. -/
theorem imageAnswers_spec (slot : Nat) (l : List Nat) (hl : l.Nodup) : ∀ s : State, ∀ t, t = l.foldl (fun s i => imageAnswer slot i s) s →
    t = { s with mbx := t.mbx } ∧ ∀ i, getMbx t i = if i ∈ l then answeredBox slot (getMbx s i) else getMbx s i := by
  induction l with
  | nil => rintro s t rfl; exact ⟨rfl, fun _ => rfl⟩
  | cons k r ih =>
    obtain ⟨hk, hr⟩ := List.nodup_cons.mp hl
    intro s t ht
    obtain ⟨hframe, hself, hother⟩ := imageAnswer_spec slot k s
    obtain ⟨htail, hboxes⟩ := ih hr (imageAnswer slot k s) t ht
    refine ⟨by rw [htail, hframe], fun i => ?_⟩
    rw [hboxes i]
    by_cases hi : i = k
    · subst hi
      rw [if_neg hk, if_pos List.mem_cons_self, hself]
    · rw [hother i hi]
      simp [hi]

end Sys2Proof.Laws

namespace Sys2Proof.Proofs

open Sys2Proof.Machine Sys2Proof.Laws

/-- Settles O22: a TWAIT past its limit fails with 0x160, and a furrow whose engines hold nothing of it leaves its reset. -/
theorem waitsAndResetsOfFurrowsEnd : Obligations.WaitsAndResetsOfFurrowsEnd := by
  unfold Obligations.WaitsAndResetsOfFurrowsEnd
  refine ⟨fun s f t0 r g hg hr hs hw ht hp hv hi hf => ?limit, fun s f h hrel => ?idle⟩
  case limit =>
    subst hg
    exact act_faults (twaitExpiry_fails hr hs hw ht hp hv) hi hf
  case idle =>
    obtain ⟨u, hu, hfur, hframe, hresets, hentries⟩ := furIdle_released h hrel
    have hg (n : Nat) : getFur u n = getFur (modFur f Furrow.toIdle s) n := by rw [getFur, hfur, hframe]; rfl
    have hf : getFur (ended s u) f = (getFur s f).toIdle := by rw [getFur_ended, hg, getFur_modFur_self]
    refine ⟨_, act_of hu, hf, hf ▸ rfl, hf ▸ rfl, fun n hn => ?_, ?_, ?_, ?_⟩
    · rw [getFur_ended, hg, getFur_modFur_other _ _ _ _ hn]
    · obtain ⟨o, he⟩ := ended_frame (s := s) (u := u) (by rw [hframe]) (by rw [hframe]) (by rw [hframe]) (by rw [hframe])
      rw [he, hframe]
    · rw [ended_flt]
      exact hresets
    · rw [ended_flt]
      exact hentries

/-- Settles O24: a doorbell and a notify read act on their furrow's ring and FIFO, and an image that may replace its slot's answers the
mailboxes that waited with it, one by one. -/
theorem doorbellsNotifiesAndImages : Obligations.DoorbellsNotifiesAndImages := by
  unfold Obligations.DoorbellsNotifiesAndImages
  refine ⟨⟨fun s sv n w g hg hw => ⟨fun hc hp => ?taken, fun hout hstate => ?noted⟩,
    fun s sv n hr => ⟨fun hn => ?empty, fun w r hn => ?pops⟩⟩, fun s slot x hx hu => ?image⟩
  case taken =>
    subst hg
    have ok : bellOk (getFur s n) w = true := (bellOk_iff ..).mpr ⟨hc, hp⟩
    exact act_of ((cpWrite_writable hw _).trans (congrArg (cpAnswer sv 0 0) (if_pos ok)))
  case noted =>
    subst hg
    have bad : ¬ bellOk (getFur s n) w = true := by rw [bellOk_iff]; omega
    exact act_of ((cpWrite_writable hw _).trans (congrArg (cpAnswer sv 0 0) ((if_neg bad).trans (if_pos hstate))))
  case empty =>
    have pops : popNotify n (fresh s) = (0, fresh s) := by simp only [popNotify, getFur_fresh, hn]
    refine act_of ((cpRead_readable hr _).trans ?_)
    rw [pops]
  case pops =>
    have pops : popNotify n (fresh s) = (w, modFur n (fun g => { g with notify := r }) (fresh s)) := by
      simp only [popNotify, getFur_fresh, hn]
    refine act_of ((cpRead_readable hr _).trans ?_)
    rw [pops]
  case image =>
    have replaces : replaceImage slot (fresh s) = (List.range 4).foldl (fun s i => imageAnswer slot i s)
        { fresh s with img := { s.img with slots := s.img.slots.set slot x, waiting := s.img.waiting.del slot } } := by
      have hx' : (fresh s).img.waiting.find slot = some x := hx
      unfold replaceImage
      rw [hx']
      exact if_neg (by rw [show slotInUse (fresh s) slot = false from hu]; exact Bool.false_ne_true)
    obtain ⟨hframe, hboxes⟩ := imageAnswers_spec slot (List.range 4) List.nodup_range _ _ replaces
    have hbox (i : Nat) : getMbx (ended s (replaceImage slot (fresh s))) i
        = if i ∈ List.range 4 then answeredBox slot (getMbx s i) else getMbx s i := by
      rw [getMbx, ended_mbx]
      exact hboxes i
    refine ⟨_, act_next _ s, ?_, fun i h hi ht => ?_, fun i hi => ?_⟩
    · obtain ⟨o, he⟩ := ended_frame (s := s) (u := replaceImage slot (fresh s)) (by rw [hframe]; rfl) (by rw [hframe]; rfl)
        (by rw [hframe]; rfl) (by rw [hframe]; rfl)
      rw [he, hframe]
      rfl
    · rw [hbox, if_pos (List.mem_range.mpr hi)]
      exact answeredBox_waiting ht
    · rw [hbox, answeredBox_other hi, ite_self]

end Sys2Proof.Proofs
end

section
/-! SUPPORT. How a furrow's commands are fetched, complete and retire, and the statements that they settle. -/

namespace Sys2Proof.Laws

open Sys2Proof.Machine

/-! ### Steps 1 to 8 of R74 on a fetched command -/

section
variable {s t : State} {f : Nat} {x : Fetched} {c : Cmd} {p : Place}

/-- A sound command comes to its predicate. -/
theorem considerCmd_sound (h : Sound t f x) : considerCmd f x t = atPredicate f (decodeCmd x.raw) x.place t := by
  obtain ⟨hread, hcrc, hfields, hbreak⟩ := h
  simp only [considerCmd, hread, hcrc, hfields, hbreak, ne_eq, not_true_eq_false, if_false]

/-- A command whose CRC does not fit fails with 0x104. -/
theorem considerCmd_crc (h0 : x.bad = 0) (hc : cmdCrc x.raw ≠ (decodeCmd x.raw).crc) :
    considerCmd f x t = failCmd f (decodeCmd x.raw) 0x104 t := by
  simp only [considerCmd, h0, ne_eq, not_true_eq_false, if_false]
  exact if_pos hc

theorem atPredicate_holds (h : PredHolds (getFur t f) c) : atPredicate f c p t
    = modFur f (fun g => { g with cur := some { cmd := c, place := p }, state := .running, wait := .none, waitSince := none }) t := by
  refine if_neg (fun hp => ?_)
  simp only [Bool.and_eq_true, Bool.not_eq_true'] at hp
  exact absurd (h hp.1) (by rw [hp.2]; exact Bool.false_ne_true)

theorem atPredicate_fails (h : ¬ PredHolds (getFur t f) c) (hn : notifyBlocked (getFur t f) = false) : atPredicate f c p t
    = cntCommand f (getFur t f).nextSeq
        (pushIssued f { tid := (getFur t f).nextTid, cmd := c, outst := false, done := true, skipped := true } t) := by
  have stays : (c.fP && !(getFur t f).preds.getLsbD c.pidx) = true := by
    simpa [PredHolds] using h
  have free : ¬ notifyBlocked (getFur t f) = true := by rw [hn]; exact Bool.false_ne_true
  exact (if_pos stays).trans (if_neg free)

/-- Whether a command is sound hangs on the build and on its furrow's breaks alone. -/
theorem sound_congr (h : Sound s f x) (he : e64 t = e64 s) (hctl : (getFur t f).ctl = (getFur s f).ctl)
    (hm : (getFur t f).brkMatch = (getFur s f).brkMatch) : Sound t f x := by
  unfold Sound breakCause at *
  rw [he, hctl, hm]
  exact h

end

/-! ### Where the next command comes from (R56, R61, R81) -/

/-- With nothing to skip, no ring slot is consumed for it. -/
theorem consumeSkip_none {g : Furrow} (h : g.skip = 0) : consumeSkip g = g := by
  obtain ⟨cons, skip⟩ : (consumeSkip g).cons = g.cons ∧ (consumeSkip g).skip = g.skip := by simp [consumeSkip, h]
  rw [show consumeSkip g = { g with cons := (consumeSkip g).cons, skip := (consumeSkip g).skip } from rfl, cons, skip]

/-- A furrow written back as it stands. -/
def touch (f : Nat) (s : State) : State := modFur f (fun g => g) s

theorem getFur_touch (f : Nat) (s : State) : getFur (touch f s) f = getFur s f := getFur_modFur_self ..

theorem modFur_touch (f : Nat) (g : Furrow → Furrow) (s : State) : modFur f g (touch f s) = modFur f g s := modFur_modFur ..

/-- A change that leaves its furrow as it stands. -/
theorem modFur_same {f : Nat} {g : Furrow → Furrow} {s : State} (h : g (getFur s f) = getFur s f) : modFur f g s = touch f s :=
  modFur_congr h

section
variable {s : State} {f : Nat} {u : Upset} (hm : mayFetch s f = true) (hk : (getFur s f).skip = 0) (hl : (getFur s f).loop = {})
  (hc : (getFur s f).cur = none)
include hm hk hl hc

/-- Outside a LOOP and with no command at issue, a fetch takes a prefetched command first, else reads one. -/
theorem fetchCmd_next : fetchCmd f u (fresh s) = match (getFur s f).prefetch with
    | x :: r => considerCmd f x (modFur f (fun g => { g with prefetch := r }) (fresh s))
    | [] => match readCmd f u (touch f (fresh s)) with
      | (.cmd x, s') => takeCmd f x s'
      | (.flying, s') => s'
      | (.nothing, s') => if (getFur s f).fetching.isSome then s' else waitOn f .ringEmpty s' := by
  have may : ¬ (!mayFetch (fresh s) f) = true := by rw [show mayFetch (fresh s) f = true from hm]; exact Bool.false_ne_true
  have consumed : modFur f consumeSkip (fresh s) = touch f (fresh s) := modFur_same (consumeSkip_none hk)
  have ends : modFur f (fun g => { g with loop := {} }) (touch f (fresh s)) = touch f (fresh s) := by
    rw [modFur_touch]
    refine modFur_same ?_
    rw [getFur_fresh, ← hl]
  have next : loopNext (getFur s f).loop = none := by rw [hl]; rfl
  have need : (getFur s f).loop.need = 0 := by rw [hl]
  unfold fetchCmd
  rw [if_neg may, consumed]
  simp only [getFur_touch, getFur_fresh, hc, next, need, if_true, ends, hk]
  cases hp : (getFur s f).prefetch with
  | nil =>
    simp only [ne_eq, not_true_eq_false, if_false] <;> rfl
  | cons x r =>
    simp only [modFur_touch]
    exact if_neg (by rw [getFur_modFur_self]; simp [need])

theorem fetchCmd_prefetched {x : Fetched} {r : List Fetched} (hp : (getFur s f).prefetch = x :: r) :
    fetchCmd f u (fresh s) = considerCmd f x (modFur f (fun g => { g with prefetch := r }) (fresh s)) := by
  rw [fetchCmd_next hm hk hl hc, hp]

/-- With nothing prefetched, the command at the next ring slot in buffer SRAM is read and its slot consumed (R56, R61). -/
theorem fetchCmd_ringSram {a : Nat} (hp : (getFur s f).prefetch = []) (hi : (getFur s f).pc.inImage = false)
    (hfly : (getFur s f).fetching = none) (hav : (getFur s f).avail ≠ 0) (hsram : (getFur s f).ringSram = true) (hu : u ≠ .sram)
    (ha : a = (getFur s f).ringBase + 32 * ((getFur s f).cons.toNat % (getFur s f).ringSize)) (hend : a + 32 ≤ sramSize s) :
    fetchCmd f u (fresh s) = considerCmd f
      { raw := rawCmd (s.sram.readBytes a 32), place := { idx := (getFur s f).cons.toNat % (getFur s f).ringSize } }
      (modFur f (fun g => { g with cons := g.cons + 1 }) (fresh s)) := by
  have reads : readCmd f u (touch f (fresh s)) = (.cmd { raw := rawCmd (s.sram.readBytes a 32), place := { idx := (getFur s f).cons.toNat % (getFur s f).ringSize } },
      modFur f (fun g => { g with cons := g.cons + 1 }) (fresh s)) := by
    have waits : ¬ ((getFur s f).avail = 0 ∨ (getFur s f).fetching.isSome = true) := by simp [hav, hfly]
    have lies : ¬ (u = Upset.sram ∨ sramSize (touch f (fresh s)) < a + 32) := not_or.mpr ⟨hu, Nat.not_lt.mpr hend⟩
    unfold readCmd
    simp only [getFur_touch, getFur_fresh, hi, Bool.false_eq_true, if_false, hsram, if_true, modFur_touch, ← ha]
    rw [if_neg waits, if_neg lies]
    rfl
  rw [fetchCmd_next hm hk hl hc, hp]
  simp only [reads]
  refine if_neg ?_
  rw [getFur_modFur_self, getFur_fresh, hl]
  exact Nat.lt_irrefl 0

/-- With nothing to fetch, the furrow waits. -/
theorem fetchCmd_empty (hp : (getFur s f).prefetch = []) (hi : (getFur s f).pc.inImage = false)
    (hfly : (getFur s f).fetching = none) (hav : (getFur s f).avail = 0) : fetchCmd f u (fresh s) = waitOn f .ringEmpty (fresh s) := by
  have reads : readCmd f u (touch f (fresh s)) = (.nothing, touch f (fresh s)) := by
    unfold readCmd
    simp only [getFur_touch, getFur_fresh, hi, Bool.false_eq_true, if_false]
    exact if_pos (.inl hav)
  rw [fetchCmd_next hm hk hl hc, hp]
  simp only [reads, hfly, Option.isSome_none, Bool.false_eq_true, if_false, waitOn, modFur_touch]
  rfl

end

end Sys2Proof.Laws

namespace Sys2Proof.Proofs

open Sys2Proof.Machine Sys2Proof.Laws

/-- Settles O20: the next command is a prefetched one or that of the next ring slot; steps 1 to 8 of R74 then look at it. -/
theorem fetchBringsTheNextCommand : Obligations.FetchBringsTheNextCommand := by
  unfold Obligations.FetchBringsTheNextCommand
  rintro s f u g rfl hm hk hl hc
  refine ⟨fun x r hp => ?prefetched, fun a x hp hi hfly hav hsram hu ha hend hx hs hpred => ?ring, fun hp hi hfly hav => ?empty⟩
  case prefetched =>
    have takes := fetchCmd_prefetched (u := u) hm hk hl hc hp
    have popped : getFur (modFur f (fun g => { g with prefetch := r }) (fresh s)) f = { getFur s f with prefetch := r } :=
      getFur_modFur_self ..
    refine ⟨fun hs hpred => ?holds, fun hs hpred hn => ?fails, fun h0 hcrc hi hf => ?crc⟩
    case holds =>
      have sound := sound_congr (t := modFur f (fun g => { g with prefetch := r }) (fresh s)) hs rfl (popped ▸ rfl) (popped ▸ rfl)
      refine run_of (takes.trans ((considerCmd_sound sound).trans ((atPredicate_holds ?_).trans ?_)))
      · rw [popped]; exact hpred
      · rw [modFur_modFur]
        rfl
    case fails =>
      have sound := sound_congr (t := modFur f (fun g => { g with prefetch := r }) (fresh s)) hs rfl (popped ▸ rfl) (popped ▸ rfl)
      refine ⟨_, run_of (takes.trans ((considerCmd_sound sound).trans (atPredicate_fails (by rw [popped]; exact hpred)
        (by rw [popped]; exact hn)))), fun n hne => ?_, ?_⟩
      · rw [getFur_cntCommand, pushIssued, getFur_modFur_other _ _ _ _ hne, getFur_modFur_other _ _ _ _ hne, getFur_fresh]
      · have active : (getFur s f).active = true := by
          unfold mayFetch at hm
          simp only [Bool.and_eq_true] at hm
          obtain ⟨⟨⟨⟨⟨-, hactive⟩, -⟩, -⟩, -⟩, -⟩ := hm
          exact hactive
        rw [getFur_cntCommand, pushIssued, getFur_modFur_self, popped]
        simp only [Furrow.active] at active ⊢
        simp [active, hc]
    case crc =>
      refine ⟨_, run_of (takes.trans (considerCmd_crc h0 hcrc)), ?_⟩
      simp [failCmd, settleFault, pushIssued, hi, hf, raiseEv, enterFaulted]
      unfold getFur
      simp
  case ring =>
    have takes := fetchCmd_ringSram hm hk hl hc hp hi hfly hav hsram hu ha hend
    have consumed : getFur (modFur f (fun g => { g with cons := g.cons + 1 }) (fresh s)) f
        = { getFur s f with cons := (getFur s f).cons + 1 } := getFur_modFur_self ..
    subst hx
    have sound := sound_congr (t := modFur f (fun g => { g with cons := g.cons + 1 }) (fresh s)) hs rfl (consumed ▸ rfl) (consumed ▸ rfl)
    refine run_of (takes.trans ((considerCmd_sound sound).trans ((atPredicate_holds ?_).trans ?_)))
    · rw [consumed]; exact hpred
    · rw [modFur_modFur]
      rfl
  case empty => exact run_of (fetchCmd_empty hm hk hl hc hp hi hfly hav)

end Sys2Proof.Proofs
end

section
/-! SUPPORT. How a furrow's commands complete and retire, and the statement that they settle. -/

namespace Sys2Proof.Laws

open Sys2Proof.Machine

/-! ### Events of issued commands (R76, R79) -/

/-- An event of a furrow's issued commands takes place outside the Safe state and a reset (R80, R422). -/
theorem furEvent_open {s : State} {f : Nat} (hs : s.flt.safe = false) (hr : (getFur s f).resetting = none) (hf : f < furrowCount s)
    (k : State → State) : furEvent f k (fresh s) = k (fresh s) := by
  refine if_neg ?_
  have hf' : ¬ furrowCount (fresh s) ≤ f := Nat.not_le.mpr hf
  simp [hs, hr, hf']

/-- While no failure is to be settled, or a command is still out, settling changes nothing (R79). -/
theorem settleFault_stays {s : State} {f : Nat} (he : (getFur s f).issued = [] → (getFur s f).forced = none)
    (hq : ((getFur s f).failing && (getFur s f).issued.all (fun i => i.done)) = false) : settleFault f s = s := by
  unfold settleFault
  simp only []
  split
  · rename_i hi
    rw [he hi]
  · split
    · rfl
    · exact if_neg (by rw [hq]; exact Bool.false_ne_true)

/-- The issued commands once those of a name are done. -/
def doneAt (k : Nat) (l : List Issued) : List Issued := l.map (fun j => if j.tid = k then { j with done := true } else j)

theorem doneAt_eq_nil {k : Nat} {l : List Issued} : doneAt k l = [] ↔ l = [] := List.map_eq_nil_iff

/-- A command of another name that is still out stays so. -/
theorem doneAt_all_false {k : Nat} {l : List Issued} (h : ∃ j ∈ l, j.tid ≠ k ∧ j.done = false) :
    (doneAt k l).all (fun i => i.done) = false := by
  obtain ⟨j, hj, hk, hd⟩ := h
  rw [List.all_eq_false]
  exact ⟨j, List.mem_map.mpr ⟨j, hj, if_neg hk⟩, by rw [hd]; exact Bool.false_ne_true⟩

theorem issued_ne_nil {g : Furrow} {k : Nat} {i : Issued} (hi : g.issued.find? (fun i => i.tid == k) = some i) : g.issued ≠ [] :=
  fun h => by simp [h] at hi

section
variable {s : State} {f k : Nat} {i : Issued} (hi : (getFur s f).issued.find? (fun i => i.tid == k) = some i)
  (hd : i.done = false) (hl : i.left = 0) (hs : (getFur s f).stepping = false)
include hi hd hl hs

/-- An outstanding command whose parts are over is done, with its failure to be settled. -/
theorem completeCmd_done : completeCmd f k s = settleFault f (modFur f (fun g => { g with
    issued := doneAt k g.issued, failing := g.failing || i.err.isSome }) s) := by
  unfold completeCmd
  simp only [hi, hs, Bool.false_eq_true, false_and, if_false]
  rw [if_neg (by simp [hd, hl])]
  rfl

/-- It leaves its furrow with the command done while no failure is to be settled yet. -/
theorem completeCmd_stays (hq : (((getFur s f).failing || i.err.isSome) && (doneAt k (getFur s f).issued).all (fun i => i.done)) = false) :
    completeCmd f k s = modFur f (fun g => { g with issued := doneAt k g.issued, failing := g.failing || i.err.isSome }) s := by
  rw [completeCmd_done hi hd hl hs]
  refine settleFault_stays (fun h => ?_) ?_
  · rw [getFur_modFur_self] at h
    exact absurd (doneAt_eq_nil.mp h) (issued_ne_nil hi)
  · rw [getFur_modFur_self]
    exact hq

/-- The one command that its furrow has issued faults it when it ends in error (R79). -/
theorem completeCmd_faults {code : Nat} (he : i.err = some code) (h1 : (getFur s f).issued = [i]) (hf : (getFur s f).forced = none) :
    FaultsAtIssue s (ended s (completeCmd f k (fresh s))) f i.cmd code := by
  have htid : i.tid = k := by simpa using List.find?_some hi
  unfold FaultsAtIssue
  simp only [getFur_ended, ended_flt]
  rw [completeCmd_done (s := fresh s) hi hd hl hs]
  simp [settleFault, doneAt, h1, htid, he, hf, raiseEv, enterFaulted]
  unfold getFur
  simp

end

/-! ### Retirement (R77, R87, R491) -/

/-- A furrow whose oldest command, `h` before `r`, has retired (R77). -/
def retired (g : Furrow) (h : Issued) (r : List Issued) : Furrow :=
  { g with seq := g.seq + 1, issued := r, notify := if h.cmd.fN = true then g.notify ++ [pk [(0, (g.seq + 1).toNat % 2 ^ 24), (24, h.skipped.toNat), (31, 1)]] else g.notify }

/-- A furrow that a HALT leaves Halted as it retires (R87). -/
def halted (g : Furrow) : Furrow :=
  { g with state := .halted, haltedEvt := true, halting := false, wait := .none, waitSince := none, stepping := false, stepTid := none }

/-- What counting changes: counters, and the fault of one that overflows (R491). -/
theorem countSrc_frame (src unit n : Nat) (s : State) : countSrc src unit n s
    = { s with obs := (countSrc src unit n s).obs, flt := { s.flt with inflight := (countSrc src unit n s).flt.inflight } } := by
  unfold countSrc noteIf
  simp only []
  split <;> rfl

@[simp] theorem getFur_countSrc (src unit n : Nat) (s : State) (f : Nat) : getFur (countSrc src unit n s) f = getFur s f := by
  rw [countSrc_frame]
  rfl

section
variable {s : State} {f : Nat} {h : Issued} {r : List Issued} (hi : (getFur s f).issued = h :: r) (hd : h.done = true)
  (he : h.err = none) (hfault : (getFur s f).state ≠ .faulted) (hidle : (getFur s f).state ≠ .idle)
  (hn : notifyBlocked (getFur s f) = false) (hfail : (getFur s f).failing = false) (hforced : (getFur s f).forced = none)
  (hw : (getFur s f).wait ≠ .notifyFull) (hs : (getFur s f).stepping = false)
include hi hd he hfault hidle hn hfail hforced hw hs

/-- The oldest command retires, and a HALT then leaves its furrow Halted. -/
theorem retireHead_retires : retireHead f s = if h.cmd.op = 0x06 ∧ h.skipped = false
    then modFur f (fun g => halted (retired g h r)) s else modFur f (fun g => retired g h r) s := by
  have goes : ¬ (!h.done || h.err.isSome || (getFur s f).state == .faulted || (getFur s f).state == .idle) = true := by
    simp [hd, he, hfault, hidle]
  have quiet (u : State) (hg : (getFur u f).failing = false ∧ (getFur u f).forced = none) : settleFault f u = u :=
    settleFault_stays (fun _ => hg.2) (by rw [hg.1]; rfl)
  unfold retireHead
  simp only [hi]
  rw [if_neg goes]
  simp only [hn, hw, hs, Bool.false_eq_true, false_and, if_false]
  by_cases halts : h.cmd.op = 0x06 ∧ h.skipped = false
  · rw [if_pos (by simpa using halts), if_pos halts, modFur_modFur, quiet _ (by rw [getFur_modFur_self]; exact ⟨hfail, hforced⟩)]
    exact modFur_congr rfl
  · rw [if_neg (by simpa using halts), if_neg halts, quiet _ (by rw [getFur_modFur_self]; exact ⟨hfail, hforced⟩)]
    exact modFur_congr rfl

/-- The furrow that a retirement leaves. -/
theorem getFur_retireHead : getFur (retireHead f s) f = if h.cmd.op = 0x06 ∧ h.skipped = false
    then halted (retired (getFur s f) h r) else retired (getFur s f) h r := by
  rw [retireHead_retires hi hd he hfault hidle hn hfail hforced hw hs]
  split <;> exact getFur_modFur_self ..

theorem furOnly_retireHead : FurOnly f s (retireHead f s) := by
  rw [retireHead_retires hi hd he hfault hidle hn hfail hforced hw hs]
  split <;> exact furOnly_modFur ..

/-- A retirement advances FUR_SEQ. -/
theorem retireHead_seq : (getFur (retireHead f s) f).seq ≠ (getFur s f).seq := by
  have seq : (getFur (retireHead f s) f).seq = (getFur s f).seq + 1 := by
    rw [getFur_retireHead hi hd he hfault hidle hn hfail hforced hw hs]
    split <;> rfl
  rw [seq]
  bv_omega

end

end Sys2Proof.Laws

namespace Sys2Proof.Proofs

open Sys2Proof.Machine Sys2Proof.Laws

/-- Settles O21: a command whose parts are over is done at once, and what settling its failure does then hangs on what else is out; the
oldest command, done, retires and is counted. -/
theorem commandsCompleteAndRetireInOrder : Obligations.CommandsCompleteAndRetireInOrder := by
  unfold Obligations.CommandsCompleteAndRetireInOrder
  rintro s f g rfl hsafe hres hf
  refine ⟨fun k i hi hd hl hfail hs => ⟨fun he => ?good, fun code he hj => ?waits, fun code he h1 hforced => ?faults⟩,
    fun h r hi hd he hfault hidle hn hfail hforced hw hs => ?retires⟩
  case good =>
    have done := (furEvent_open hsafe hres hf (completeCmd f k)).trans
      (completeCmd_stays (s := fresh s) hi hd hl hs (by rw [getFur_fresh, hfail, he]; rfl))
    refine act_fur done (furOnly_modFur ..) ?_
    have still : ((getFur s f).failing || i.err.isSome) = (getFur s f).failing := by rw [he]; exact Bool.or_false _
    rw [getFur_modFur_self, getFur_fresh, still]
    rfl
  case waits =>
    have done := (furEvent_open hsafe hres hf (completeCmd f k)).trans
      (completeCmd_stays (s := fresh s) hi hd hl hs (by rw [getFur_fresh, doneAt_all_false hj, Bool.and_false]))
    refine act_fur done (furOnly_modFur ..) ?_
    rw [getFur_modFur_self, getFur_fresh, he, hfail]
    rfl
  case faults => exact ⟨_, act_of (furEvent_open hsafe hres hf (completeCmd f k)), completeCmd_faults hi hd hl hs he h1 hforced⟩
  case retires =>
    have left := getFur_retireHead (s := fresh s) hi hd he hfault hidle hn hfail hforced hw hs
    obtain ⟨hother, hframe⟩ := furOnly_retireHead (s := fresh s) hi hd he hfault hidle hn hfail hforced hw hs
    have seq := retireHead_seq (s := fresh s) hi hd he hfault hidle hn hfail hforced hw hs
    have count := countSrc_frame 5 f 1 (retireHead f (fresh s))
    refine ⟨_, retired (getFur s f) h r, act_of ((furEvent_open hsafe hres hf _).trans (if_neg seq)), fun n hne => ?_, ?_, rfl,
      fun hop => ?_, fun hop hsk => ?_⟩
    · rw [getFur_ended, getFur_countSrc]
      exact hother n hne
    · generalize retireHead f (fresh s) = w at hframe count
      obtain ⟨o, he⟩ := ended_frame (s := s) (u := countSrc 5 f 1 w) (by rw [count, hframe]; rfl) (by rw [count, hframe]; rfl)
        (by rw [count, hframe]; rfl) (by rw [count, hframe]; rfl)
      rw [he, count, hframe]
      rfl
    · rw [getFur_ended, getFur_countSrc, left, if_neg (fun hh => hop.elim (· hh.1) (fun hs => absurd hh.2 (by rw [hs]; decide)))]
      rfl
    · rw [getFur_ended, getFur_countSrc, left, if_pos ⟨hop, hsk⟩, halted]
      have steps : (retired (getFur s f) h r).stepping = false := hs
      rw [← steps]
      rfl

end Sys2Proof.Proofs
end

section
/-! SUPPORT. The tally and doorbell apertures, and the statement that they settle. -/

namespace Sys2Proof.Laws

open Sys2Proof.Machine

/-! ### Requests of a core that reach an aperture (R528-R531) -/

/-- Credits that return change ports and outputs alone (R524). -/
theorem returnIq_frame (port : Nat) (w : Bool) (s : State) :
    returnIq port w s = { s with mp := (returnIq port w s).mp, outbox := (returnIq port w s).outbox } := by
  unfold returnIq payCredits
  simp only []
  split <;> rfl

section
variable (port : Nat) (w : Bool) (s : State)
@[simp] theorem returnIq_getPlot (p : Nat) : getPlot (returnIq port w s) p = getPlot s p := by rw [returnIq_frame]; rfl
@[simp] theorem returnIq_getFur (f : Nat) : getFur (returnIq port w s) f = getFur s f := by rw [returnIq_frame]; rfl
@[simp] theorem returnIq_furrowCount : furrowCount (returnIq port w s) = furrowCount s := by rw [returnIq_frame]; rfl
end

section
variable {s : State} {port : Nat} {b : IqBeat} {u : Upset}

theorem iqRequest_tally {w : Bool} (h : IqReaches s .tally port b) (hw : b.write = w) : iqRequest .tally w port b u s = tapRequest port b u s := by
  subst hw
  obtain ⟨he, hp, hu, hg, hs, h3, hr, hc, ho⟩ := h
  simp [iqRequest, he, hp, hu, hg, hs, h3, hr, hc, ho]

theorem iqRequest_doorbell {w : Bool} (h : IqReaches s .doorbell port b) (hw : b.write = w) : iqRequest .doorbell w port b u s = dapRequest port b s := by
  subst hw
  obtain ⟨he, hp, hu, hg, hs, h3, hr, hc, ho⟩ := h
  simp [iqRequest, he, hp, hu, hg, hs, h3, hr, hc, ho]

/-- The place of a doubleword's byte enables is found again. -/
theorem find_enables : ∀ k < 16, (List.range 16).find? (fun j => BitVec.ofNat 128 (255 * 2 ^ (8 * k)) == BitVec.ofNat 128 (255 * 2 ^ (8 * j)))
    = some k := by decide

/-- A read of a tally within the plot's answers it at its place of the line (R530). -/
theorem tapRequest_reads {t : Nat} (hw : b.write = false) (hl : b.len = 7) (ho : b.addr.toNat % 2 ^ 24 = 8 * t)
    (hq : t < (getPlot s b.plot.toNat).tallyQuota) (hu : u ≠ .tally) : tapRequest port b u s
      = emit (.ir port false b.tag.toNat false (BitVec.ofNat 1024
          ((getTally (returnIq port b.write s) b.plot.toNat t).toNat * 2 ^ (8 * (8 * t % 128))))) (returnIq port b.write s) := by
  have shape : ¬ (b.len ≠ 7 ∨ 8 * t % 8 ≠ 0) := by simp [hl]
  have place : 8 * t / 8 = t := Nat.mul_div_cancel_left t (by decide)
  unfold tapRequest
  simp only [hw, Bool.false_eq_true, if_false, ho, returnIq_getPlot, place]
  rw [if_neg shape, if_neg (Nat.not_le.mpr hq), if_neg hu]

/-- A write of one doubleword adds it to its tally (R62). -/
theorem tapRequest_adds {k : Nat} (hw : b.write = true) (hk : k < 16) (he : b.be = BitVec.ofNat 128 (255 * 2 ^ (8 * k)))
    (hq : (b.addr.toNat % 2 ^ 24 + 8 * k) / 8 < (getPlot s b.plot.toNat).tallyQuota) : tapRequest port b u s
      = emit (.ir port true b.tag.toNat false 0) (addTally b.plot.toNat ((b.addr.toNat % 2 ^ 24 + 8 * k) / 8)
          (BitVec.ofNat 64 (fld b.data (64 * k) 64)) (returnIq port b.write s)) := by
  unfold tapRequest
  simp only [hw, if_true, he, find_enables k hk, returnIq_getPlot]
  exact if_neg (Nat.not_le.mpr hq)

/-- A write of the doorbell of a furrow of the core's own plot presents its index (R531). -/
theorem dapRequest_rings {n : Nat} (hw : b.write = true) (he : b.be = 0xFF) (ho : b.addr.toNat % 2 ^ 24 = 4096 * n)
    (hn : n < furrowCount s) (hp : (getFur s n).plot = b.plot.toNat) : dapRequest port b s
      = emit (.ir port true b.tag.toNat false 0) (doorbell n (BitVec.ofNat 32 (fld b.data 0 32)) (returnIq port b.write s)) := by
  have place : b.addr.toNat % 2 ^ 24 / 4096 = n := by omega
  have aligned : b.addr.toNat % 4096 = 0 := by omega
  have off : ¬ (!b.write || b.be != 0xFF || b.addr.toNat % 4096 != 0 || decide (furrowCount s ≤ n)
      || (getFur s n).plot != b.plot.toNat) = true := by
    simp [hw, he, aligned, hp, Nat.not_le.mpr hn]
  unfold dapRequest
  simp only [place, returnIq_furrowCount, returnIq_getFur]
  exact if_neg off

end

end Sys2Proof.Laws

namespace Sys2Proof.Proofs

open Sys2Proof.Machine Sys2Proof.Laws

/-- Settles O38: a request that reaches its aperture owes its credits and then has the aperture's one effect. -/
theorem coreAperturesReadAddAndRing : Obligations.CoreAperturesReadAddAndRing := by
  unfold Obligations.CoreAperturesReadAddAndRing
  rintro s v port b rfl
  refine ⟨fun u t hr hw hl ho hq hu => ?read, fun k hr hw hk he hq => ?add, fun n hr hw he ho hn hp => ?ring⟩
  case read => exact run_of ((iqRequest_tally hr hw).trans (tapRequest_reads (s := fresh s) hw hl ho hq hu))
  case add => exact run_of ((iqRequest_tally hr hw).trans (tapRequest_adds (s := fresh s) hw hk he hq))
  case ring => exact run_of ((iqRequest_doorbell hr hw).trans (dapRequest_rings (s := fresh s) hw he ho hn hp))

end Sys2Proof.Proofs
end

section
/-! SUPPORT. Answers that arrive for outstanding requests, and the statement that they settle. -/

namespace Sys2Proof.Laws

open Sys2Proof.Machine

/-! ### The request that an answer names (R163, R357, R435) -/

/-- A congestion hint sets a level of the Trellis alone (R357). -/
theorem takeHint_frame (p : Packet) (s : State) : takeHint p s = { s with trl := (takeHint p s).trl } := by
  unfold takeHint
  split <;> rfl

section
variable {s : State} {l plot kind : Nat} {p : Packet}

/-- Neither a packet's leaving its buffer nor its hint touches the requests that are out, nor the clock. -/
theorem matchRq_answer (q : Nat) : matchRq (takeHint p (taken s l p)) p q = matchRq s p q := by
  rw [takeHint_frame]
  unfold matchRq
  rw [taken_xfer]

theorem clk_answer : (takeHint p (taken s l p)).clk = s.clk := by
  rw [takeHint_frame, taken_eq]

/-- A reply that arrives acts on the request that it answers (R435). -/
theorem reply_arrives {id : Nat} {r : Rq} (hp : Arrives s l p kind plot) (hr : matchRq s p p.seq = some (id, r))
    (k : Nat → Rq → State → State) : reply l p kind k (fresh s) = k id r (takeHint p (taken s l p)) := by
  refine (arrival_arrives hp _ _).trans ?_
  simp only [matchRq_answer, hr]

end

end Sys2Proof.Laws

namespace Sys2Proof.Proofs

open Sys2Proof.Machine Sys2Proof.Laws

/-- Settles O29: an answer that arrives takes its packet and its hint, finds the request that it names, and has its kind's effect on it. -/
theorem answersActOnTheirRequests : Obligations.AnswersActOnTheirRequests := by
  unfold Obligations.AnswersActOnTheirRequests
  rintro s l p plot id r v rfl
  refine ⟨fun hp => run_of (arrival_arrives hp _ _), fun hr => ⟨fun g run hp hd hw => ?data, fun f tid g hp hd hw => ?short,
    fun hp => run_of (reply_arrives hp hr _), fun hp hd => ?busy, fun hp => run_of (reply_arrives hp hr _)⟩⟩
  case data =>
    refine run_of ((reply_arrives hp hr _).trans ?_)
    simp only [takeReadData, hd, hw, Bool.false_eq_true, if_false]
  case short =>
    refine run_of ((reply_arrives hp hr _).trans ?_)
    simp only [takeShort, hd, hw, Bool.false_eq_true, if_false]
  case busy =>
    refine run_of ((reply_arrives hp hr _).trans ?_)
    rw [restRq, hd, clk_answer]
    exact if_neg Bool.false_ne_true

end Sys2Proof.Proofs
end

section
/-! SUPPORT. COPY, PUT, GET and FILL at issue, and the statement that they settle. -/

namespace Sys2Proof.Laws

open Sys2Proof.Machine

/-! ### The checks of the transfers (R74, R92, R94) -/

/-- Checks that all hold, before a list of checks that passes. -/
theorem passes_append {l m : List (Bool × Nat)} (hl : ∀ e ∈ l, e.1 = false) (hm : Passes m) : Passes (l ++ m) := by
  induction l with
  | nil => exact hm
  | cons e r ih => exact passes_cons (hl e List.mem_cons_self) (ih (fun x hx => hl x (List.mem_cons_of_mem _ hx)))

/-- A row channel is for privileged plots, so a command that may name one passes that check (R94). -/
theorem rowCheck_allowed {s : State} {f : Nat} {c : Cmd} (h : RowAllowed s f c) : (rowCheck (fresh s) f c).1 = false := by
  have privileged : (c.fW && !(getPlot s (getFur s f).plot).priv) = false := by
    cases hw : c.fW with
    | false => rfl
    | true => rw [h hw]; rfl
  exact privileged

section
variable {s : State} {f : Nat} {r : Ready} (hf : FieldsHold s f r) (hrow : RowAllowed s f r.cmd)
  (ht : tallyOk s (getFur s f).plot r.cmd.id true = true) (h0 : 0 < (opnds s f r).len) (h32 : (opnds s f r).len ≤ 2 ^ 32)
  (hl : (opnds s f r).len % 128 = 0)
include hf hrow ht h0 h32 hl

/-- The checks that the four transfers share pass when the address forms and the alignment do. -/
theorem moveChecks_pass {forms : List (Bool × Nat)} {aligned : List DWord} (hforms : ∀ e ∈ forms, e.1 = false)
    (ha : ∀ a ∈ aligned, a.toNat % 128 = 0) : Passes (moveChecks (fresh s) f r.cmd (opnds s f r) forms aligned) := by
  have lines : aligned.any (fun a => a.toNat % 128 != 0) = false := by
    rw [List.any_eq_false]
    exact fun a h => by simp [ha a h]
  have length : (lenCheck (opnds s f r)).1 = false := decide_eq_false (by omega)
  have tally : (!tallyOk s (getFur s f).plot r.cmd.id true) = false := by rw [ht]; rfl
  have tail : Passes [(aligned.any (fun a => a.toNat % 128 != 0), 0x121), lenCheck (opnds s f r), ((opnds s f r).len % 128 != 0, 0x122)] :=
    passes_cons lines (passes_cons length (passes_cons (by simp [hl]) rfl))
  exact passes_cons (regCheck_fresh hf) (passes_cons (rowCheck_allowed hrow) (passes_cons tally (passes_append hforms tail)))

end

/-! ### What goes out (R76, R156) -/

/-- A transfer that is dealt in segments of 32 lines goes out with one part for each. -/
theorem sends_dealt {s t : State} {f first : Nat} {c : Cmd} {g : Seg} (h : PlainWork (fresh s) t) (u : State) :
    Sends s (issueMove f c (dealSegs u first g) t) f c (ceilDiv g.lines 32) none :=
  dealSegs_length u first g ▸ sends_move h

theorem plain_dropDest (o : Opnd) (s : State) : PlainWork s (dropDest o s) := plain_dropLines ..

theorem putSegs_length (s : State) (f : Nat) (c : Cmd) (o : Opnd) : (putSegs s f c o).length = ceilDiv (o.len / 128) 32 := by
  unfold putSegs
  rw [dealSegs_length]
  split <;> rfl

theorem getSegs_length (s : State) (f : Nat) (c : Cmd) (o : Opnd) : (getSegs s f c o).length = ceilDiv (o.len / 128) 32 := by
  unfold getSegs
  rw [dealSegs_length]
  split <;> rfl

theorem copySegs_length (s : State) (f : Nat) (c : Cmd) (o : Opnd) :
    (copySegs s f c o).length = (copyCuts (o.len / 128) (rackLocal o.b) 0 (o.len / 128)).length := by
  simp [copySegs]

theorem sends_put {s t : State} {f : Nat} {c : Cmd} {o : Opnd} (h : PlainWork (fresh s) t) (u : State) :
    Sends s (issueMove f c (putSegs u f c o) t) f c (ceilDiv (o.len / 128) 32) none := putSegs_length u f c o ▸ sends_move h

theorem sends_get {s t : State} {f : Nat} {c : Cmd} {o : Opnd} (h : PlainWork (fresh s) t) (u : State) :
    Sends s (issueMove f c (getSegs u f c o) t) f c (ceilDiv (o.len / 128) 32) none := getSegs_length u f c o ▸ sends_move h

/-- The segment that a FILL's segments are cut from (R92). -/
def fillSeg (s : State) (f : Nat) (c : Cmd) (o : Opnd) : Seg :=
  let g := { moveSeg s f c o with kind := .fill, dst := rackLocal o.b, far := rackEp o.b, pattern := o.a }
  if e64 s && rackEp o.b == selfNode s then { g with kind := .localFill, row := none, wrErr := 0x211 } else g

theorem fillSeg_lines (s : State) (f : Nat) (c : Cmd) (o : Opnd) : (fillSeg s f c o).lines = o.len / 128 := by
  unfold fillSeg
  simp only []
  split <;> rfl

theorem sends_fill {s t : State} {f first : Nat} {c : Cmd} {o : Opnd} (h : PlainWork (fresh s) t) (u : State) :
    Sends s (issueMove f c (dealSegs u first (fillSeg u f c o)) t) f c (ceilDiv (o.len / 128) 32) none :=
  fillSeg_lines u f c o ▸ sends_dealt h u

/-- What a COPY does once its checks have passed, by where its operands point (R160, R170). -/
def copyGoes (f : Nat) (c : Cmd) (o : Opnd) (u : Upset) (s : State) : State :=
  if rackEp o.a = selfNode s ∧ rackEp o.b = selfNode s then
    issueMove f c (dealSegs s (f % engineCount s) { moveSeg s f c o with
      kind := .local, src := rackLocal o.a, dst := rackLocal o.b, far := selfNode s, row := none, rdErr := 0x211, wrErr := 0x211 }) s
  else if rackEp o.a = selfNode s then issueMove f c (putSegs s f c o) (dropDest o s)
  else if rackEp o.b = selfNode s then issueMove f c (getSegs s f c o) (lookupLines f c o u s)
  else issueMove f c (copySegs s f c o) s

theorem sends_copy (s : State) (f : Nat) (c : Cmd) (o : Opnd) (u : Upset) : Sends s (copyGoes f c o u (fresh s)) f c
    (if rackEp o.a = selfNode s ∨ rackEp o.b = selfNode s then ceilDiv (o.len / 128) 32
      else (copyCuts (o.len / 128) (rackLocal o.b) 0 (o.len / 128)).length) none := by
  have me : selfNode (fresh s) = selfNode s := rfl
  unfold copyGoes
  rw [me]
  by_cases ha : rackEp o.a = selfNode s <;> by_cases hb : rackEp o.b = selfNode s
  · rw [if_pos ⟨ha, hb⟩, if_pos (.inl ha)]
    exact sends_dealt .rfl _
  · rw [if_neg (fun h => hb h.2), if_pos ha, if_pos (.inl ha)]
    exact sends_put (plain_dropDest ..) _
  · rw [if_neg (fun h => ha h.1), if_neg ha, if_pos hb, if_pos (.inr hb)]
    exact sends_get (plain_lookupLines ..) _
  · rw [if_neg (fun h => ha h.1), if_neg ha, if_neg hb, if_neg (not_or.mpr ⟨ha, hb⟩), ← copySegs_length (fresh s) f c o]
    exact sends_move .rfl

end Sys2Proof.Laws

namespace Sys2Proof.Proofs

open Sys2Proof.Machine Sys2Proof.Laws

/-- Settles O13: each transfer passes the checks that all four share and its own address forms, and its segments, dealt by 32 lines or
cut into copy requests, are its parts. -/
theorem transferCommandsGoOut : Obligations.TransferCommandsGoOut := by
  unfold Obligations.TransferCommandsGoOut
  rintro s f u r o rfl hf hrow ht h0 h32 hl
  refine ⟨fun hr he hra hrb ha hb => ?copy, fun hr hla hrb ha hb => ?put, fun hr hra hlb ha hb => ?get, fun hr hrb hb => ?fill⟩
  case copy =>
    have passes := moveChecks_pass hf hrow ht h0 h32 hl (forms := [(!rackOk (opnds s f r).a || !rackOk (opnds s f r).b, 0x120), (!e64 s, 0x123)])
      (aligned := [(opnds s f r).a, (opnds s f r).b]) (by simp [hra, hrb, he]) (by simp [ha, hb])
    exact ⟨_, _, run_of (withCmd_passes (k := copyGoes f r.cmd (opnds s f r) u) hr passes rfl), sends_copy .., rfl⟩
  case put =>
    have passes := moveChecks_pass hf hrow ht h0 h32 hl (forms := [(!rackOk (opnds s f r).b, 0x120), (!localOk (opnds s f r).a, 0x123)])
      (aligned := [(opnds s f r).a, (opnds s f r).b]) (by simp [hla, hrb]) (by simp [ha, hb])
    exact ⟨_, run_of (withCmd_passes hr passes rfl), sends_put (plain_dropDest ..) _⟩
  case get =>
    have passes := moveChecks_pass hf hrow ht h0 h32 hl (forms := [(!rackOk (opnds s f r).a, 0x120), (!localOk (opnds s f r).b, 0x123)])
      (aligned := [(opnds s f r).a, (opnds s f r).b]) (by simp [hra, hlb]) (by simp [ha, hb])
    exact ⟨_, run_of (withCmd_passes hr passes rfl), sends_get (.ite .rfl (plain_lookupLines ..)) _⟩
  case fill =>
    have passes := moveChecks_pass hf hrow ht h0 h32 hl (forms := [(!rackOk (opnds s f r).b, 0x120)])
      (aligned := [(opnds s f r).b]) (by simp [hrb]) (by simp [hb])
    exact ⟨_, run_of (withCmd_passes (k := fun u => issueMove f r.cmd (dealSegs u (f % engineCount u) (fillSeg u f r.cmd (opnds s f r)))
      (dropDest (opnds s f r) u)) hr passes rfl), sends_fill (plain_dropDest ..) _⟩

end Sys2Proof.Proofs
end

section
/-! SUPPORT. LOADG, STOREG, ATOM and TADD at issue, and the statement that they settle. -/

namespace Sys2Proof.Laws

open Sys2Proof.Machine

/-! ### Work that a command does before it asks its home (R140, R141) -/

/-- `t` is `s` but for counters, the line cache and the like; the engines hold the same segments, and the channels stand at the same
numbers. -/
structure Before (s t : State) : Prop where
  plain : PlainWork s t
  segs : t.xfer.segs = s.xfer.segs
  ctr : t.xfer.ctr = s.xfer.ctr

theorem Before.rfl {s : State} : Before s s := ⟨.rfl, Eq.refl _, Eq.refl _⟩

theorem before_dropLines (a n : Nat) (s : State) : Before s (dropLines a n s) :=
  ⟨plain_dropLines .., dropLines_segs .., dropLines_ctr ..⟩

theorem countSrc_xfer (a b n : Nat) (s : State) : (countSrc a b n s).xfer = s.xfer := by
  unfold countSrc noteIf
  simp only []
  split <;> rfl

theorem before_countSrc (a b n : Nat) (s : State) : Before s (countSrc a b n s) :=
  ⟨plain_countSrc .., by rw [countSrc_xfer], by rw [countSrc_xfer]⟩

theorem before_cacheUpset (p a : Nat) (s : State) : Before s (cacheUpset p a s) := ⟨Eq.refl _, rfl, rfl⟩

theorem Before.selfNode {s t : State} (h : Before s t) : selfNode t = selfNode s := by
  have plain := h.plain
  unfold PlainWork at plain
  rw [plain]
  rfl

/-- The packet that a command's segment holds goes out after such work. -/
theorem work_packetSeg_before {s t : State} (h : Before s t) (o : Owner) (plot far : Nat) (row : Option Nat) (mk : Nat → Rq) :
    EngineWork s (packetSeg o plot far row mk t) := (EngineWork.of h.plain).trans (work_packetSeg ..)

/-- With idle engines and no row channel the packet is the last of the send queue, with its channel's next number (R158, R434). -/
theorem asks_packetSeg {s t : State} {o : Owner} {plot far kind node addr : Nat} {q : Rq} (h : Before s t) (hx : s.xfer.segs = [])
    (hw : ∀ a b, q.who ≠ .seg a b) (hsent : q.sent = false) (hrow : q.pkt.row = false) (hk : q.pkt.kind = kind) (hv : q.pkt.vn = 0)
    (hd : q.pkt.dst = node) (hs : q.pkt.src = selfNode s) (ha : reqAddr q.pkt = addr) :
    Asks s (packetSeg o plot far none (fun _ => q) t) kind node addr := by
  have number : nextSeq t q.pkt = s.xfer.ctr.getD node 0 := by
    simp only [nextSeq, hrow, Bool.false_eq_true, if_false, h.ctr, hd]
  exact ⟨_, _, packetSeg_idle (mk := fun _ => q) (h.segs.trans hx) hw, hsent, hk, hv, hd, hs, ha, number⟩

/-- What a state asks does not hang on a command that has been issued in it. -/
theorem asks_issueOut {s v : State} {f n kind node addr : Nat} {c : Cmd} {d : Option Nat} (h : Asks (issueOut f c n d (fresh s)) v kind node addr) :
    Asks s v kind node addr := h

theorem rackLocal_lt (a : DWord) : rackLocal a < 2 ^ 47 := Nat.mod_lt _ (by decide)

/-- A part of an area below all its fields reads zero. -/
theorem fld_area_above {lo len : Nat} {l : List (Nat × Nat × Nat)} (h : ∀ e ∈ l, lo + len ≤ 8 * (e.1 - 16)) : fld (areaOf l) lo len = 0 := by
  induction l with
  | nil => exact fld_area_nil ..
  | cons e r ih =>
    rw [area_later _ _ _ _ _ _ (.inr (h e List.mem_cons_self))]
    exact ih (fun x hx => h x (List.mem_cons_of_mem _ hx))

/-- The address of a request that gives its rack address first. -/
theorem reqAddr_rackLocal {p : Packet} {a : DWord} {l : List (Nat × Nat × Nat)} (hp : p.area = areaOf ((16, 8, rackLocal a) :: l))
    (hl : ∀ e ∈ l, 64 ≤ 8 * (e.1 - 16)) : reqAddr p = rackLocal a :=
  reqAddr_first p _ l hp (fld_area_above (fun e he => by have := hl e he; omega)) (rackLocal_lt a)

/-- A command that names no row channel has none. -/
theorem row_none {c : Cmd} (h : c.fW = false) : c.row = none := by simp [Cmd.row, h]

/-- The checks of a remote operand's address form pass (R30, R160). -/
theorem targetChecks_pass {s : State} {a : DWord} (hr : rackOk a = true) (hl : e64 s = false → localOk a = true) :
    ∀ e ∈ targetChecks (fresh s) a, e.1 = false := by
  intro e he
  simp only [targetChecks, List.mem_cons, List.not_mem_nil, or_false] at he
  rcases he with rfl | rfl
  · simp [hr]
  · cases h : e64 s with
    | true => simp [h]
    | false => simp [hl h]

/-! ### LOADG (R91, R140) -/

/-- The packet with which a LOADG asks its home, made in state `w` and put into the engines of `t`. -/
def loadgAsk (f : Nat) (c : Cmd) (a : DWord) (plot tid : Nat) (w t : State) : State :=
  packetSeg (.cmd f tid) plot (rackEp a) c.row (fun _ =>
    { pkt := mkPkt w plot (rackEp a) 0x14 0 c.row (areaOf [(16, 8, rackLocal a), (29, 1, c.fV.toNat)]) [],
      who := .loadg f tid c.d, plot := plot, reply := 64 }) t

/-- What a LOADG does once its checks have passed, from the state in which it has issued: the line is read here, the cache serves it,
or its home is asked. -/
def loadgGoes (f : Nat) (c : Cmd) (a : DWord) (u : Upset) (plot tid : Nat) (s : State) : State :=
  if ownTarget s a then
    if !mapped s (rackLocal a) then ownUnmapped f tid plot s
    else startRead plot [lineBase (rackLocal a)] (.loadg f tid (a.toNat % 128)) s
  else if c.fV then loadgAsk f c a plot tid (dropLines (lineBase a.toNat) 1 s) (dropLines (lineBase a.toNat) 1 s)
  else match cacheHit s plot (lineBase a.toNat) with
    | some l =>
      if u = Upset.sram then loadgAsk f c a plot tid s (cacheUpset plot (lineBase a.toNat) s)
      else partDone f tid none false
        (loadReg f tid c.d (BitVec.ofNat 64 (leNat (((lineBytes l).drop (a.toNat % 128)).take 8))) (countSrc 0xC plot 1 s))
    | none => loadgAsk f c a plot tid s (countSrc 0xD plot 1 s)

section
variable {s : State} {f : Nat} {r : Ready} {u : Upset}

theorem doLoadg_issues (hr : Issues s f 0x14 true r) (hf : FieldsHold s f r) (hk : rackOk (opnds s f r).a = true)
    (hl : e64 s = false → localOk (opnds s f r).a = true) (hrow : RowAllowed s f r.cmd) (ha : (opnds s f r).a.toNat % 8 = 0) :
    doLoadg f u (fresh s) = loadgGoes f r.cmd (opnds s f r).a u (getFur s f).plot (nextTid s f)
      (issueOut f r.cmd 1 (some r.cmd.d) (fresh s)) := by
  have passes : Passes ([regCheck (fresh s) r.cmd (opnds s f r), rowCheck (fresh s) f r.cmd] ++ targetChecks (fresh s) (opnds s f r).a
      ++ [((opnds s f r).a.toNat % 8 != 0, 0x121)]) :=
    passes_cons (regCheck_fresh hf) (passes_cons (rowCheck_allowed hrow)
      (passes_append (targetChecks_pass hk hl) (passes_cons (by simp [ha]) rfl)))
  refine (withCmd_passes hr passes rfl).trans ?_
  unfold loadgGoes loadgAsk
  cases r.cmd.fV
  · rfl
  · rfl

end

section
variable {X : State} {f : Nat} {c : Cmd} {a : DWord} {u : Upset} {plot tid : Nat}

/-- A LOADG of this block's own is read here, or fails as its line is not mapped. -/
theorem work_loadgGoes_own (h : ownTarget X a = true) : EngineWork X (loadgGoes f c a u plot tid X) := by
  unfold loadgGoes
  rw [if_pos h]
  split
  · exact work_ownUnmapped ..
  · exact work_startRead ..

/-- A remote LOADG that the cache does not serve asks its home, after such work. -/
theorem loadgGoes_asks (h : ownTarget X a = false) (hmiss : c.fV = true ∨ cacheHit X plot (lineBase a.toNat) = none ∨ u = .sram) :
    ∃ w t, Before X w ∧ Before X t ∧ loadgGoes f c a u plot tid X = loadgAsk f c a plot tid w t := by
  have remote : ¬ ownTarget X a = true := by rw [h]; exact Bool.false_ne_true
  unfold loadgGoes
  rw [if_neg remote]
  by_cases hv : c.fV = true
  · rw [if_pos hv]
    exact ⟨_, _, before_dropLines .., before_dropLines .., rfl⟩
  · rw [if_neg hv]
    cases hit : cacheHit X plot (lineBase a.toNat) with
    | none => exact ⟨_, _, .rfl, before_countSrc .., rfl⟩
    | some l =>
      have hu : u = .sram := hmiss.elim (absurd · hv) (·.elim (fun h0 => by rw [hit] at h0; cases h0) id)
      exact ⟨_, _, .rfl, before_cacheUpset .., if_pos hu⟩

/-- A LOADG that the cache serves takes its register's value at once. -/
theorem loadgGoes_served {l : Line} (h : ownTarget X a = false) (hv : c.fV = false) (hit : cacheHit X plot (lineBase a.toNat) = some l)
    (hu : u ≠ .sram) (ha : a.toNat % 8 = 0) : loadgGoes f c a u plot tid X = partDone f tid none false
      (loadReg f tid c.d (BitVec.ofNat 64 (fld l (8 * (a.toNat % 128)) 64)) (countSrc 0xC plot 1 X)) := by
  have remote : ¬ ownTarget X a = true := by rw [h]; exact Bool.false_ne_true
  have cached : ¬ c.fV = true := by rw [hv]; exact Bool.false_ne_true
  unfold loadgGoes
  rw [if_neg remote, if_neg cached, hit, ← line_dword l (a.toNat % 128) (by omega)]
  exact if_neg hu

/-- The packet of a LOADG goes out. -/
theorem work_loadgAsk {w t : State} (h : Before X t) : EngineWork X (loadgAsk f c a plot tid w t) := work_packetSeg_before h ..

theorem asks_loadgAsk {w t : State} (hw : Before X w) (h : Before X t) (hx : X.xfer.segs = []) (hrow : c.fW = false) :
    Asks X (loadgAsk f c a plot tid w t) 0x14 (rackEp a) (rackLocal a) := by
  unfold loadgAsk
  rw [row_none hrow]
  exact asks_packetSeg h hx (fun _ _ => RqFor.noConfusion) rfl rfl rfl rfl rfl hw.selfNode (reqAddr_rackLocal rfl (by simp))

end

/-- A register that a furrow's command sets after such work, as if before it. -/
theorem work_modFur_plain {s t : State} (h : PlainWork s t) (f : Nat) (g : Furrow → Furrow) : EngineWork (modFur f g s) (modFur f g t) := by
  refine .of ?_
  unfold PlainWork at h
  rw [h]
  rfl

/-- The command that has just issued is among its furrow's, so the value reaches its register. -/
theorem loadReg_issued {s t : State} {f n g : Nat} {c : Cmd} {d : Option Nat} (h : PlainWork (issueOut f c n d s) t) (v : DWord) :
    loadReg f (nextTid s f) g v t = modFur f (fun x => x.setReg g v) t := by
  have furrow : getFur t f = (getFur s f).sending c n d := by
    unfold PlainWork at h
    rw [← getFur_issueOut_self f c n d s, h]
    rfl
  refine modFur_congr (if_pos ?_)
  rw [furrow]
  simp [Furrow.sending, Furrow.issuing, nextTid]

/-! ### STOREG (R91) -/

/-- What a STOREG does once its checks have passed, from the state in which it has issued. -/
def storegGoes (f : Nat) (c : Cmd) (a : DWord) (plot tid v : Nat) (s : State) : State :=
  if ownTarget s a then
    if !mapped s (rackLocal a) then ownUnmapped f tid plot s
    else startWrite plot (some c.id) (bytesWr (rackLocal a) (leBytes 8 v)) (.storeg f tid) s
  else
    packetSeg (.cmd f tid) plot (rackEp a) c.row (fun _ =>
      { pkt := mkPkt s plot (rackEp a) 0x12 0 c.row (areaOf [(16, 8, rackLocal a), (24, 2, c.id), (32, 8, v)]) [],
        who := .storeg f tid, plot := plot, ack := true }) (dropLines (lineBase a.toNat) 1 s)

theorem doStoreg_issues {s : State} {f : Nat} {r : Ready} (hr : Issues s f 0x15 true r) (hf : FieldsHold s f r)
    (hk : rackOk (opnds s f r).a = true) (hl : e64 s = false → localOk (opnds s f r).a = true) (hrow : RowAllowed s f r.cmd)
    (ht : tallyOk s (getFur s f).plot r.cmd.id true = true) (ha : (opnds s f r).a.toNat % 8 = 0) :
    doStoreg f (fresh s) = storegGoes f r.cmd (opnds s f r).a (getFur s f).plot (nextTid s f) ((getFur s f).reg r.cmd.d).toNat
      (issueOut f r.cmd 1 none (fresh s)) := by
  have tally : (!tallyOk s (getFur s f).plot r.cmd.id true) = false := by rw [ht]; rfl
  have passes : Passes ([regCheck (fresh s) r.cmd (opnds s f r), rowCheck (fresh s) f r.cmd,
      (!tallyOk s (getFur s f).plot r.cmd.id true, 0x130)] ++ targetChecks (fresh s) (opnds s f r).a
      ++ [((opnds s f r).a.toNat % 8 != 0, 0x121)]) :=
    passes_cons (regCheck_fresh hf) (passes_cons (rowCheck_allowed hrow) (passes_cons tally
      (passes_append (targetChecks_pass hk hl) (passes_cons (by simp [ha]) rfl))))
  exact (withCmd_passes hr passes rfl).trans rfl

theorem work_storegGoes {X : State} (f : Nat) (c : Cmd) (a : DWord) (plot tid v : Nat) : EngineWork X (storegGoes f c a plot tid v X) := by
  unfold storegGoes
  split
  · split
    · exact work_ownUnmapped ..
    · exact work_startWrite ..
  · exact work_packetSeg_before (before_dropLines ..) ..

theorem asks_storegGoes {X : State} {c : Cmd} {a : DWord} (f plot tid v : Nat) (h : ownTarget X a = false) (hx : X.xfer.segs = [])
    (hrow : c.fW = false) : Asks X (storegGoes f c a plot tid v X) 0x12 (rackEp a) (rackLocal a) := by
  unfold storegGoes
  rw [if_neg (by rw [h]; exact Bool.false_ne_true), row_none hrow]
  exact asks_packetSeg (before_dropLines ..) hx (fun _ _ => RqFor.noConfusion) rfl rfl rfl rfl rfl rfl (reqAddr_rackLocal rfl (by simp))

/-! ### ATOM (R95, R96, R178) -/

/-- What an ATOM does once its checks have passed and its atomic unit is free, from the state in which it has issued. -/
def atomGoes (f : Nat) (c : Cmd) (a : DWord) (plot tid : Nat) (p : Packet) (s : State) : State :=
  if ownTarget s a then
    if !mapped s (rackLocal a) then ownUnmapped f tid plot s
    else startJob { pkt := p, plot := plot, self := some (f, tid), ret := atomRet c } s
  else
    packetSeg (.cmd f tid) plot (rackEp a) none (fun _ =>
      { pkt := p, who := .atom f tid (atomRet c) (atomSize c.d), plot := plot, reply := 64 }) (dropLines (lineBase a.toNat) 1 s)

/-- The request of an ATOM (R176). -/
def atomPkt (s : State) (f : Nat) (r : Ready) : Packet :=
  { mkPkt s (getFur s f).plot (rackEp (opnds s f r).a) 0x16 0 none (atomArea (getFur s f) r.cmd (opnds s f r)) [] with src := selfNode s }

theorem doAtom_passes {s : State} {f : Nat} {r : Ready} (hr : Issues s f 0x30 true r) (hf : FieldsHold s f r)
    (hk : rackOk (opnds s f r).a = true) (hl : e64 s = false → localOk (opnds s f r).a = true)
    (ha : (opnds s f r).a.toNat % atomSize r.cmd.d = 0) : doAtom f (fresh s)
      = if (ownTarget s (opnds s f r).a && mapped s (rackLocal (opnds s f r).a) && (lineBusy s (atomPkt s f r) || atomsFull s)) = true
        then fresh s
        else atomGoes f r.cmd (opnds s f r).a (getFur s f).plot (nextTid s f) (atomPkt s f r)
          (issueOut f r.cmd 1 (atomRet r.cmd) (fresh s)) := by
  have passes : Passes ([regCheck (fresh s) r.cmd (opnds s f r)] ++ targetChecks (fresh s) (opnds s f r).a
      ++ [((opnds s f r).a.toNat % atomSize r.cmd.d != 0, 0x121)]) :=
    passes_cons (regCheck_fresh hf) (passes_append (targetChecks_pass hk hl) (passes_cons (by simp [ha]) rfl))
  exact (withCmd_passes hr passes rfl).trans rfl

theorem work_atomGoes {X : State} (f : Nat) (c : Cmd) (a : DWord) (plot tid : Nat) (p : Packet) : EngineWork X (atomGoes f c a plot tid p X) := by
  unfold atomGoes
  split
  · split
    · exact work_ownUnmapped ..
    · exact work_startJob ..
  · exact work_packetSeg_before (before_dropLines ..) ..

theorem asks_atomGoes {s X : State} {f : Nat} {r : Ready} (plot tid : Nat) (h : ownTarget X (opnds s f r).a = false) (hx : X.xfer.segs = [])
    (hs : selfNode X = selfNode s) : Asks X (atomGoes f r.cmd (opnds s f r).a plot tid (atomPkt s f r) X) 0x16
      (rackEp (opnds s f r).a) (rackLocal (opnds s f r).a) := by
  unfold atomGoes
  rw [if_neg (by rw [h]; exact Bool.false_ne_true)]
  exact asks_packetSeg (before_dropLines ..) hx (fun _ _ => RqFor.noConfusion) rfl rfl rfl rfl rfl hs.symm
    (reqAddr_rackLocal rfl (by simp))

/-! ### TADD (R98) -/

/-- A TADD to another endpoint asks it, from the state in which it has issued. -/
def taddGoes (f : Nat) (c : Cmd) (o : Opnd) (plot tid : Nat) (s t : State) : State :=
  packetSeg (.cmd f tid) plot (o.b.toNat % 512) c.row (fun _ =>
    { pkt := mkPkt s plot (o.b.toNat % 512) 0x17 0 c.row (areaOf [(24, 2, c.id), (32, 8, o.a.toNat)]) [],
      who := .tadd f tid, plot := plot, ack := true }) t

section
variable {s : State} {f : Nat} {r : Ready} (hf : FieldsHold s f r) (hrow : RowAllowed s f r.cmd)
  (ht : tallyOk s (getFur s f).plot r.cmd.id false = true)
include hf hrow ht

theorem tadd_passes : Passes [regCheck (fresh s) r.cmd (opnds s f r), rowCheck (fresh s) f r.cmd,
    (!tallyOk s (getFur s f).plot r.cmd.id false, 0x130)] :=
  passes_cons (regCheck_fresh hf) (passes_cons (rowCheck_allowed hrow) (passes_cons (by rw [ht]; rfl) rfl))

/-- A TADD to another endpoint is outstanding and asks that endpoint (R76). -/
theorem doTadd_asks (hr : Issues s f 0x41 true r) (hn : ¬ (e64 s = true ∧ (opnds s f r).b.toNat = selfNode s)) :
    doTadd f (fresh s) = taddGoes f r.cmd (opnds s f r) (getFur s f).plot (nextTid s f) (fresh s) (issueOut f r.cmd 1 none (fresh s)) := by
  have hat : atIssue (fresh s) f 0x41 = some r := hr.1
  have out : taddOut (fresh s) f = true := by
    unfold taddOut
    rw [hat]
    by_cases he : e64 s = true
    · have : ¬ (operands (getFur s f) r.cmd).b.toNat = selfNode s := fun hb => hn ⟨he, hb⟩
      have me : selfNode (fresh s) = selfNode s := rfl
      simp [he, me, this]
    · simp [he]
  unfold doTadd
  rw [out]
  exact (withCmd_passes hr (tadd_passes hf hrow ht) rfl).trans (if_neg hn)

/-- A TADD to its own endpoint adds to the tally and completes as it issues (R98). -/
theorem doTadd_adds (hr : Issues s f 0x41 false r) (he : e64 s = true) (hb : (opnds s f r).b.toNat = selfNode s) :
    doTadd f (fresh s) = issueNow f r.cmd (addTally (getFur s f).plot r.cmd.id (opnds s f r).a (fresh s)) := by
  have hat : atIssue (fresh s) f 0x41 = some r := hr.1
  have now : taddOut (fresh s) f = false := by
    have me : selfNode (fresh s) = selfNode s := rfl
    unfold taddOut
    rw [hat]
    simp [he, me, show (operands (getFur s f) r.cmd).b.toNat = selfNode s from hb]
  unfold doTadd
  rw [now]
  refine (withCmd_passes hr (tadd_passes hf hrow ht) rfl).trans ?_
  exact if_pos ⟨he, hb⟩

end

theorem asks_taddGoes {X : State} {c : Cmd} {o : Opnd} {s : State} (f plot tid : Nat) (hx : X.xfer.segs = []) (hrow : c.fW = false)
    (hs : selfNode s = selfNode X) : Asks X (taddGoes f c o plot tid s X) 0x17 (fld o.b 0 9) 0 := by
  unfold taddGoes
  rw [row_none hrow]
  exact asks_packetSeg .rfl hx (fun _ _ => RqFor.noConfusion) rfl rfl rfl rfl rfl hs
    (congrArg (· % 2 ^ 47) (fld_area_above (by simp)))

end Sys2Proof.Laws

namespace Sys2Proof.Proofs

open Sys2Proof.Machine Sys2Proof.Laws

/-- Settles O12: each command that passes its checks issues first, and its work from there is a memory access of this block, a value of
the line cache, or one packet to its home. -/
theorem remoteOperandCommandsGoOut : Obligations.RemoteOperandCommandsGoOut := by
  unfold Obligations.RemoteOperandCommandsGoOut
  refine ⟨?operands, ?tadd⟩
  case operands =>
    rintro s f u r a line rfl rfl hf hk hl
    refine ⟨fun hr hrow ha => ⟨fun hmiss => ?asks, fun l hown hv hhit hu => ?served⟩, fun hr hrow ht ha => ?storeg,
      fun hr ha p hp => ⟨fun hfree => ?atom, fun hown hm hbusy => ?waits⟩⟩
    case asks =>
      have issues := doLoadg_issues (u := u) hr hf hk hl hrow ha
      cases hown : ownTarget s (opnds s f r).a with
      | true => exact ⟨_, run_of issues, work_loadgGoes_own hown, fun h => Bool.noConfusion h⟩
      | false =>
        have hmiss' : r.cmd.fV = true ∨ cacheHit s (getFur s f).plot (lineBase (opnds s f r).a.toNat) = none ∨ u = .sram :=
          hmiss.elim (fun h => by rw [hown] at h; cases h) id
        obtain ⟨w, t, hw, ht, hgoes⟩ := loadgGoes_asks (X := issueOut f r.cmd 1 (some r.cmd.d) (fresh s)) (f := f) (c := r.cmd)
          (tid := nextTid s f) hown hmiss'
        exact ⟨_, run_of (issues.trans hgoes), work_loadgAsk ht, fun _ hx hfW => asks_issueOut (asks_loadgAsk hw ht hx hfW)⟩
    case served =>
      have issues := (doLoadg_issues (u := u) hr hf hk hl hrow ha).trans
        (loadgGoes_served (X := issueOut f r.cmd 1 (some r.cmd.d) (fresh s)) hown hv hhit hu ha)
      have counted := plain_countSrc 0xC (getFur s f).plot 1 (issueOut f r.cmd 1 (some r.cmd.d) (fresh s))
      refine ⟨_, run_of issues, ?_⟩
      rw [show nextTid s f = nextTid (fresh s) f from rfl, loadReg_issued counted]
      exact (work_modFur_plain counted ..).trans (work_partDone ..)
    case storeg =>
      exact ⟨_, run_of (doStoreg_issues hr hf hk hl hrow ht ha), work_storegGoes .., fun hown hx hfW =>
        asks_issueOut (asks_storegGoes f _ _ _ hown hx hfW)⟩
    case atom =>
      subst hp
      have free : ¬ (ownTarget s (opnds s f r).a && mapped s (rackLocal (opnds s f r).a) && (lineBusy s (atomPkt s f r) || atomsFull s)) = true := by
        intro h
        simp only [Bool.and_eq_true, Bool.or_eq_true] at h
        obtain ⟨⟨hown, hm⟩, hbusy⟩ := h
        obtain ⟨hline, hfull⟩ := hfree hown hm
        exact hbusy.elim (fun h => absurd (hline.symm.trans h) Bool.false_ne_true) (fun h => absurd (hfull.symm.trans h) Bool.false_ne_true)
      exact ⟨_, run_of ((doAtom_passes hr hf hk hl ha).trans (if_neg free)), work_atomGoes .., fun hown hx =>
        asks_issueOut (asks_atomGoes _ _ hown hx rfl)⟩
    case waits =>
      subst hp
      have busy : (ownTarget s (opnds s f r).a && mapped s (rackLocal (opnds s f r).a) && (lineBusy s (atomPkt s f r) || atomsFull s)) = true := by
        simp only [Bool.and_eq_true, Bool.or_eq_true]
        exact ⟨⟨hown, hm⟩, hbusy⟩
      exact run_of ((doAtom_passes hr hf hk hl ha).trans (if_pos busy))
  case tadd =>
    rintro s f r b rfl hf hrow ht
    refine ⟨fun hr hn => ?asks, fun hr he hb hd => ?adds⟩
    case asks =>
      exact ⟨_, run_of (doTadd_asks hf hrow ht hr hn), work_packetSeg .., fun hx hfW => asks_issueOut (asks_taddGoes f _ _ hx hfW rfl)⟩
    case adds =>
      have issues := (doTadd_adds hf hrow ht hr he hb).trans
        (congrArg (issueNow f r.cmd) (addTally_live (s := fresh s) hd r.cmd.id (opnds s f r).a))
      refine ⟨_, run_of issues, rfl, fun n hn => ?_, ?_, at_set_self .., fun k hk => at_set_other _ _ _ _ hk⟩
      · exact getFur_issueNow_other f n r.cmd _ hn
      · exact getFur_issueNow_self ..

end Sys2Proof.Proofs
end

section
/-! SUPPORT. Mailbox requests and their replies, and the statement that they settle. -/

namespace Sys2Proof.Laws

open Sys2Proof.Machine

/-! ### MBX_REQ_CTL and MBX_RSP_CTL (R403, R404) -/

theorem modMbx_congr {i : Nat} {g h : Mbx → Mbx} {s : State} (e : g (getMbx s i) = h (getMbx s i)) : modMbx i g s = modMbx i h s := by
  unfold getMbx at e
  rw [modMbx, modMbx, Tbl.mod, Tbl.mod, e]

section
variable {s : State} {i : Nat} {w : Word} (hw : bitAt w 0 = true)
include hw

/-- A request is posted when none is. -/
theorem reqGoW_posts (hg : (getMbx s i).reqGo = false) :
    reqGoW i w s = wakeDom (mgmtDom s) (modMbx i (fun m => { m with reqGo := true }) s) := by
  refine if_pos ?_
  rw [hw, hg]; rfl

/-- Clearing go takes the reply. -/
theorem rspCtlW_takes : rspCtlW i w s = match (getMbx s i).owed with
    | some ws => postReply i ws (modMbx i (fun m => { m with wakeEn := bitAt w 1, rspGo := false }) s)
    | none => modMbx i (fun m => { m with wakeEn := bitAt w 1, rspGo := false }) s := by
  have cleared : modMbx i (fun m => { m with wakeEn := bitAt w 1, rspGo := m.rspGo && !bitAt w 0 }) s
      = modMbx i (fun m => { m with wakeEn := bitAt w 1, rspGo := false }) s :=
    modMbx_congr (by rw [hw, Bool.not_true, Bool.and_false])
  unfold rspCtlW
  simp only [cleared, getMbx_modMbx_self]
  cases (getMbx s i).owed <;> rfl

end

/-! ### Requests that Icquel takes (R403, R406) -/

section
variable {s : State} {i cmd : Nat} {mine : List Word → Bool} {k : List Word → State → List Word × State}

theorem served_cmd (h : Served s i cmd) : reqCmd (reqWords s i) = cmd := by
  obtain ⟨-, -, hcmd, -⟩ := h
  exact hcmd

/-- A request of a served command, from a supervisor that may use it, is taken and answered with what its command does. -/
theorem takeReq_serves (h : Served s i cmd) (hm : mine (reqWords s i) = true) : takeReq i mine k (fresh s)
    = postReply i (k (reqWords s i) (reqTaken s i)).1 (k (reqWords s i) (reqTaken s i)).2 := by
  obtain ⟨hi, htake, hcmd, hserves, howner⟩ := h
  have takes : ¬ (!(decide (i < 4) && canTake s i && mine (reqWords s i))) = true := by simp [hi, htake, hm]
  have listed : ¬ (!servesCmd s (reqCmd (reqWords s i))) = true := by simp [hcmd, hserves]
  have allowed : ¬ (ownerOnly (reqCmd (reqWords s i)) && s.sup.owner != some i) = true := by
    rw [hcmd]
    cases ho : ownerOnly cmd with
    | false => simp
    | true => simp [howner ho]
  refine (if_neg takes).trans ?_
  exact congrArg (fun r : List Word × State => postReply i r.1 r.2) ((if_neg listed).trans (if_neg allowed))

/-- An owner's command from another supervisor is taken and refused (R406). -/
theorem takeReq_denied (hi : i < 4) (htake : canTake s i = true) (hserves : servesCmd s (reqCmd (reqWords s i)) = true)
    (ho : ownerOnly (reqCmd (reqWords s i)) = true) (hs : s.sup.owner ≠ some i) (hm : mine (reqWords s i) = true) :
    takeReq i mine k (fresh s) = postReply i (mbxReply (reqWords s i) 0x671 []) (raise 0x671 (reqTaken s i)) := by
  have takes : ¬ (!(decide (i < 4) && canTake s i && mine (reqWords s i))) = true := by simp [hi, htake, hm]
  have listed : ¬ (!servesCmd s (reqCmd (reqWords s i))) = true := by simp [hserves]
  have denied : (ownerOnly (reqCmd (reqWords s i)) && s.sup.owner != some i) = true := by simp [ho, hs]
  refine (if_neg takes).trans ?_
  exact congrArg (fun r : List Word × State => postReply i r.1 r.2) ((if_neg listed).trans (if_pos denied))

end

/-! ### IMAGE_INSTALL (R63-R66) -/

@[simp] theorem canTake_fresh (s : State) (i : Nat) : canTake (fresh s) i = canTake s i := rfl

/-- A request is an IMAGE_INSTALL of one or two words, which Icquel serves and may take. -/
def Installs (s : State) (i : Nat) : Prop :=
  i < 4 ∧ canTake s i = true ∧ reqCmd (reqWords s i) = 0x02 ∧ servesCmd s 0x02 = true
    ∧ (fld ((reqWords s i).headD 0) 16 4 = 1 ∨ fld ((reqWords s i).headD 0) 16 4 = 2)

section
variable {s v : State} {i : Nat} {ws : List Word} (hv : v = reqTaken s i) (hws : ws = reqWords s i) (h : Installs s i)
include hv hws h

/-- An IMAGE_INSTALL that is taken ends in `t` when each of its branches does: refused (R406), out of buffer SRAM (R65), waiting for its
slot (R66) or installed (R63). -/
theorem doInstall_takes {t : State} {off : Nat} (hoff : off = (wordAt ws 1).toNat + (wordAt ws 2).toNat * 2 ^ 32)
    (ho : v.sup.owner ≠ some i → postReply i (mbxReply ws 0x671 []) (raise 0x671 v) = t)
    (hout : v.sup.owner = some i → sramSize v ≤ off → postReply i (mbxReply ws 0x722 []) (raise 0x722 v) = t)
    (hin : v.sup.owner = some i → off < sramSize v → ∃ slot x,
      parseImage (fun a n => sramRead v (off + a) n) (sramSize v - off) = some (slot, x) ∧ x.abiMajor = runningAbi v
      ∧ (slotInUse v slot = true → modMbx i (fun m => { m with taken := some (.image slot (ws.headD 0)) })
          { v with img := { v.img with waiting := v.img.waiting.set slot x } } = t)
      ∧ (slotInUse v slot = false → postReply i (mbxReply ws 0 []) (putImage slot x v) = t)) : doInstall i (fresh s) = t := by
  obtain ⟨hi, htake, hcmd, hserves, hn⟩ := h
  have takes : ¬ (!(decide (i < 4) && canTake s i && reqCmd ws == 0x02)) = true := by simp [hws, hi, htake, hcmd]
  have shape : ¬ ((!servesCmd v 0x02) = true ∨ fld (ws.headD 0) 16 4 = 0 ∨ 2 < fld (ws.headD 0) 16 4) := by
    rw [show servesCmd v 0x02 = true by rw [hv]; exact hserves, hws]
    simp only [Bool.not_true, Bool.false_eq_true, false_or]
    omega
  have words : reqWords (fresh s) i = ws := hws.symm
  have taken : modMbx i (fun m => { m with reqGo := false }) (fresh s) = v := hv.symm
  unfold doInstall
  simp only [words, taken, ← hoff, canTake_fresh, if_neg takes, if_neg shape]
  clear hoff takes shape words taken
  by_cases own : v.sup.owner = some i
  case neg => exact (if_pos own).trans (ho own)
  rw [if_neg (not_not_intro own)]
  by_cases out : sramSize v ≤ off
  case pos => exact (if_pos out).trans (hout own out)
  obtain ⟨slot, x, parsed, abi, waits, put⟩ := hin own (Nat.lt_of_not_le out)
  simp only [if_neg out, parsed, if_neg (not_not_intro abi)]
  cases used : slotInUse v slot with
  | true => exact (if_pos rfl).trans (waits used)
  | false => exact (if_neg Bool.false_ne_true).trans (put used)

end

/-! ### SOIL_UPDATE (R459) -/

theorem objectOk_reqTaken (kind : Nat) (m : Memory) (s : State) (i : Nat) : objectOk kind m (reqTaken s i) = objectOk kind m s := rfl

/-- A fragment of a listed kind, which begins an object or goes on with one of its kind and stays within its room, is added. -/
theorem soilUpdate_adds {ws : List Word} {v : State} {kind off : Nat} {bs : List Byte} {obj : Memory} (hk : kind = fld (wordAt ws 1) 0 2)
    (ho : off = fld (wordAt ws 1) 8 24) (hb : bs = fragBytes ws) (hkind : kind = 1 ∨ kind = 2)
    (hon : bitAt (wordAt ws 1) 2 = true ∨ v.mrl.store.partialKind = kind)
    (hroom : off + bs.length ≤ (if kind = 1 then 2 ^ 20 else 3 * 2 ^ 20))
    (hobj : obj = Memory.writeAll (if bitAt (wordAt ws 1) 2 then [] else v.mrl.store.partialObj) (cellsAt off bs)) :
    soilUpdate ws v = if !bitAt (wordAt ws 1) 3 then
        (mbxReply ws 0 [], { v with mrl := { v.mrl with store := { v.mrl.store with partialObj := obj, partialKind := kind } } })
      else if objectOk kind obj v then (mbxReply ws 0 [], commitObject kind obj v)
      else mbxRefusal ws 0x713 { v with mrl := { v.mrl with store := { v.mrl.store with partialObj := [], partialKind := 0 } } } := by
  have sound : ¬ (kind = 0 ∨ kind = 3 ∨ ((!bitAt (wordAt ws 1) 2) = true ∧ v.mrl.store.partialKind ≠ kind)
      ∨ (if kind = 1 then 2 ^ 20 else 3 * 2 ^ 20) < off + bs.length) := by
    rintro (h | h | ⟨fresh, other⟩ | h)
    · omega
    · omega
    · rcases hon with h | h
      · rw [h] at fresh; exact absurd fresh (by decide)
      · exact other h
    · exact absurd hroom (Nat.not_le_of_lt h)
  subst hk ho hb hobj
  unfold soilUpdate
  exact if_neg sound

/-! ### MEASURE (R463) -/

section
variable {i : Nat} {ws : List Word} {v : State}

/-- A request fragment joins the request, which is run when it is the last. -/
theorem measure_takes (h : reqOp ws = 0) {off : Nat} {x y z : Spdm} (ho : off = fld (wordAt ws 1) 16 16) (hx : x = (getMbx v i).spdm)
    (hy : y = (if off = 0 then { x with req := [], reqLen := 0 } else x))
    (hz : z = { y with req := y.req.writeAll (cellsAt off (fragBytes ws)), reqLen := max y.reqLen (off + (fragBytes ws).length) }) :
    measure i ws v = (mbxReply ws 0 [], takeFree (modMbx i (fun m => { m with
      spdm := if bitAt (wordAt ws 1) 2 then { spdmRun (z.req.readBytes 0 z.reqLen) v z with req := [], reqLen := 0 } else z }) v)) := by
  have op : fld (wordAt ws 1) 0 2 = 0 := h
  subst hz hy hx ho
  simp only [Machine.measure, op]

theorem measure_answers (h : reqOp ws = 1) :
    measure i ws v = (mbxReply ws 0 (mbxFragment (getMbx v i).spdm.rsp (fld (wordAt ws 1) 16 16)), v) := by
  have op : fld (wordAt ws 1) 0 2 = 1 := h
  simp only [Machine.measure, op]

theorem measure_identifies (h : reqOp ws = 2) :
    measure i ws v = (mbxReply ws 0 (mbxFragment v.start.identity (fld (wordAt ws 1) 16 16)), v) := by
  have op : fld (wordAt ws 1) 0 2 = 2 := h
  simp only [Machine.measure, op]

end

/-! ### MARL_READ (R479) -/

theorem doMarlRead_reads {s : State} {i : Nat} {r : MarlReadout} (h : Served s i 0x05) (ho : reqOp (reqWords s i) = 0)
    (hd : domOn s (marlDom s) = true) : doMarlRead i r (fresh s) = postReply i (marlReadSlot (reqWords s i) r (reqTaken s i)).1
      (marlReadSlot (reqWords s i) r (reqTaken s i)).2 := by
  have on : ¬ (!domOn s (marlDom s)) = true := by simp [hd]
  have mine : (reqCmd (reqWords s i) == 0x05 && reqOp (reqWords s i) != 1) = true := by simp [served_cmd h, ho]
  refine (if_neg on).trans ((if_pos h.1).trans ((takeReq_serves h mine).trans ?_))
  simp only [ho, if_true]

theorem marlFindRec_eq (ws : List Word) (s : State) : marlFindRec ws s
    = mbxReply ws 0 (match findRec s (fld (wordAt ws 2) 0 8) (wordAt ws 3).toNat with
      | some (slot, seq) => [pk [(0, slot), (15, 1)], BitVec.ofNat 32 seq]
      | none => [0, 0]) := by
  unfold marlFindRec
  cases findRec s (fld (wordAt ws 2) 0 8) (wordAt ws 3).toNat <;> rfl

/-! ### RELAY (R407) -/

theorem doRelay_sends {s : State} {i : Nat} (h : Served s i 0x06) : doRelay i (fresh s)
    = sendRelay (fld (wordAt (reqWords s i) 1) 0 10) 0x10 (selfNode s) ((msgWords (reqWords s i)).drop 2)
        (modMbx i (fun m => { m with taken := some (.relay ((reqWords s i).headD 0) (fld (wordAt (reqWords s i) 1) 0 10) s.clk none none) })
          (reqTaken s i)) := by
  obtain ⟨hi, htake, hcmd, hserves, howner⟩ := h
  have takes : ¬ (!(decide (i < 4) && canTake s i && reqCmd (reqWords s i) == 0x06)) = true := by simp [hi, htake, hcmd]
  have listed : ¬ (!servesCmd s 0x06) = true := by simp [hserves]
  exact (if_neg takes).trans ((if_neg listed).trans (if_neg (not_not_intro (howner rfl))))

theorem doRelay_denied {s : State} {i : Nat} (hi : i < 4) (htake : canTake s i = true) (hcmd : reqCmd (reqWords s i) = 0x06)
    (hserves : servesCmd s 0x06 = true) (ho : s.sup.owner ≠ some i) :
    doRelay i (fresh s) = postReply i (mbxReply (reqWords s i) 0x671 []) (raise 0x671 (reqTaken s i)) := by
  have takes : ¬ (!(decide (i < 4) && canTake s i && reqCmd (reqWords s i) == 0x06)) = true := by simp [hi, htake, hcmd]
  have listed : ¬ (!servesCmd s 0x06) = true := by simp [hserves]
  exact (if_neg takes).trans ((if_neg listed).trans (if_pos ho))

theorem relayLate_refuses {s : State} {i d since : Nat} {hdr : Word} {a b : Option (List Byte)} (hi : i < 4)
    (ht : (getMbx s i).taken = some (.relay hdr d since a b)) (hc : since + 100000000 ≤ s.clk) : relayLate i (fresh s)
    = postReply i (mbxReply [hdr] 0x682 []) (raise 0x682 (modMbx i (fun m => { m with taken := none }) (fresh s))) := by
  have late : (decide (i < 4) && passed (fresh s) since 100000000) = true := by
    rw [decide_eq_true hi, Bool.true_and]
    exact decide_eq_true hc
  have waits : (getMbx (fresh s) i).taken = some (.relay hdr d since a b) := ht
  simp only [relayLate, waits, late, if_true]
  rfl

end Sys2Proof.Laws

namespace Sys2Proof.Proofs

open Sys2Proof.Machine Sys2Proof.Laws

/-- Settles O48: the go bits act on the mailbox alone; each command is what its lemma says, once Icquel has taken its request. -/
theorem mailboxRequestsAreServed : Obligations.MailboxRequestsAreServed := by
  unfold Obligations.MailboxRequestsAreServed
  rintro s u v i ws rfl rfl rfl
  have go (w : Word) (h0 : bitAt w 0 = true) (hi : i < 4) : (bitAt w 0 && decide (i < 4)) = true := by rw [h0, decide_eq_true hi]; rfl
  refine ⟨fun w hw h0 hi hg => ?post, fun w hw h0 hi => ⟨fun ho => ?take, fun r ho => ?owed⟩, fun h => ?echo, fun cmd h hc => ?unlisted,
    fun off slot x h hn ho => ?image, fun kind off bs obj h hk ho hb hkind hon hroom hobj => ?soil, fun off x h ho hx => ?measure,
    fun h => ⟨fun r h0 hd => ?read, fun h1 => ?find⟩, fun h => ?relay, fun hdr d since a b hi ht hc => ?late,
    fun c hi htake hserves ho hc => ?denied⟩
  case post => exact act_cpWriteIf (go w h0 hi) hw (reqGoW_posts (s := fresh s) h0 hg)
  case take =>
    have unowed : (getMbx (fresh s) i).owed = none := ho
    exact act_cpWriteIf (go w h0 hi) hw ((rspCtlW_takes (s := fresh s) h0).trans (by rw [unowed]))
  case owed =>
    have owed : (getMbx (fresh s) i).owed = some r := ho
    refine ⟨_, act_cpWriteIf (go w h0 hi) hw ((rspCtlW_takes (s := fresh s) h0).trans (by rw [owed])), rfl, fun j hj => ?_, ?_⟩
    · exact (getMbx_modMbx_other _ _ hj).trans (getMbx_modMbx_other _ _ hj)
    · simp only [postReply, getMbx_modMbx_self, Bool.false_eq_true, if_false]; rfl
  case echo =>
    have mine : (!otherCmd (reqWords s i)) = true := by simp [otherCmd, served_cmd h]
    exact act_of ((takeReq_serves h mine).trans (by rw [doEcho, if_pos (served_cmd h)]))
  case unlisted =>
    have mine : (!otherCmd (reqWords s i)) = true := by simp [otherCmd, served_cmd h]; omega
    have other : ¬ reqCmd (reqWords s i) = 0x01 := by rw [served_cmd h]; omega
    exact act_of ((takeReq_serves h mine).trans (by rw [doEcho, if_neg other]; rfl))
  case image =>
    obtain ⟨hi, htake, hcmd, hserves, howner⟩ := h
    have own : (reqTaken s i).sup.owner = some i := howner rfl
    have install : Installs s i := ⟨hi, htake, hcmd, hserves, hn⟩
    refine ⟨fun out => act_of ?_, fun inside parsed abi => ⟨fun free => act_of ?_, fun used => act_of ?_⟩⟩
    · exact doInstall_takes rfl rfl install ho (fun h => absurd own h) (fun _ _ => rfl) (fun _ h => absurd h (Nat.not_lt_of_le out))
    · exact doInstall_takes rfl rfl install ho (fun h => absurd own h) (fun _ h => absurd inside (Nat.not_lt_of_le h))
        (fun _ _ => ⟨slot, x, parsed, abi, fun h => absurd (free.symm.trans h) Bool.false_ne_true, fun _ => rfl⟩)
    · exact doInstall_takes rfl rfl install ho (fun h => absurd own h) (fun _ h => absurd inside (Nat.not_lt_of_le h))
        (fun _ _ => ⟨slot, x, parsed, abi, fun _ => rfl, fun h => absurd (h.symm.trans used) Bool.false_ne_true⟩)
  case soil =>
    have mine : (reqCmd (reqWords s i) == 0x03) = true := by rw [served_cmd h]; rfl
    have adds := soilUpdate_adds (v := reqTaken s i) hk ho hb hkind hon hroom hobj
    refine ⟨fun part => act_of ((takeReq_serves h mine).trans ?_), fun last good => act_of ((takeReq_serves h mine).trans ?_),
      fun last bad => act_of ((takeReq_serves h mine).trans ?_)⟩
    · rw [adds, part]; rfl
    · rw [adds, last, objectOk_reqTaken, good]; rfl
    · rw [adds, last, objectOk_reqTaken, bad]; rfl
  case measure =>
    have same : x = (getMbx (reqTaken s i) i).spdm := by rw [reqTaken, getMbx_modMbx_self]; exact hx
    have mine (op : Nat) (h' : reqOp (reqWords s i) = op) : (reqCmd (reqWords s i) == 0x04 && reqOp (reqWords s i) == op) = true := by
      simp [served_cmd h, h']
    refine ⟨fun h0 y z hy hz => act_of ((takeReq_serves h ?_).trans ?_), fun h1 => act_of ((takeReq_serves h (mine 1 h1)).trans ?_),
      fun h2 => act_of ((takeReq_serves h (mine 2 h2)).trans ?_)⟩
    · simp [served_cmd h, h0]
    · rw [measure_takes h0 ho same hy hz]
    · rw [measure_answers h1, ← same, ← ho]
    · rw [measure_identifies h2, ← ho]; rfl
  case read => exact act_of (doMarlRead_reads h h0 hd)
  case find =>
    have mine : (reqCmd (reqWords s i) == 0x05 && reqOp (reqWords s i) == 1) = true := by simp [served_cmd h, h1]
    exact act_of ((takeReq_serves h mine).trans (congrArg (postReply i · (reqTaken s i)) (marlFindRec_eq _ _)))
  case relay => exact act_of (doRelay_sends h)
  case late => exact act_of (relayLate_refuses hi ht hc)
  case denied =>
    rcases hc with ⟨rfl, hcmd⟩ | ⟨rfl, hcmd⟩ | ⟨rfl, hcmd, hn⟩
    · exact act_of (takeReq_denied hi htake hserves (by rw [hcmd]; rfl) ho (by rw [hcmd]; rfl))
    · exact act_of (doRelay_denied hi htake hcmd (hcmd ▸ hserves) ho)
    · exact act_of (doInstall_takes rfl rfl ⟨hi, htake, hcmd, hcmd ▸ hserves, hn⟩ rfl (fun _ => rfl) (fun h => absurd h ho) (fun h => absurd h ho))

end Sys2Proof.Proofs
end
